-- ==== Sys2Proof/Word.lean ====
section
/-!
DEFINITION. The word of the register map and the unit numbers of the SC1280.
Every register is 32 bits wide (R1). Units are named by bounded numbers: bars, encoder channels,
lanes and so on (spec/00_scope.md, "Identifiers").
-/
namespace Sys2Proof

/-- A register word (R1). -/
abbrev Word := BitVec 32

/-- A bar, B0 to B11. -/
abbrev Bar := Fin 12

/-- An encoder channel, ENC0 to ENC3. -/
abbrev Chan := Fin 4

/-- A lane: LNK0 to LNK15, then MIR0 (16) and MIR1 (17) (R200). -/
abbrev Lane := Fin 18

/-- A camera port or a vision stream. -/
abbrev Port := Fin 4

/-- The 48-bit modulus of the web coordinate. -/
abbrev webMod : Nat := 2 ^ 48

end Sys2Proof
end

