-- ==== Sys2Proof/Syntax.lean ====
section
/-!
DEFINITION. The commands of the block: one constructor for each row of spec/opcode_table.json, with the row's operands.
-/
namespace Sys2Proof

/-- What an enumeration round and its error test give (R184): the returned HOPS and whether a code or disparity error occurred. -/
structure BaseResult where
  hops : Nat
  err : Bool
  deriving DecidableEq, Repr

/-- What a capability round returns (R185). -/
structure Caps where
  rates : Fin 16
  lpm : Fin 4
  ver : Fin 256
  deriving DecidableEq, Repr

/-- What a receiver adapted to at a new rate (R186, R191): a failure code of STEP or 0, the CTLE code and the taps. -/
structure Adapted where
  code : Nat
  ctle : Fin 16
  taps : List Int
  deriving DecidableEq, Repr
/-- What a delay measurement finds of an endpoint, in 1/16 ns: the mean interval I and the latencies u and v (R216). -/
structure EpDelay where
  i : Int
  u : Nat
  v : Nat
  deriving DecidableEq, Repr

/-- What a lamp module answers (R288): a POLL response, or an IDENT response. -/
inductive LampAnswer where
  | poll (status : Fin 256) (headroom : Fin 65536) (open_ unver : Word) (temp : Fin 256)
  | ident (id : Word) (rated : Fin 65536) (segs ver : Fin 256)
  deriving DecidableEq, Repr

/-- What the ECC of a unit finds when it is read (R310): nothing, single-bit errors, or an uncorrectable one. -/
inductive Ecc where
  | clean | corrected | bad
  deriving DecidableEq, Repr

/-- What a DRAM access meets: whether it activates the row, and what the ECC finds. -/
structure Access where
  activate : Bool
  ecc : Ecc
  deriving DecidableEq, Repr

/-- A requester of the job store (R313). The write-backs of ECC, migration and scrub are the controller's own. -/
inductive Client where
  | bar (b : Fin 12)
  | schedule
  | density
  | checkUnit
  | ingest (c : Fin 4)
  | encoder
  | vision
  | window
  | writeBack
  | migrate
  | scrub
  deriving DecidableEq, Repr

/-- A timing set of the memory, ns: tREFIpb, tRFCpb, tpbR2pbR and tRC (spec/13_dram.md, "Refresh"; the values not given by an image are
the examples' own). -/
structure DramTiming where
  refi : Nat := 488
  rfc : Nat := 140
  r2r : Nat := 90
  rc : Nat := 60
  deriving DecidableEq, Repr

/-- HEARTBEAT (R335): mode, ROLE, claim, high-water mark and the last fired issue counts. -/
structure HbRec where
  mode : Nat
  role : Nat
  claim : Nat
  hwm : Nat
  fired : List Nat
  deriving DecidableEq, Repr

/-- POS (R335): the web coordinate (nm) at a network time, the speed (nm/s), issue counts, compare pointers, mode epochs and DEN_LAST. -/
structure PosRec where
  web : Nat
  sec : Nat
  ns : Nat
  speed : Int
  counts : List Nat
  ptrs : List Nat
  epochs : List Nat
  denLast : Nat
  deriving DecidableEq, Repr

/-- SCHED (R335): the words of a schedule entry, under its sequence number, and of the job-table entry it names. -/
structure SchedRec where
  seq : Nat
  entry : List Nat
  job : List Nat
  deriving DecidableEq, Repr

/-- LAMP (R335): staged level words by module, and the pending latch coordinates. -/
structure LampRec where
  levels : List (List Nat)
  coords : List Nat
  deriving DecidableEq, Repr

/-- A line named by a record: entry, unit (2m for copy m, 2m + 1 for the band after it) and index. -/
structure LineRef where
  seq : Nat
  unit : Nat
  idx : Nat
  deriving DecidableEq, Repr

/-- GAINS (R335): a bar's gain table with its bank, temperature offset, loop set and line. -/
structure GainRec where
  bar : Fin 12
  bank : Fin 2
  gains : List (BitVec 8)
  tofs : Option Nat
  setSeq : Nat
  line : Option LineRef
  deriving DecidableEq, Repr

/-- SYNC (R338): the ringmaster's configuration digest and every record as a full set; for each bar the entry and copy it prints and how many
of the copy's lines it has issued. -/
structure SyncRec where
  digest : Nat
  hb : HbRec
  pos : PosRec
  sched : List SchedRec
  noz : List (Nat × Word)
  lamp : LampRec
  cur : List (Option LineRef)
  gains : List GainRec := []
  deriving DecidableEq, Repr

/-- A Sync received on a NET port (R353, R355): sequence number, sender, domain, how long ago its start-of-frame delimiter crossed the
MAC boundary, its origin time where it is one-step, and its correctionField. Intervals and corrections are in 2^-16 ns; `origin` is a
time in 2^-16 ns. -/
structure SyncMsg where
  port : Fin 2
  domain : Nat
  src : Nat
  seq : Nat
  twoStep : Bool
  ago : Nat
  origin : Nat
  corr : Int
  deriving DecidableEq, Repr

/-- An Announce (R353): the data set of its grandmaster. -/
structure AnnMsg where
  port : Fin 2
  domain : Nat
  src : Nat
  prio1 : Fin 256
  class_ : Fin 256
  accuracy : Fin 256
  variance : Fin 65536
  prio2 : Fin 256
  gm : Fin (2 ^ 64)
  steps : Fin 65536
  deriving DecidableEq, Repr

/-- A Delay_Resp, or a Pdelay_Resp with its follow-up (R353): the receive time of the request, the time the peer's response left where
it was given, and the sum of the correction fields, all in 2^-16 ns. -/
structure DelayMsg where
  port : Fin 2
  domain : Nat
  src : Nat
  seq : Nat
  p2p : Bool
  ago : Nat
  rx : Nat
  tx : Nat
  corr : Int
  deriving DecidableEq, Repr

/-- A Delay_Req or Pdelay_Req from another clock. -/
structure ReqMsg where
  port : Fin 2
  domain : Nat
  src : Nat
  seq : Nat
  p2p : Bool
  ago : Nat
  corr : Int
  deriving DecidableEq, Repr
/-- A piece of a lane: the positions of a bar that it carries (R197). -/
structure Piece where
  bar : Nat
  first : Nat
  count : Nat
  deriving DecidableEq, Repr

/-- What the image says of a lane (R184, R185, R192, R197). -/
structure LaneImg where
  en : Bool := false
  expect : Nat := 0
  verMin : Nat := 0
  rateMax : Nat := 0
  tx : Nat := 0
  pieces : List Piece := []
  deriving DecidableEq, Repr

/-- A head of the image's head map (R172): record index, endpoint, slot, bar, row and span. -/
structure HeadImg where
  h : Nat
  ep : Nat
  slot : Nat
  bar : Nat
  row : Nat
  first : Nat
  count : Nat
  deriving DecidableEq, Repr

/-- An endpoint of the image: its address, bar, row and range of positions (R12, R236). -/
structure EpImg where
  ep : Nat
  bar : Nat
  row : Nat
  first : Nat
  count : Nat
  deriving DecidableEq, Repr

/-- The configuration read once at boot from the Criow image (R382, R383). Every "per image" value of the register tables comes from
here: bars and nozzles by bar, dual rows and row B distances (R159), lanes and their pieces, the lanes the alternate map excludes (R199), the
head map, endpoints, the claim, the duplex role, the reaches of critical-state errors, the memory population (R306, R307), the register
transport, excluded sensors (R393), PCIe in use (R384), and the words of the configuration and script sections. -/
structure Image where
  seqNo : Nat := 0
  bars : Nat := 0
  nozzles : List Nat := []
  dual : Nat := 0
  rowB : List Nat := []
  lanes : List LaneImg := []
  altExcl : Nat := 0
  rateTop : Nat := 0
  heads : List HeadImg := []
  eps : List EpImg := []
  claim : Nat := 0
  role : Nat := 0
  crit : Nat := 0
  ranks : Nat := 0
  density : Nat := 0
  x8 : Nat := 0
  spare : Nat := 0
  timing0 : DramTiming := {}
  timing1 : DramTiming := {}
  rtEn : Bool := false
  macs : List Nat := []
  ips : List Nat := []
  excl : Nat := 0
  pcie : Bool := true
  regs : List (Nat × Word) := []
  deriving DecidableEq, Repr

/-- A head as its endpoint reports it at boot step 8 (R172). -/
structure HeadRep where
  h : Nat
  id : Nat
  model : Nat
  rated : Nat
  deriving DecidableEq, Repr

/-- What boot step 3 finds (R306, R322 to R324): whether the stored training record passes its check word, the narrowest write and read eyes
by interface (ps) at OP0 and at OP1, the training record of a successful training, whether the population is the image's, and whether the
check of the read path (of a retaining boot) or the pattern (of stored results) passes. -/
structure DramOut where
  stored : Bool
  eyes : List (Nat × Nat)
  record : List Word
  eyes1 : List (Nat × Nat) := []
  populated : Bool := true
  passes : Bool := true
  deriving DecidableEq, Repr

/-- How a boot step ends (R384): it completes, with what it read, or fails with a code and a detail word. -/
inductive StepOut where
  | done
  | image (i : Image) (copyB signed x4 : Bool)
  | dram (r : DramOut)
  | heads (l : List HeadRep)
  | fail (code : Fin 256) (detail : Nat)
  deriving DecidableEq, Repr

/-- The path a host request comes by (R377, R435). -/
inductive Master where
  | pcie | net
  deriving DecidableEq, Repr

/-- One operation of a register-transport request (R432): a register read or write, a job-store read or write, or a word whose OP or LEN
is not allowed. -/
inductive RtOp where
  | rd (addr : Nat)
  | wr (addr : Nat) (val : Word)
  | rdStore (addr len : Nat)
  | wrStore (addr : Nat) (data : List (BitVec 8))
  | bad (word0 : Word)
  deriving DecidableEq, Repr

/-- A UDP datagram that reaches a NET port (R432, R433): where it came from, where it is addressed, whether its header is right, SEQ, the
operations. -/
structure RtMsg where
  port : Fin 2
  src : Nat
  ip : Nat
  udp : Nat
  header : Bool
  seq : Nat
  ops : List RtOp
  deriving DecidableEq, Repr

/-- The commands, in the order of the table; each docstring is the row's mnemonic, rule and summary. -/
inductive Instr where
  /-- REGISTER_WRITE (R2). A host write to a register that has no row of its own updates it under its access code. -/
  | registerWrite (addr : Nat) (val : Word) (be : Fin 16)
  /-- MODE_REQUEST (R26). A host write of SYS_MODE_REQ.TARGET requests a mode transition, which the device accepts or refuses. -/
  | modeRequest (target : Fin 16)
  /-- TRANSITION_COMPLETE (R21). A mode transition in progress completes at the line boundaries of all bars, and any held device transition is then made or dropped. -/
  | transitionComplete
  /-- CAUSE_CLR (R25). A pulse of SYS_MODE.CAUSE_CLR clears CAUSE and its shadow to 0x00. -/
  | causeClr
  /-- POS_CFG_WRITE (R28). A write to POS_CFG or POS_SCALE is applied or discarded with POS_SET_REFUSED by mode and channel state. -/
  | posCfgWrite (off : Nat) (val : Word)
  /-- ANALOG_SAMPLE (R30). Every 100 ns an analog channel updates its interpolated phase and raw count. -/
  | analogSample (ch : Fin 2) (sn cs : Int)
  /-- AMPLITUDE_EPISODE (R31). An analog signal radius out of range for 16 consecutive samples starts an amplitude episode. -/
  | amplitudeEpisode (ch : Fin 2) (high : Bool)
  /-- QUAD_EDGE (R32). A change of a sampled quadrature level is accepted or filtered and moves the count. -/
  | quadEdge (ch : Chan) (a b : Bool)
  /-- MINSP_ELAPSED (R33). When the minimum spacing has passed with the line still changed, the change is accepted as an edge. -/
  | minspElapsed (ch : Chan) (line : Fin 3)
  /-- INDEX_EDGE (R40). An active index edge captures the raw count and checks it against the expected count. -/
  | indexEdge (ch : Chan) (level : Bool)
  /-- SSI_REQUEST (R38). Every PERIOD a serial channel requests a word transfer. -/
  | ssiRequest (ch : Chan)
  /-- SSI_TRANSFER_START (R38). The data line going high after a request starts the serial transfer. -/
  | ssiTransferStart (ch : Chan)
  /-- SSI_TIMEOUT (R38). The data line not high within TIMEOUT loses the word and increments the timeout counter. -/
  | ssiTimeout (ch : Chan)
  /-- SSI_WORD (R39). A completed serial word is checked, Gray-converted and moves the raw counter, or is discarded as a check failure or jump. -/
  | ssiWord (ch : Chan) (hi lo : Word)
  /-- WEB_SET (R46). A write of POS_WEB_SET_HI sets the web coordinate and high-water mark, or is refused by mode. -/
  | webSet (hi : Word)
  /-- SPEED_WINDOW_END (R48). At the end of each speed window the device computes POS_SPEED, direction, stability and over-speed. -/
  | speedWindowEnd
  /-- FAULT_WINDOW_END (R52). At the end of each fault window the per-channel fault counts restart. -/
  | faultWindowEnd
  /-- POS_CNT_CLR (R52). A pulse of POS_CTL.CNT_CLR clears every cumulative encoder fault counter and IDXDEV. -/
  | posCntClr
  /-- TRIM_MEASURE (R53). A pulse of MEASURE starts a trim measurement over PERIODS signal periods. -/
  | trimMeasure (n : Fin 2)
  /-- TRIM_DONE (R53). A trim measurement completes and writes corrective codes to MEAS. -/
  | trimDone (n : Fin 2) (periods : Nat)
  /-- TRIM_APPLY (R54). A pulse of APPLY installs trim codes with extrapolation, or is refused with TRIM_REFUSED. -/
  | trimApply (n : Fin 2)
  /-- TRIM_APPLIED (R54). The trim interruption ends and the coordinate takes the interpolated value. -/
  | trimApplied (n : Fin 2)
  /-- TRIM_STORE (R56). A pulse of STORE writes the applied codes with a check word to the persistent record. -/
  | trimStore (n : Fin 2)
  /-- BUOY (R63). At a buoy the line clock measures the registration error, resets its rate and applies a bounded correction. -/
  | buoy (b : Bar)
  /-- LINE_ISSUE (R67). When the count reaches the issue point and the gate is open, a line is issued with its fire instant and FIRE blocks. -/
  | lineIssue (b : Bar)
  /-- LINE_GATED (R66). A bar held by the gate for 1 ms without interruption raises LINE_GATED. -/
  | lineGated (b : Bar)
  /-- FIRE_INSTANT (R68). At a fire instant the mapped STB outputs rise, the carousel slot is freed and any previous strobe ends. -/
  | fireInstant (b : Bar)
  /-- STROBE_END (R68). A strobe ends at its width, the line counts as fired and LTC_BAR LINE takes it. -/
  | strobeEnd (b : Bar)
  /-- STROBE_CUT (R79). An STB watchdog reaching WDOG cuts the output low, sets CUT and raises STROBE_CUT. -/
  | strobeCut (n : Fin 8)
  /-- STB_CUT_CLEAR (R79). A W1C write to LTC_STB_STATUS.CUT lets the output fire again. -/
  | stbCutClear (mask : Word)
  /-- OFFSET_WRITE (R71). A write of a bar offset is applied in IDLE and CALIBRATE or refused with LTC_SET_REFUSED. -/
  | offsetWrite (b : Bar) (desc : Bool) (val : Word)
  /-- CMP_POOL_WRITE (R81). A write of a compare pool entry pair is applied or discarded when inside a running list. -/
  | cmpPoolWrite (i : Fin 16384) (hi : Word)
  /-- CMP_CROSSING (R82). The compare coordinate crossing the current entry starts a pulse and advances the pointer. -/
  | cmpCrossing (n : Fin 32)
  /-- CMP_PULSE_END (R84). A compare pulse ends after its width. -/
  | cmpPulseEnd (n : Fin 32)
  /-- SETTINGS_COMMIT (R107). A pulse of SYS_COMMIT.SET captures every written staged field as a settings set with its anchor, or is refused. -/
  | settingsCommit
  /-- SETTINGS_APPLY (R109). A pending set applies on a bar at its line k, or late, or at the end of printing. -/
  | settingsApply (b : Bar) (seq : Nat)
  /-- CONFIG_COMMIT (R112). A pulse of SYS_COMMIT.CFG checks resource claims and puts configuration fields into effect, or refuses. -/
  | configCommit
  /-- CONFIG_COMMIT_DONE (R161). A commit that sent mask patterns completes once every endpoint has acknowledged or been inhibited. -/
  | configCommitDone
  /-- SCHED_RESET (R117). A pulse of JOB_CTL.SCHED_RESET in IDLE sets HEAD, TAIL and the sequence number to 0. -/
  | schedReset
  /-- BREAK (R100). A pulse of JOB_CTL.BREAK fixes the copy count of the entry in progress. -/
  | schedBreak
  /-- SCHED_TAIL_WRITE (R95). A host write of JOB_SCHED_TAIL adds entries to the schedule ring. -/
  | schedTailWrite (val : Word)
  /-- SCHED_FETCH (R101). When a bar starts the last copy of an entry, the engine fetches and checks the next entry. -/
  | schedFetch
  /-- JOB_BOUNDARY (R99). A bar takes the boundary to its next copy, truncating or skipping lines as required. -/
  | jobBoundary (b : Bar)
  /-- INGEST_DESCRIPTOR_START (R105). An ingest channel starts processing the descriptor at HEAD, copying or encoding data. -/
  | ingestDescriptorStart (c : Port) (desc : List Nat) (data : List (BitVec 8))
  /-- INGEST_DESCRIPTOR_DONE (R106). A descriptor completes or fails, writing STAT, advancing HEAD and signalling its vector. -/
  | ingestDescriptorDone (c : Port)
  /-- DMA_TIMEOUT (R106). A descriptor not completed within CTL.TMO fails with ERR 4 and stops the channel. -/
  | dmaTimeout (c : Port)
  /-- INGEST_RESTART (R106). A write of JOB_ING CTL.EN = 1 restarts a stopped channel at HEAD. -/
  | ingestRestart (c : Port) (val : Word)
  /-- BLOCK_ROW_DECODE (R131). A block row fetched by a bar reader is decoded into decode staging, or fails to no-fire. -/
  | blockRowDecode (b : Bar) (row : Nat)
  /-- CDC_CNT_CLR (R134). A pulse of CDC_CTL.CNT_CLR clears CDC_BAR BAD counters. -/
  | cdcCntClr
  /-- SCREEN_LINE (R153). The screening array screens and assembles one line of a bar, in the order of work priority. -/
  | screenLine (b : Bar)
  /-- CHECKPOINT_COPY (R150). After a checkpoint line is committed the working error row is copied into the committed row and screening resumes. -/
  | checkpointCopy (b : Bar)
  /-- REPLAY_LINE (R152). A rollback replays lines from the committed row without writing them to the carousel. -/
  | replayLine (b : Bar)
  /-- GAIN_LOAD (R140). A set changing GAIN_BANK or GAIN_EN loads the selected bank into tile memory. -/
  | gainLoad (b : Bar)
  /-- MATRIX_WRITE (R142). A write through the matrix window is applied or discarded with SCR_WRITE_REFUSED when busy. -/
  | matrixWrite (x y : Fin 128) (hi : Word)
  /-- SCR_CNT_CLR (R157). A pulse of SCR_CTL.CNT_CLR clears ROLLBACK and STARVED of every bar. -/
  | scrCntClr
  /-- OUT_BANK_WRITE (R166). A write to an out bank entry or length is applied or discarded with NOZ_WRITE_REFUSED when busy. -/
  | outBankWrite (b : Bar) (bank : Fin 2) (entry : Option (Fin 4096)) (val : Word)
  /-- OVT_RELEASE (R170). A head whose bit has read clear for OVT_REL ms has its span overrides released. -/
  | ovtRelease (h : Fin 1024)
  /-- OVT_CLR (R170). A pulse of NOZ_CTL.OVT_CLR releases every head whose bit reads clear. -/
  | ovtClr
  /-- NOZ_HEAD_ACT_WRITE (R172). A write of NOZ_HEAD_ACT sets a head count in IDLE or is refused. -/
  | nozHeadActWrite (hi : Word)
  /-- LIFE_PERSIST (R174). The device persists changed head counts at its timed and event-driven occasions. -/
  | lifePersist
  /-- LIFE_SAVE (R174). A pulse of NOZ_CTL.LIFE_SAVE persists changed head counts. -/
  | lifeSave
  /-- NOZ_CNT_CLR (R176). A pulse of NOZ_CTL.CNT_CLR clears LOST and SPREADS of every bar. -/
  | nozCntClr
  /-- RING_CLOSED (R183). 1,024 returned DET sets with the device nonce close the ring and move the lane to BASE. -/
  | ringClosed (n : Lane) (hops : Nat)
  /-- BASE_PASSED (R184). Enumeration and the 1 ms error test pass and the lane moves to NEGOTIATE. -/
  | basePassed (n : Lane) (r : BaseResult)
  /-- NEGOTIATE_DONE (R185). Returned capabilities select the lane rate or fail the lane. -/
  | negotiateDone (n : Lane) (c : Caps)
  /-- STEP_DONE (R186). The device receiver locks and adapts at the new rate and the lane moves to ALIGN. -/
  | stepDone (n : Lane) (r : Adapted)
  /-- ALIGN_PASSED (R187). The link test passes and the lane enters ACTIVE. -/
  | alignPassed (n : Lane) (code : Nat)
  /-- LANE_STATE_TIMEOUT (R182). A lane state exceeding its limit records a failure code and returns to DETECT or FAILED. -/
  | laneStateTimeout (n : Lane) (code : Nat)
  /-- LOCK_LOSS (R189). Too many invalid sync headers or code errors in ACTIVE move the lane to RECOVER. -/
  | lockLoss (n : Lane) (symbols : Nat)
  /-- RECOVER_DONE (R189). 100 µs of clean returned ALIGN blocks return the lane to ACTIVE. -/
  | recoverDone (n : Lane)
  /-- RECOVER_TIMEOUT (R189). A lane not recovered within 1 ms turns its transmitter off for 2 ms. -/
  | recoverTimeout (n : Lane)
  /-- RECOVER_DARK_END (R189). After 2 ms dark the lane enters DETECT for a full bring-up. -/
  | recoverDarkEnd (n : Lane)
  /-- LMS_UPDATE (R191). Every 1,024 blocks in MODE 0 the DFE coefficients take one LMS update. -/
  | lmsUpdate (n : Lane) (grads : List Int)
  /-- EQ_WRITE (R191). A write of EQ coefficients is accepted in MODE 2 or refused with LANE_REQ_REFUSED. -/
  | eqWrite (n : Lane) (which : Fin 3) (val : Word)
  /-- MARGIN (R193). A pulse of CTL.MARGIN starts an eye measurement on an ACTIVE lane. -/
  | margin (n : Lane)
  /-- MARGIN_DONE (R193). The eye measurement completes and writes ZXL_LANE MARGIN. -/
  | marginDone (n : Lane) (h v : Nat)
  /-- L1_ENTER (R194). A pulse of CTL.L1 sends LPI blocks and idles the lane, or is refused. -/
  | l1Enter (n : Lane)
  /-- L2_ENTER (R195). A pulse of CTL.L2 sends DARK blocks and powers the lane down, or is refused. -/
  | l2Enter (n : Lane)
  /-- LANE_WAKE (R194). A pulse of CTL.WAKE, or queued traffic, starts an exit from L1 or L2. -/
  | laneWake (n : Lane)
  /-- LPM_EXIT_DONE (R195). A low-power exit completes with the lane ACTIVE, or fails with 0x90 after 2 ms. -/
  | lpmExitDone (n : Lane)
  /-- L1_IDLE_TIMER (R196). L1_MS of IDLE without CMD traffic enters L1. -/
  | l1IdleTimer (n : Lane)
  /-- L2_TIMER (R196). L2_S seconds in L1 enters L2. -/
  | l2Timer (n : Lane)
  /-- RETRAIN (R201). A pulse of CTL.RETRAIN starts a full bring-up and clears the retry count. -/
  | retrain (n : Lane)
  /-- LINE_FRAME_SEND (R214). A committed line is sent whole in LINE frames when the lane has room. -/
  | lineFrameSend (b : Bar)
  /-- BEACON (R219). Every 100 µs the device sends a BEACON with its claim and time on every ACTIVE lane. -/
  | beacon (n : Lane)
  /-- STATUS_FRAME_SEND (R221). Every 50 µs the device sends a STATUS frame on every ACTIVE lane. -/
  | statusFrameSend (n : Lane)
  /-- STATUS_FRAME_RETURN (R223). A returned STATUS frame is checked and its slots feed fault vectors, epochs, temperatures and acknowledgements. -/
  | statusFrameReturn (n : Lane) (seq : Nat) (crcOk : Bool) (slots : List (BitVec 64))
  /-- STATUS_FRAME_LOST (R223). A STATUS frame not returned within 50 µs of the next start is ignored and counted. -/
  | statusFrameLost (n : Lane)
  /-- FAULT_WINDOW_CLOSE (R223). At the end of each 1 ms window class vectors raise fault-class events or EP_FAULT_CLEAR. -/
  | faultWindowClose
  /-- FVEC_CLEAR (R223). A W1C write to ZXL_FVEC clears accumulated bits of the class named by FSEL. -/
  | fvecClear (w : Fin 32) (mask : Word)
  /-- ECMD_READ (R224). A ZXL_ECMD write with OP 1 sends a CMD read to one endpoint. -/
  | ecmdRead (ep : Fin 1024) (reg : Fin 65536)
  /-- ECMD_WRITE (R224). A ZXL_ECMD write with OP 2 sends a CMD write to one endpoint. -/
  | ecmdWrite (ep : Fin 1024) (reg : Fin 65536)
  /-- ECMD_BROADCAST_WRITE (R224). A ZXL_ECMD write with OP 3 sends a broadcast write to a bar. -/
  | ecmdBroadcastWrite (b : Bar) (reg : Fin 65536)
  /-- RSP_RECEIVED (R224). A correct RSP completes the endpoint command. -/
  | rspReceived (n : Lane) (tag : Fin 256) (status : Fin 256) (word : Word)
  /-- CMD_TIMEOUT (R224). A command with no correct RSP within CMD_TMO is retried, then raises EP_NO_RESPONSE. -/
  | cmdTimeout
  /-- PUSH_RESEND (R226). A MASK frame or broadcast not acknowledged within 1 ms is resent, then the endpoint inhibited with EP_PUSH_FAILED. -/
  | pushResend (n : Lane)
  /-- DELAY_MEASURE (R216). A pulse of ZXL_PCTL.DMEAS in IDLE or CALIBRATE starts a chain-delay measurement with 64 DMARK blocks. -/
  | delayMeasure
  /-- DELAY_MEASURE_DONE (R216). After the last mark the device computes and writes each endpoint delay, or inhibits one beyond 3,000 ns. -/
  | delayMeasureDone (n : Lane) (ring : Int) (eps : List EpDelay)
  /-- MODE_CHANGE_DEADLINE (R230). A missing acknowledgement at DEADLINE starts an abort with ABT set. -/
  | modeChangeDeadline (b : Bar)
  /-- MODE_CHANGE_ABORT_END (R230). At line L − GUARD or after 1 ms the abort ends with EP_MODE_ABORTED and staged fields restored. -/
  | modeChangeAbortEnd (b : Bar)
  /-- STATE_PUSH (R231). Every 10 ms the device pushes full state to each inhibited endpoint. -/
  | statePush (ep : Fin 1024)
  /-- FRAME_START (R242). A camera frame start captures coordinate and time and applies settings due at this frame. -/
  | frameStart (p : Port)
  /-- LINE_START (R242). A camera line start captures coordinate and time and feeds the pipeline and accumulators. -/
  | lineStart (p : Port)
  /-- FRAME_END (R245). A camera frame ends and is classified with its flags and records. -/
  | frameEnd (p : Port)
  /-- VSYNC_TIMEOUT (R246). No frame start within TMO raises VIS_VSYNC_TMO and marks the next frame LATE. -/
  | vsyncTimeout (p : Port)
  /-- EXPOSURE_END (R243). CAMn_EXP returns inactive after its width. -/
  | exposureEnd (p : Port)
  /-- I2C_WRITE (R244). A VIS_CAM I2C write with OP 1 starts a single I2C write transaction. -/
  | i2cWrite (p : Port) (val : Word)
  /-- I2C_READ (R244). A VIS_CAM I2C write with OP 2 starts a single I2C read transaction. -/
  | i2cRead (p : Port) (val : Word)
  /-- I2C_DONE (R244). An I2C transaction completes, or ends with NACK and VIS_I2C_NACK. -/
  | i2cDone (p : Port) (ack : Bool) (data : Fin 256)
  /-- SENSOR_LIST_DONE (R263). The staged sensor list completes after its last entry. -/
  | sensorListDone (p : Port) (nacks : List Nat)
  /-- M2M_FRAME (R249). The pipeline starts processing a written raw slot in order of frame start. -/
  | m2mFrame
  /-- M2M_FRAME_DONE (R249). Processing of a raw slot ends and the slot is freed. -/
  | m2mFrameDone
  /-- VIS_TABLE_WRITE (R265). A write through the table window is applied or refused with VIS_WRITE_REFUSED. -/
  | visTableWrite (i : Fin 2048) (val : Word)
  /-- VIS_CNT_CLR (R266). A pulse of VIS_CTL.CNT_CLR clears every VIS counter. -/
  | visCntClr
  /-- BAND_NOW (R272). A pulse of DEN_CTL.BAND_NOW requests a rotation band. -/
  | bandNow
  /-- DEN_ESTIMATE (R276). After the last counted camera line the loop estimates deviations and computes the new gains and offset. -/
  | denEstimate
  /-- DEN_CAPTURE (R280). Once the other bank is free the loop writes it and captures its update as a settings set. -/
  | denCapture
  /-- DEN_BUSY_TIMEOUT (R281). A bank busy for 10 ms abandons the update with BUSY. -/
  | denBusyTimeout
  /-- DEN_RESTORE (R282). A pulse of RESTORE captures a set returning the previous gains and offset, or is refused. -/
  | denRestore (b : Bar)
  /-- DEN_RESUME (R282). A pulse of RESUME clears PAUSED. -/
  | denResume (b : Bar)
  /-- DEN_CNT_CLR (R285). A pulse of DEN_CTL.CNT_CLR clears COUNT and BANDS of every bar. -/
  | denCntClr
  /-- LAMP_STAGE (R293). After a LATCH the device stages every module whose levels differ for the next LATCH. -/
  | lampStage
  /-- LAMP_LATCH (R289). A latch pulse, once staging is complete, sends the LATCH break. -/
  | lampLatch
  /-- LATCH_NOW (R293). A pulse of LMP_CTL.LATCH_NOW sends a LATCH once staging is complete. -/
  | latchNow
  /-- COVERAGE_TICK (R295). At a coverage tick each following module takes levels from the coverage of its window. -/
  | coverageTick
  /-- LAMP_POLL (R290). Each poll round the device polls modules and runs the headroom loop. -/
  | lampPoll
  /-- LAMP_RESPONSE (R290). A module response updates status, open and unverified bits. -/
  | lampResponse (m : Fin 16) (crcOk : Bool) (r : LampAnswer)
  /-- LAMP_RSP_TIMEOUT (R290). A poll not answered within RSP_TMO counts a miss and may mark the module LOST. -/
  | lampRspTimeout (m : Fin 16)
  /-- LAMP_ON_SECOND (R299). Each second with a lit segment increments the module on-seconds and checks its life. -/
  | lampOnSecond
  /-- HOURS_SAVE (R299). A pulse of LMP_CTL.HOURS_SAVE persists changed lamp on-seconds. -/
  | hoursSave
  /-- LMP_CNT_CLR (R303). A pulse of LMP_CTL.CNT_CLR clears LATE, MERGED and module counters. -/
  | lmpCntClr
  /-- PANEL_ROW_SWITCH (R301). Every 62.5 µs the panel scan switches to the next row. -/
  | panelRowSwitch
  /-- REFRESH_DUE (R316). A per-bank refresh falls due on a channel-rank and is issued, postponed or inserted. -/
  | refreshDue (ch : Fin 4) (r : Fin 2)
  /-- MR4_POLL (R318). The controller reads MR4 and changes temperature classes, paying debt as required. -/
  | mr4Poll (cr : Fin 8) (rate : Fin 32) (cls : Fin 4)
  /-- TRACKER_WINDOW_END (R320). At the end of each tracker window every row-disturbance entry is cleared. -/
  | trackerWindowEnd (cr : Fin 8)
  /-- MEMORY_READ (R310). A read of a job-store unit is ECC-checked, corrected or poisoned. -/
  | memoryRead (who : Client) (u : Nat) (x : Access)
  /-- MEMORY_WRITE (R308). A write of a data unit writes check bytes and clears poison, merging partial writes. -/
  | memoryWrite (who : Client) (a : Nat) (data : List (BitVec 8)) (x : Access)
  /-- SCRUB_UNIT (R312). The patrol scrub reads the next data unit at lowest priority. -/
  | scrubUnit (activate : Bool) (e : Ecc)
  /-- WCK_TRACK (R325). Every 100 ms the controller measures and corrects WCK-to-DQ delay. -/
  | wckTrack (drifts : List (Nat × Nat))
  /-- OP_CHANGE_REQUEST (R326). A write of DRC_OP.TARGET requests an operating-point change, accepted or refused. -/
  | opChangeRequest (op1 : Bool)
  /-- OP_CHANGE_DONE (R326). The operating-point change completes and traffic resumes. -/
  | opChangeDone
  /-- RANK_RETIRE (R327). A pulse of DRC_CTL.RETIRE, or an error limit, begins retirement and migration of a rank. -/
  | rankRetire (i : Fin 2)
  /-- MIGRATION_COPY (R327). Migration copies the next unit to the spare rank. -/
  | migrationCopy (i : Fin 2) (e0 e1 : Ecc)
  /-- UNRETIRE (R328). A pulse of DRC_CTL.UNRETIRE in IDLE clears a retirement from the next boot. -/
  | unretire (i : Fin 2)
  /-- DRC_CNT_CLR (R330). A pulse of DRC_CTL.CNT_CLR clears every DRC counter. -/
  | drcCntClr
  /-- HEARTBEAT_SEND (R335). Every 100 µs the ringmaster sends a HEARTBEAT on both mirror lanes. -/
  | heartbeatSend
  /-- POS_RECORD_SEND (R335). Every 1 ms the ringmaster sends a POS record. -/
  | posRecordSend
  /-- HEARTBEAT_RX (R335). A received HEARTBEAT updates partner mode, claim and fired issue counts. -/
  | heartbeatRx (seq : Nat) (r : HbRec)
  /-- SCHED_RX (R335). A received SCHED record adds a mirrored schedule entry. -/
  | schedRx (seq : Nat) (r : SchedRec)
  /-- SETREC_RX (R343). A received SETREC record is paired with a held set. -/
  | setrecRx (seq setSeq digest : Nat) (atCapture : Bool) (lines : List (Option LineRef))
  /-- LCRC_RX (R341). A received LCRC record is compared with the safety net's own line check value. -/
  | lcrcRx (seq : Nat) (b : Bar) (wire value : Nat)
  /-- LCRC_RECOMPUTE (R341). A mismatching line is recomputed and the mismatch confirmed or found a self fault. -/
  | lcrcRecompute (b : Bar) (value : Nat)
  /-- GAINS_RX (R343). A received GAINS record writes the bank and applies the loop set. -/
  | gainsRx (seq : Nat) (b : Bar) (bank : Fin 2) (gains : List (BitVec 8)) (tofs : Option Nat) (setSeq : Nat) (line : Option LineRef)
  /-- NOZ_RX (R335). A received NOZ record loads mask patterns and out banks. -/
  | nozRx (seq : Nat) (words : List (Nat × Word))
  /-- LAMP_RX (R335). A received LAMP record loads mirrored lamp state. -/
  | lampRx (seq : Nat) (r : LampRec)
  /-- POS_RX (R351). A received POS record is compared with the own web coordinate. -/
  | posRx (seq : Nat) (r : PosRec)
  /-- SYNC_REQ_RX (R338). The ringmaster answers a SYNC_REQ with a SYNC record set. -/
  | syncReqRx (seq digest : Nat)
  /-- SYNC_RX (R338). A complete SYNC with matching digest loads mirrored state and enters shadowing. -/
  | syncRx (seq : Nat) (r : SyncRec)
  /-- SYNC_TIMEOUT (R338). SYNC incomplete after 100 ms raises DPX_SYNC_FAILED and returns to IDLE. -/
  | syncTimeout
  /-- TAKEOVER_RX (R348). A received TAKEOVER deposes the ringmaster into SAFE. -/
  | takeoverRx (seq claim web : Nat)
  /-- HEARTBEAT_TIMEOUT (R344). 310 µs without a heartbeat triggers a take-over or DPX_PARTNER_LOST. -/
  | heartbeatTimeout
  /-- TAKEOVER (R345). A pulse of DPX_CTL.TAKEOVER, or a trigger, makes the safety net raise its claim and print. -/
  | takeover
  /-- SET_PAIR_TIMEOUT (R343). A set or record unpaired for SETTMO unguards the bar and applies at capture. -/
  | setPairTimeout
  /-- CLAIM_SET (R332). A write of DPX_CLAIM.SET sets ZXL_CLAIM in IDLE or is refused. -/
  | claimSet (val : Word)
  /-- DPX_CNT_CLR (R350). A pulse of DPX_CTL.CNT_CLR clears every DPX counter. -/
  | dpxCntClr
  /-- PTP_SYNC (R356). A received Sync updates the offset and the servo, or counts toward a step. -/
  | ptpSync (m : SyncMsg)
  /-- PTP_ANNOUNCE (R353). A received Announce takes part in best master selection. -/
  | ptpAnnounce (m : AnnMsg)
  /-- PTP_DELAY_RESP (R356). A delay response message updates the mean path delay. -/
  | ptpDelayResp (m : DelayMsg)
  /-- ANNOUNCE_TIMEOUT (R357). announceReceiptTimeout expiry loses the master and enters the lightship. -/
  | announceTimeout
  /-- SYNC_LOSS (R357). No Sync within 4 intervals loses the master and enters the lightship. -/
  | syncLoss
  /-- PTP_SYNC_SEND (R354). In master-only role the device sends Sync and Announce messages on their intervals. -/
  | ptpSyncSend
  /-- SET_TIME (R358). A pulse of PTP_CTL.SET_TIME in master-only role steps the time to PTP_SET. -/
  | setTime
  /-- TIME_CAPTURE (R365). A pulse of PTP_CTL.CAPTURE latches the time into PTP_CAP. -/
  | timeCapture
  /-- PTP_CNT_CLR (R365). A pulse of PTP_CTL.CNT_CLR clears PTP_RXDROP. -/
  | ptpCntClr
  /-- ACTION_ARM (R361). A pulse of ARM checks an action slot and sets it ARMED or LATE, or is refused. -/
  | actionArm (a : Fin 4) (target : Fin 16)
  /-- ACTION_CANCEL (R361). A pulse of CANCEL sets an ARMED slot to CANCELLED. -/
  | actionCancel (a : Fin 4)
  /-- ACTION_FIRE (R361). The device time reaching an armed target makes the slot's mode request. -/
  | actionFire (a : Fin 4)
  /-- POWER_ON (R368). VIN above 2.65 V for 1 ms releases power-on reset and powers PD1. -/
  | powerOn
  /-- VIN_LOW (R368). VIN below 2.55 V for 2 µs asserts power-on reset. -/
  | vinLow
  /-- BROWNOUT (R368). A domain regulator brown-out asserts a reset of the domain's reach. -/
  | brownout (p : Fin 12) (lowNs : Nat)
  /-- RSTN_ASSERT (R371). RSTn low for at least 1 µs asserts SYSTEM reset. -/
  | rstnAssert
  /-- RSTN_RELEASE (R371). RSTn going high releases its reset source. -/
  | rstnRelease
  /-- PERST_ASSERT (R423). PERST# low resets PD2. -/
  | perstAssert
  /-- PERST_RELEASE (R423). PERST# high releases PD2 and link training starts. -/
  | perstRelease
  /-- PCIE_LINK_DOWN (R371). A PCIe link-down while PD2 is released resets PD2. -/
  | pcieLinkDown
  /-- HST_LINK_UP (R423). PCIe link training settles at a rate and is reported. -/
  | hstLinkUp (speed : Fin 5) (width : Fin 9)
  /-- PCIE_POWER_STATE (R424). A host change of D-state or Bus Master Enable holds or releases DMA and messages. -/
  | pciePowerState (d3 bme msix fmask : Bool)
  /-- SW_RESET (R377). A pulse of RPC_SWRST.GO requests a reset of the named reach, accepted or refused. -/
  | swReset (via : Master) (reach : Fin 4) (dom : Fin 16) (block : Fin 256)
  /-- DOMAIN_POWER_DOWN (R377). A pulse of RPC_PWR.GO with OFF = 1 powers a domain down after its idle check. -/
  | domainPowerDown (via : Master) (dom : Fin 16)
  /-- DOMAIN_POWER_UP (R377). A pulse of RPC_PWR.GO with OFF = 0 powers a domain up through reset and release. -/
  | domainPowerUp (via : Master) (dom : Fin 16)
  /-- RESET_TAKE_HOLD (R374). A pending synchronous-domain reset takes hold once its clock is good. -/
  | resetTakeHold (p : Fin 12)
  /-- RESET_RELEASE (R374). A domain is released after its clocks are good and every covering source has released. -/
  | resetRelease (p : Fin 12)
  /-- CLOCK_LOSS (R370). A clock monitor window failing sets RPC_CLK.LOST and raises CLK_LOST. -/
  | clockLoss (k : Fin 12)
  /-- WATCHDOG_EXPIRY (R380). The management watchdog expiring asserts SYSTEM reset. -/
  | watchdogExpiry
  /-- CRIT_ERROR (R379). An uncorrectable error in protected state enters SAFE or resets by the configured reach. -/
  | critError (cls : Fin 4)
  /-- CAUSE_CLEAR (R373). A W1C write to RPC_CAUSE clears reset cause bits. -/
  | causeClear (mask : Word)
  /-- BOOT_STEP_COMPLETE (R384). A boot step completes or fails and the next step, a retry, a skip or BOOT_HALT follows. -/
  | bootStepComplete (r : StepOut)
  /-- BOOT_STEP_TIMEOUT (R384). A boot step exceeding its limit fails with code 0xFF. -/
  | bootStepTimeout
  /-- BOOT_RETRY (R385). 10 ms after a retried step's failure the device asserts SYSTEM reset with cause RETRY. -/
  | bootRetry
  /-- WAKE (R388). WAKEn low for at least 1 µs leaves SLEEP and starts the boot. -/
  | wake
  /-- VIO_LOSS (R450). A bank supply below 80 % sets its balls high-impedance and raises BOOT_VIO_MISSING. -/
  | vioLoss (bank : Fin 3)
  /-- VIO_RECOVER (R450). A recovered bank supply restores its balls' driven states. -/
  | vioRecover (bank : Fin 3)
  /-- SPI_READ (R386). A pulse of RPC_SPI_CTL.GO with READ = 1 reads flash into the buffer, or is refused. -/
  | spiRead (val : Word)
  /-- SPI_WRITE (R386). A pulse of RPC_SPI_CTL.GO with READ = 0 writes the buffer to flash, or is refused. -/
  | spiWrite (val : Word)
  /-- SPI_DONE (R386). A flash transfer completes. -/
  | spiDone (data : List (BitVec 8))
  /-- THERMAL_SAMPLE (R395). A die temperature sample is taken and compared with every limit and the prediction. -/
  | thermalSample (counts : List Nat)
  /-- THM_SAMPLE (R394). A pulse of THM_CTL.SAMPLE takes one extra sample at once. -/
  | thmSample (counts : List Nat)
  /-- ORDERLY_STOP_DONE (R399). The orderly stop finishes persisting records and powers PD1 off. -/
  | orderlyStopDone
  /-- PEAK_CLR (R402). A pulse of THM_CTL.PEAK_CLR clears THM_PEAK. -/
  | peakClr
  /-- CRC_GO (R406). A pulse of CRC_U CTL.GO starts a check-value unit from INIT. -/
  | crcGo (n : Fin 8)
  /-- CRC_RESUME (R407). A pulse of CTL.RESUME starts a unit from VALUE. -/
  | crcResume (n : Fin 8)
  /-- CRC_FINISH (R406). A pulse of CTL.FINISH ends a stream unit and forms its result. -/
  | crcFinish (n : Fin 8)
  /-- CRC_ABORT (R406). A pulse of CTL.ABORT stops a unit after the last whole byte. -/
  | crcAbort (n : Fin 8) (fed : Nat) (tile : List (BitVec 8))
  /-- CRC_DATA (R405). A write of DATA feeds four stream bytes, or is discarded with DROP. -/
  | crcData (n : Fin 8) (val : Word)
  /-- CRC_DATA_B (R405). A write of DATA_B feeds one stream byte, or is discarded with DROP. -/
  | crcDataB (n : Fin 8) (val : BitVec 8)
  /-- CRC_DMA_END (R406). A DMA source reaching LEN, or an error, ends the unit and compares its result. -/
  | crcDmaEnd (n : Fin 8) (tile : List (BitVec 8)) (bad : Bool)
  /-- PRS_WRITE (R410). A host write of a persistent word stalls until it is persistent, or is refused. -/
  | prsWrite (w : Fin 8192) (val : Word) (bad : Bool)
  /-- PRS_DEVICE_WRITE (R410). The write engine makes a device write of a persistent word when no host write waits. -/
  | prsDeviceWrite (bad : Bool)
  /-- PRS_READ (R413). A read of a persistent word corrects or reports ECC errors. -/
  | prsRead (w : Fin 8192) (e : Ecc)
  /-- PRS_CNT_CLR (R420). A pulse of PRS_CTL.CNT_CLR clears PRS_CNT. -/
  | prsCntClr
  /-- FREEZEN_FALL (R414). A qualified high-to-low transition of FREEZEn starts freeze entry. -/
  | freezenFall
  /-- DBG_FREEZE (R414). A write of DBG_FREEZE with the key and GO starts freeze entry, or counts a bad key. -/
  | dbgFreeze (val : Word)
  /-- FREEZE_STROBES_DONE (R415). When every STB is low the freeze stops CK9 and CK1 and writes the freeze record. -/
  | freezeStrobesDone
  /-- JTAG_IDCODE (R418). The IDCODE instruction shifts out the device identity. -/
  | jtagIdcode
  /-- JTAG_SAMPLE_PRELOAD (R418). The SAMPLE/PRELOAD instruction selects the boundary register. -/
  | jtagSamplePreload
  /-- JTAG_EXTEST (R418). The EXTEST instruction drives the boundary register in FROZEN, else bypass. -/
  | jtagExtest
  /-- JTAG_CLAMP (R418). The CLAMP instruction acts in FROZEN, else bypass. -/
  | jtagClamp
  /-- JTAG_HIGHZ (R418). The HIGHZ instruction acts in FROZEN, else bypass. -/
  | jtagHighz
  /-- JTAG_SCANSEL (R418). The SCANSEL instruction selects the clock domain for scan read. -/
  | jtagScansel (k : Fin 16)
  /-- JTAG_SCANRD (R419). The SCANRD instruction circulates a scan chain out in FROZEN. -/
  | jtagScanrd
  /-- JTAG_SRAMADDR (R418). The SRAMADDR instruction sets the memory and word address. -/
  | jtagSramaddr (mem : Fin 16) (addr : BitVec 32)
  /-- JTAG_SRAMRD (R419). The SRAMRD instruction reads a word with check bits in FROZEN and increments the address. -/
  | jtagSramrd (data : BitVec 64) (check : BitVec 8)
  /-- JTAG_RSTREQ (R418). The RSTREQ instruction asserts SYSTEM or DEVICE reset at the next instruction. -/
  | jtagRstreq (device : Bool)
  /-- JTAG_BYPASS (R418). The BYPASS instruction selects the 1-bit bypass register. -/
  | jtagBypass
  /-- BAR2_READ (R426). A BAR2 read returns job-store data through the window. -/
  | bar2Read (off : Fin 0x10000000) (n : Nat)
  /-- BAR2_WRITE (R426). A BAR2 write stores data in the job store, or is discarded out of range. -/
  | bar2Write (off : Fin 0x10000000) (data : List (BitVec 8))
  /-- EGRESS_RECORD (R428). A ready record is written into egress buffers whole, or dropped when they cannot hold it. -/
  | egressRecord (e : Fin 2) (descs : List (List Nat))
  /-- EGRESS_RESTART (R428). A write of HST_EGR CTL.EN = 1 restarts a stopped egress channel at HEAD. -/
  | egressRestart (e : Fin 2) (val : Word)
  /-- EVENT_RAISE (R430). A raised event record enters the management queue, or is lost and counted. -/
  | eventRaise
  /-- EVENT_WRITE (R429). A queued record is written to the event ring with its SEQ when there is room. -/
  | eventWrite
  /-- EVT_TAIL_WRITE (R429). A host write of SYS_EVT_TAIL frees ring places. -/
  | evtTailWrite (val : Word)
  /-- EVT_CFG_WRITE (R429). A write of SYS_EVT_CFG sets EN, VEC and MOD, refusing a LOC change while enabled. -/
  | evtCfgWrite (val : Word)
  /-- EVT_RING_WRITE (R429). A write of SYS_EVT_BASE or SYS_EVT_SIZE is applied or discarded with HST_WRITE_REFUSED while enabled. -/
  | evtRingWrite (which : Fin 3) (val : Word)
  /-- INTERRUPT_SIGNAL (R431). Signalling a vector sets HST_INT_PEND and sends or holds an MSI-X message. -/
  | interruptSignal
  /-- MSIX_RELEASE (R431). A held MSI-X message is sent when its holding condition ends. -/
  | msixRelease
  /-- INT_PEND_CLEAR (R431). A W1C write to HST_INT_PEND clears bits and cancels held messages. -/
  | intPendClear (hi : Bool) (mask : Word)
  /-- RT_DATAGRAM (R433). A register-transport request datagram is executed in order and answered. -/
  | rtDatagram (m : RtMsg)
  /-- RT_READ_REGISTER (R432). Transport operation 1 reads a BAR0 register. -/
  | rtReadRegister (addr : Nat)
  /-- RT_WRITE_REGISTER (R432). Transport operation 2 writes a BAR0 register. -/
  | rtWriteRegister (addr : Nat) (val : Word)
  /-- RT_READ_JOB_STORE (R432). Transport operation 3 reads LEN bytes of the job store. -/
  | rtReadJobStore (addr len : Nat)
  /-- RT_WRITE_JOB_STORE (R432). Transport operation 4 writes LEN bytes to the job store. -/
  | rtWriteJobStore (addr : Nat) (data : List (BitVec 8))
  /-- RT_ARP (R432). A NET port answers an ARP request for its address. -/
  | rtArp (port : Fin 2) (ip : Nat)
  /-- RT_ICMP_ECHO (R432). A NET port answers an ICMP echo request for its address. -/
  | rtIcmpEcho (port : Fin 2) (ip : Nat) (data : List (BitVec 8))
  /-- RT_NOTIFY (R434). A newly set enabled interrupt bit sends a NOTIFY datagram at most once per 100 µs. -/
  | rtNotify
  /-- SNAP_TAKE (R436). A pulse of SYS_SNAP.TAKE requests a snapshot. -/
  | snapTake
  /-- SNAP_AUTO (R436). Every PERIOD the automatic timer requests a snapshot. -/
  | snapAuto
  /-- SNAP_CAPTURE (R436). After the reference bar's next fired line, or 1 ms, every block copies its snapshot fields. -/
  | snapCapture
  /-- ROW_B_FIRE_ISSUE (R215). The row B FIRE block of a dual-row bar is issued when the web passes its own gate, at the fire position plus the row B distance. -/
  | rowBFireIssue (b : Bar)
  /-- CAMERA_LINE_END (R241). The camera line signal going inactive ends a line, which is padded or truncated to WIDTH and has its CRC-16 checked. -/
  | cameraLineEnd (p : Port) (transfers : List Nat)
  /-- CLOCK_GOOD (R370). A clock monitor sees a lost clock good again, sets RPC_CLK.GOOD and lets the stopped domains run. -/
  | clockGood (k : Fin 12)
  /-- NET_LINK_DOWN (R439). A 10GBASE-R port loses its link and NET_P STATUS.UP clears. -/
  | netLinkDown (port : Fin 2)
  /-- NET_LINK_UP (R439). A 10GBASE-R port gains its link and NET_P STATUS.UP sets. -/
  | netLinkUp (port : Fin 2)
  /-- PTP_DELAY_REQ_SEND (R353). In slave-only role the clock sends a Delay_Req or Pdelay_Req at its logMinDelayReqInterval. -/
  | ptpDelayReqSend
  /-- PTP_DELAY_REQ_RX (R354). A received Delay_Req or Pdelay_Req is timestamped and answered with a Delay_Resp or Pdelay_Resp. -/
  | ptpDelayReqRx (m : ReqMsg)
  /-- PTP_FOLLOW_UP (R353). A received Follow_Up completes a two-step Sync and feeds its offset measurement to the servo. -/
  | ptpFollowUp (port : Fin 2) (domain src seq origin : Nat) (corr : Int)
  /-- PTP_RX_DISCARD (R353). A received PTP message using an unsupported option is discarded and counted in PTP_RXDROP. -/
  | ptpRxDiscard
  /-- EVT_MOD_EXPIRY (R429). When the CFG.MOD interval ends after HEAD advanced within it, the event ring's vector is signalled. -/
  | evtModExpiry
  /-- TEST_LOGIC_RESET (R418). TRSTn or the TAP entering Test-Logic-Reset loads the IDCODE instruction. -/
  | testLogicReset
  deriving DecidableEq, Repr

end Sys2Proof
end

