-- ==== Sys2Proof/Decode.lean ====
section
/-!
DEFINITION. The command table of this block (spec/opcode_table.json) gives no row any bits: a command is an occurrence on a bus, a link or a
ball, not a word. So no word spells a command.
-/
namespace Sys2Proof

/-- The command that a word spells by the table's bits: none, for the table gives none. -/
def decodeTableWord (_nbits _w : Nat) : Option Instr := none

end Sys2Proof
end

