-- ==== Sys2Proof/Machine/Crc.lean ====
section
/-!
DEFINITION. Cyclic redundancy checks as the chapters parameterise them (R405): width, polynomial, initial value, reflection,
final exclusive or. Bits go in one at a time, the register shifting toward its top bit.
-/
namespace Sys2Proof.Machine

/-- One bit into a check register of a width. -/
def crcBit (w poly r : Nat) (b : Bool) : Nat :=
  let top := Nat.testBit r (w - 1)
  let s := (r * 2) % 2 ^ w
  if top != b then s ^^^ (poly % 2 ^ w) else s

/-- The n low bits of a number, the highest first. -/
def bitsMsb (n v : Nat) : List Bool := (List.range n).map fun i => Nat.testBit v (n - 1 - i)

/-- The n low bits of a number, the lowest first. -/
def bitsLsb (n v : Nat) : List Bool := (List.range n).map fun i => Nat.testBit v i

/-- The number whose bits, the highest first, are given. -/
def ofBitsMsb (l : List Bool) : Nat := l.foldl (fun a b => 2 * a + b.toNat) 0

/-- A number of n bits reversed. -/
def reflect (n v : Nat) : Nat := ofBitsMsb (bitsLsb n v)

def crcBits (w poly init : Nat) (l : List Bool) : Nat := l.foldl (crcBit w poly) init

/-- The bits of bytes in the order a unit takes them: lowest first when reflected. -/
def byteBits (refin : Bool) (bs : List (BitVec 8)) : List Bool :=
  bs.flatMap fun b => if refin then bitsLsb 8 b.toNat else bitsMsb 8 b.toNat

/-- CRC-32 (0x04C1_1DB7, reflected, initial value and final exclusive or of ones). -/
def crc32 (bs : List (BitVec 8)) : Nat :=
  reflect 32 (crcBits 32 0x04C11DB7 0xFFFFFFFF (byteBits true bs)) ^^^ 0xFFFFFFFF

/-- CRC-32C (0x1EDC_6F41, otherwise as CRC-32). -/
def crc32c (bs : List (BitVec 8)) : Nat :=
  reflect 32 (crcBits 32 0x1EDC6F41 0xFFFFFFFF (byteBits true bs)) ^^^ 0xFFFFFFFF

/-- The n bytes of a number, the lowest first (R7). -/
def bytesLE : Nat → Nat → List (BitVec 8)
  | 0, _ => []
  | n + 1, v => BitVec.ofNat 8 v :: bytesLE n (v / 256)

/-- The number whose bytes, the lowest first, are given (R7). -/
def ofBytesLE : List (BitVec 8) → Nat
  | [] => 0
  | b :: r => b.toNat + 256 * ofBytesLE r

end Sys2Proof.Machine
end

