-- ==== Sys2Proof/Config.lean ====
section
/-!
DEFINITION. What the spec leaves open and the model does not fix. `freeValue` has no body: nothing can be proved of any
value of it, so a statement that holds of the model holds for every choice. `Dev.fresh` counts how many have been taken.
-/
namespace Sys2Proof

/-- The n-th value that the spec leaves open, as a natural number (the taker reduces it to its width). -/
opaque Config.freeValue : Nat → Nat

/-- The density of a value under a white level as an implementation gives it, between 0 and 2: one unit below, at, or one unit above
the exact rounded density (R256 allows one unit). -/
opaque Config.densityStep : Nat → Nat → Nat

/-- A pixel beyond the frame that a sharpness window at the frame's edge takes (R260 states no value for it). -/
opaque Config.edgePixel : Nat → Nat → Nat

/-- The version of the Zixlink protocol that the device itself returns in CAP sets (R181, R185 state none). -/
opaque Config.zixVersion : Nat

end Sys2Proof
end

