-- ==== Sys2Proof/Machine/Regs.lean ====
section
/-!
DEFINITION. The register map: one address per register (`Reg.…`), one place per field (`F.…`), and for each block
the rows of its register table as the chapter gives them (base, dimensions, which bits the host may write and how,
which bits a snapshot captures, the reset word). Written from the register tables of spec/ (each row names its rule).
Addresses at and above 0x1000_0000 are no part of BAR0: they hold the tables that the windows of R142, R161, R164,
R266, R294 and R223 reach, one place for each table entry a selector can name.
-/
namespace Sys2Proof.Machine

/-- A field of a register: its address, its lowest bit and its width. -/
structure Fld where
  reg : Nat
  lo : Nat
  w : Nat
  deriving DecidableEq, Repr

/-- One row of a block's register map. `n1`, `s1`, `n2`, `s2` are counts and strides of its indices. `rw` are the bits a
host write stores, `rws` the staged ones among the writable (R2), `w1c` those a written 1 clears, `snap` those that read
from the snapshot shadow (R437), `keep` those a reset leaves alone (R5, the persistent ones), `reset` the reset word. -/
structure RegDef where
  base : Nat
  n1 : Nat
  s1 : Nat
  n2 : Nat
  s2 : Nat
  rw : Nat
  rws : Nat
  w1c : Nat
  snap : Nat
  keep : Nat
  reset : Nat → Nat → Nat

/-- The indices under which a row holds an address, if it does. -/
def RegDef.index (r : RegDef) (a : Nat) : Option (Nat × Nat) :=
  if a < r.base then none
  else
    let off := a - r.base
    let i := off / r.s1
    let rest := off % r.s1
    let j := rest / r.s2
    if i < r.n1 ∧ j < r.n2 ∧ rest % r.s2 = 0 then some (i, j) else none

/-! ### Addresses -/
/-- SYS_ID (R8). -/
def Reg.SYS_ID : Nat := 0x0
/-- SYS_MODE (R25). -/
def Reg.SYS_MODE : Nat := 0x10
/-- SYS_MODE_REQ (R26). -/
def Reg.SYS_MODE_REQ : Nat := 0x14
/-- POS_CFG (R58). -/
def Reg.POS_CFG : Nat := 0x500000
/-- POS_STATUS (R58). -/
def Reg.POS_STATUS : Nat := 0x500004
/-- POS_CTL (R58). -/
def Reg.POS_CTL : Nat := 0x500008
/-- POS_WEB_LO (R58). -/
def Reg.POS_WEB_LO : Nat := 0x500010
/-- POS_WEB_HI (R58). -/
def Reg.POS_WEB_HI : Nat := 0x500014
/-- POS_WEB_SET_LO (R58). -/
def Reg.POS_WEB_SET_LO : Nat := 0x500018
/-- POS_WEB_SET_HI (R58). -/
def Reg.POS_WEB_SET_HI : Nat := 0x50001C
/-- POS_HWM_LO (R58). -/
def Reg.POS_HWM_LO : Nat := 0x500020
/-- POS_HWM_HI (R58). -/
def Reg.POS_HWM_HI : Nat := 0x500024
/-- POS_SPEED (R58). -/
def Reg.POS_SPEED : Nat := 0x500028
/-- POS_SPEED_WIN (R58). -/
def Reg.POS_SPEED_WIN : Nat := 0x50002C
/-- POS_SCALE_LO (R58). -/
def Reg.POS_SCALE_LO : Nat := 0x500030
/-- POS_SCALE_HI (R58). -/
def Reg.POS_SCALE_HI : Nat := 0x500034
/-- POS_BACKLASH (R58). -/
def Reg.POS_BACKLASH : Nat := 0x500038
/-- POS_FLT_WIN (R58). -/
def Reg.POS_FLT_WIN : Nat := 0x50003C
/-- POS_FLT_LIMIT (R58). -/
def Reg.POS_FLT_LIMIT : Nat := 0x500040
/-- POS_ILLEGAL (R58). -/
def Reg.POS_ILLEGAL : Nat := 0x500044
/-- POS_GLITCH (R58). -/
def Reg.POS_GLITCH : Nat := 0x500048
/-- POS_IDX_REHOME (R58). -/
def Reg.POS_IDX_REHOME : Nat := 0x50004C
/-- POS_STABLE (R58). -/
def Reg.POS_STABLE : Nat := 0x500050
/-- POS_CH[n]_CFG (R58). -/
def Reg.POS_CH_CFG (n : Nat) : Nat := 0x500100 + 64 * n
/-- POS_CH[n]_RAW (R58). -/
def Reg.POS_CH_RAW (n : Nat) : Nat := 0x500104 + 64 * n
/-- POS_CH[n]_STATUS (R58). -/
def Reg.POS_CH_STATUS (n : Nat) : Nat := 0x500108 + 64 * n
/-- POS_IDX_SEEN[n] (R58). -/
def Reg.POS_IDX_SEEN (n : Nat) : Nat := 0x50010C + 64 * n
/-- POS_CH[n]_IDXPER (R58). -/
def Reg.POS_CH_IDXPER (n : Nat) : Nat := 0x500110 + 64 * n
/-- POS_CH[n]_IDXCTL (R58). -/
def Reg.POS_CH_IDXCTL (n : Nat) : Nat := 0x500114 + 64 * n
/-- POS_CH[n]_IDXERR (R58). -/
def Reg.POS_CH_IDXERR (n : Nat) : Nat := 0x500118 + 64 * n
/-- POS_CH[n]_IDXDEV (R58). -/
def Reg.POS_CH_IDXDEV (n : Nat) : Nat := 0x50011C + 64 * n
/-- POS_CH[n]_SSI (R58). -/
def Reg.POS_CH_SSI (n : Nat) : Nat := 0x500120 + 64 * n
/-- POS_CH[n]_SSI_TIME (R58). -/
def Reg.POS_CH_SSI_TIME (n : Nat) : Nat := 0x500124 + 64 * n
/-- POS_CH[n]_SSI_MAXSTEP (R58). -/
def Reg.POS_CH_SSI_MAXSTEP (n : Nat) : Nat := 0x500128 + 64 * n
/-- POS_CH[n]_SSI_ERR (R58). -/
def Reg.POS_CH_SSI_ERR (n : Nat) : Nat := 0x50012C + 64 * n
/-- POS_CH[n]_SSI_JUMP (R58). -/
def Reg.POS_CH_SSI_JUMP (n : Nat) : Nat := 0x500130 + 64 * n
/-- POS_CH[n]_ANA_ERR (R58). -/
def Reg.POS_CH_ANA_ERR (n : Nat) : Nat := 0x500134 + 64 * n
/-- POS_TRIM[n]_CTL (R58). -/
def Reg.POS_TRIM_CTL (n : Nat) : Nat := 0x500200 + 32 * n
/-- POS_TRIM[n]_MEAS (R58). -/
def Reg.POS_TRIM_MEAS (n : Nat) : Nat := 0x500204 + 32 * n
/-- POS_TRIM[n]_HOST (R58). -/
def Reg.POS_TRIM_HOST (n : Nat) : Nat := 0x500208 + 32 * n
/-- POS_TRIM[n]_ACT (R58). -/
def Reg.POS_TRIM_ACT (n : Nat) : Nat := 0x50020C + 32 * n
/-- POS_TRIM[n]_STAT (R58). -/
def Reg.POS_TRIM_STAT (n : Nat) : Nat := 0x500210 + 32 * n
/-- LTC_PITCH (R86). -/
def Reg.LTC_PITCH : Nat := 0x600000
/-- LTC_BUOY (R86). -/
def Reg.LTC_BUOY : Nat := 0x600004
/-- LTC_REG (R86). -/
def Reg.LTC_REG : Nat := 0x600008
/-- LTC_GATE (R86). -/
def Reg.LTC_GATE : Nat := 0x60000C
/-- LTC_MAXRATE (R86). -/
def Reg.LTC_MAXRATE : Nat := 0x600010
/-- LTC_FIRE_LEAD (R86). -/
def Reg.LTC_FIRE_LEAD : Nat := 0x600014
/-- LTC_DERATE (R86). -/
def Reg.LTC_DERATE : Nat := 0x600018
/-- LTC_SHU_MINSPD (R86). -/
def Reg.LTC_SHU_MINSPD : Nat := 0x60001C
/-- LTC_SHU_ALIGN (R86). -/
def Reg.LTC_SHU_ALIGN : Nat := 0x600020
/-- LTC_STB_STATUS (R86). -/
def Reg.LTC_STB_STATUS : Nat := 0x600024
/-- LTC_BAR[n]_OFFSET (R86). -/
def Reg.LTC_BAR_OFFSET (n : Nat) : Nat := 0x600100 + 64 * n
/-- LTC_BAR[n]_OFFSET_D (R86). -/
def Reg.LTC_BAR_OFFSET_D (n : Nat) : Nat := 0x600104 + 64 * n
/-- LTC_BAR[n]_PHASE (R86). -/
def Reg.LTC_BAR_PHASE (n : Nat) : Nat := 0x600108 + 64 * n
/-- LTC_BAR[n]_STROBE (R86). -/
def Reg.LTC_BAR_STROBE (n : Nat) : Nat := 0x60010C + 64 * n
/-- LTC_BAR[n]_DERATE0 (R86). -/
def Reg.LTC_BAR_DERATE0 (n : Nat) : Nat := 0x600110 + 64 * n
/-- LTC_BAR[n]_DERATE1 (R86). -/
def Reg.LTC_BAR_DERATE1 (n : Nat) : Nat := 0x600114 + 64 * n
/-- LTC_BAR[n]_STATUS (R86). -/
def Reg.LTC_BAR_STATUS (n : Nat) : Nat := 0x600118 + 64 * n
/-- LTC_BAR[n]_LINE (R86). -/
def Reg.LTC_BAR_LINE (n : Nat) : Nat := 0x60011C + 64 * n
/-- LTC_BAR[n]_REGERR (R86). -/
def Reg.LTC_BAR_REGERR (n : Nat) : Nat := 0x600120 + 64 * n
/-- LTC_BAR[n]_PITCH_ACT (R86). -/
def Reg.LTC_BAR_PITCH_ACT (n : Nat) : Nat := 0x600124 + 64 * n
/-- LTC_BAR[n]_BUOYS (R86). -/
def Reg.LTC_BAR_BUOYS (n : Nat) : Nat := 0x600128 + 64 * n
/-- LTC_BAR[n]_GATED (R86). -/
def Reg.LTC_BAR_GATED (n : Nat) : Nat := 0x60012C + 64 * n
/-- LTC_STB[n]_CFG (R86). -/
def Reg.LTC_STB_CFG (n : Nat) : Nat := 0x600400 + 16 * n
/-- LTC_STB[n]_CUTS (R86). -/
def Reg.LTC_STB_CUTS (n : Nat) : Nat := 0x600404 + 16 * n
/-- LTC_CMP[n]_CFG (R86). -/
def Reg.LTC_CMP_CFG (n : Nat) : Nat := 0x600800 + 32 * n
/-- LTC_CMP[n]_LIST (R86). -/
def Reg.LTC_CMP_LIST (n : Nat) : Nat := 0x600804 + 32 * n
/-- LTC_CMP[n]_WIDTH (R86). -/
def Reg.LTC_CMP_WIDTH (n : Nat) : Nat := 0x600808 + 32 * n
/-- LTC_CMP[n]_PERIOD (R86). -/
def Reg.LTC_CMP_PERIOD (n : Nat) : Nat := 0x60080C + 32 * n
/-- LTC_CMP[n]_LEAD (R86). -/
def Reg.LTC_CMP_LEAD (n : Nat) : Nat := 0x600810 + 32 * n
/-- LTC_CMP[n]_PTR (R86). -/
def Reg.LTC_CMP_PTR (n : Nat) : Nat := 0x600814 + 32 * n
/-- LTC_CMP[n]_COUNT (R86). -/
def Reg.LTC_CMP_COUNT (n : Nat) : Nat := 0x600818 + 32 * n
/-- LTC_CMP[n]_STATUS (R86). -/
def Reg.LTC_CMP_STATUS (n : Nat) : Nat := 0x60081C + 32 * n
/-- LTC_CMP_POOL[i]_LO (R86). -/
def Reg.LTC_CMP_POOL_LO (n : Nat) : Nat := 0x610000 + 8 * n
/-- LTC_CMP_POOL[i]_HI (R86). -/
def Reg.LTC_CMP_POOL_HI (n : Nat) : Nat := 0x610004 + 8 * n
/-- SYS_COMMIT (R113). -/
def Reg.SYS_COMMIT : Nat := 0x20
/-- SYS_ANCHOR_LO (R113). -/
def Reg.SYS_ANCHOR_LO : Nat := 0x24
/-- SYS_ANCHOR_HI (R113). -/
def Reg.SYS_ANCHOR_HI : Nat := 0x28
/-- SYS_COMMIT_STATUS (R113). -/
def Reg.SYS_COMMIT_STATUS : Nat := 0x2C
/-- JOB_CTL (R117). -/
def Reg.JOB_CTL : Nat := 0x700000
/-- JOB_SCHED_CFG (R117). -/
def Reg.JOB_SCHED_CFG : Nat := 0x700004
/-- JOB_SCHED_LEAD (R117). -/
def Reg.JOB_SCHED_LEAD : Nat := 0x700008
/-- JOB_SCHED_BASE_LO (R117). -/
def Reg.JOB_SCHED_BASE_LO : Nat := 0x70000C
/-- JOB_SCHED_BASE_HI (R117). -/
def Reg.JOB_SCHED_BASE_HI : Nat := 0x700010
/-- JOB_SCHED_SIZE (R117). -/
def Reg.JOB_SCHED_SIZE : Nat := 0x700014
/-- JOB_SCHED_HEAD (R117). -/
def Reg.JOB_SCHED_HEAD : Nat := 0x700018
/-- JOB_SCHED_TAIL (R117). -/
def Reg.JOB_SCHED_TAIL : Nat := 0x70001C
/-- JOB_SCHED_SEQ (R117). -/
def Reg.JOB_SCHED_SEQ : Nat := 0x700020
/-- JOB_TABLE_BASE_LO (R117). -/
def Reg.JOB_TABLE_BASE_LO : Nat := 0x700024
/-- JOB_TABLE_BASE_HI (R117). -/
def Reg.JOB_TABLE_BASE_HI : Nat := 0x700028
/-- JOB_TABLE_SIZE (R117). -/
def Reg.JOB_TABLE_SIZE : Nat := 0x70002C
/-- JOB_CHECK (R117). -/
def Reg.JOB_CHECK : Nat := 0x700030
/-- JOB_BUDGET (R117). -/
def Reg.JOB_BUDGET : Nat := 0x700034
/-- JOB_RT_RES (R117). -/
def Reg.JOB_RT_RES : Nat := 0x700038
/-- JOB_USE_Q (R117). -/
def Reg.JOB_USE_Q : Nat := 0x70003C
/-- JOB_USE (R117). -/
def Reg.JOB_USE : Nat := 0x700040
/-- JOB_CHECK_SEQ (R117). -/
def Reg.JOB_CHECK_SEQ : Nat := 0x700044
/-- JOB_BAR[n]_ENTRY (R117). -/
def Reg.JOB_BAR_ENTRY (n : Nat) : Nat := 0x700100 + 32 * n
/-- JOB_BAR[n]_COPY (R117). -/
def Reg.JOB_BAR_COPY (n : Nat) : Nat := 0x700104 + 32 * n
/-- JOB_BAR[n]_STATE (R117). -/
def Reg.JOB_BAR_STATE (n : Nat) : Nat := 0x700108 + 32 * n
/-- JOB_BAR[n]_PRINTED_LO (R117). -/
def Reg.JOB_BAR_PRINTED_LO (n : Nat) : Nat := 0x70010C + 32 * n
/-- JOB_BAR[n]_PRINTED_HI (R117). -/
def Reg.JOB_BAR_PRINTED_HI (n : Nat) : Nat := 0x700110 + 32 * n
/-- JOB_BAR[n]_SKIPPED (R117). -/
def Reg.JOB_BAR_SKIPPED (n : Nat) : Nat := 0x700114 + 32 * n
/-- JOB_BAR[n]_POISON (R117). -/
def Reg.JOB_BAR_POISON (n : Nat) : Nat := 0x700118 + 32 * n
/-- JOB_BAR[n]_SET (R117). -/
def Reg.JOB_BAR_SET (n : Nat) : Nat := 0x70011C + 32 * n
/-- JOB_ING[c]_BASE_LO (R117). -/
def Reg.JOB_ING_BASE_LO (n : Nat) : Nat := 0x700400 + 32 * n
/-- JOB_ING[c]_BASE_HI (R117). -/
def Reg.JOB_ING_BASE_HI (n : Nat) : Nat := 0x700404 + 32 * n
/-- JOB_ING[c]_SIZE (R117). -/
def Reg.JOB_ING_SIZE (n : Nat) : Nat := 0x700408 + 32 * n
/-- JOB_ING[c]_HEAD (R117). -/
def Reg.JOB_ING_HEAD (n : Nat) : Nat := 0x70040C + 32 * n
/-- JOB_ING[c]_TAIL (R117). -/
def Reg.JOB_ING_TAIL (n : Nat) : Nat := 0x700410 + 32 * n
/-- JOB_ING[c]_CTL (R117). -/
def Reg.JOB_ING_CTL (n : Nat) : Nat := 0x700414 + 32 * n
/-- JOB_ING[c]_STATUS (R117). -/
def Reg.JOB_ING_STATUS (n : Nat) : Nat := 0x700418 + 32 * n
/-- CDC_CFG (R134). -/
def Reg.CDC_CFG : Nat := 0x800000
/-- CDC_CTL (R134). -/
def Reg.CDC_CTL : Nat := 0x800004
/-- CDC_STATUS (R134). -/
def Reg.CDC_STATUS : Nat := 0x800008
/-- CDC_ERR_LAST (R134). -/
def Reg.CDC_ERR_LAST : Nat := 0x800010
/-- CDC_ERR_ROW (R134). -/
def Reg.CDC_ERR_ROW : Nat := 0x800014
/-- CDC_ERR_SEQ (R134). -/
def Reg.CDC_ERR_SEQ : Nat := 0x800018
/-- CDC_ENC_ROW (R134). -/
def Reg.CDC_ENC_ROW : Nat := 0x800020
/-- CDC_ENC_BLOCKS (R134). -/
def Reg.CDC_ENC_BLOCKS : Nat := 0x800024
/-- CDC_ENC_BYTES (R134). -/
def Reg.CDC_ENC_BYTES : Nat := 0x800028
/-- CDC_ENC_CHAN (R134). -/
def Reg.CDC_ENC_CHAN : Nat := 0x80002C
/-- CDC_BAR[n]_BAD (R134). -/
def Reg.CDC_BAR_BAD (n : Nat) : Nat := 0x800100 + 4 * n
/-- SCR_CFG (R157). -/
def Reg.SCR_CFG : Nat := 0x900000
/-- SCR_CTL (R157). -/
def Reg.SCR_CTL : Nat := 0x900004
/-- SCR_STATUS (R157). -/
def Reg.SCR_STATUS : Nat := 0x900008
/-- SCR_MAT_SEL (R157). -/
def Reg.SCR_MAT_SEL : Nat := 0x90000C
/-- SCR_GAIN_BASE_LO (R157). -/
def Reg.SCR_GAIN_BASE_LO : Nat := 0x900010
/-- SCR_GAIN_BASE_HI (R157). -/
def Reg.SCR_GAIN_BASE_HI : Nat := 0x900014
/-- SCR_BAR[n]_CFG (R157). -/
def Reg.SCR_BAR_CFG (n : Nat) : Nat := 0x900100 + 64 * n
/-- SCR_BAR[n]_TOFS (R157). -/
def Reg.SCR_BAR_TOFS (n : Nat) : Nat := 0x900104 + 64 * n
/-- SCR_BAR[n]_MOFS (R157). -/
def Reg.SCR_BAR_MOFS (n : Nat) : Nat := 0x900108 + 64 * n
/-- SCR_BAR[n]_EDW (R157). -/
def Reg.SCR_BAR_EDW (n : Nat) : Nat := 0x90010C + 64 * n
/-- SCR_BAR[n]_EDL (R157). -/
def Reg.SCR_BAR_EDL (n : Nat) : Nat := 0x900110 + 64 * n
/-- SCR_BAR[n]_EDN (R157). -/
def Reg.SCR_BAR_EDN (n : Nat) : Nat := 0x900114 + 64 * n
/-- SCR_BAR[n]_STATUS (R157). -/
def Reg.SCR_BAR_STATUS (n : Nat) : Nat := 0x900118 + 64 * n
/-- SCR_BAR[n]_COMMIT (R157). -/
def Reg.SCR_BAR_COMMIT (n : Nat) : Nat := 0x90011C + 64 * n
/-- SCR_BAR[n]_CKPT (R157). -/
def Reg.SCR_BAR_CKPT (n : Nat) : Nat := 0x900120 + 64 * n
/-- SCR_BAR[n]_ROLLBACK (R157). -/
def Reg.SCR_BAR_ROLLBACK (n : Nat) : Nat := 0x900124 + 64 * n
/-- SCR_BAR[n]_STARVED (R157). -/
def Reg.SCR_BAR_STARVED (n : Nat) : Nat := 0x900128 + 64 * n
/-- SCR_BAR[n]_LCRC (R157). -/
def Reg.SCR_BAR_LCRC (n : Nat) : Nat := 0x90012C + 64 * n
/-- SCR_BAR[n]_LCRC_LINE (R157). -/
def Reg.SCR_BAR_LCRC_LINE (n : Nat) : Nat := 0x900130 + 64 * n
/-- SCR_TONE[n][i] (R157). -/
def Reg.SCR_TONE (n m : Nat) : Nat := 0x901000 + 1024 * n + 4 * m
/-- SCR_MAT_LO (R157). -/
def Reg.SCR_MAT_LO (n m : Nat) : Nat := 0x10000000 + 131072 * n + 8 * m
/-- SCR_MAT_HI (R157). -/
def Reg.SCR_MAT_HI (n m : Nat) : Nat := 0x10000004 + 131072 * n + 8 * m
/-- NOZ_CFG (R176). -/
def Reg.NOZ_CFG : Nat := 0xA00000
/-- NOZ_OVT_ACTION (R169). -/
def Reg.NOZ_OVT_ACTION : Nat := 0xA00004
/-- NOZ_CTL (R176). -/
def Reg.NOZ_CTL : Nat := 0xA00008
/-- NOZ_OUT_SEL (R176). -/
def Reg.NOZ_OUT_SEL : Nat := 0xA0000C
/-- NOZ_MASK_SEL (R176). -/
def Reg.NOZ_MASK_SEL : Nat := 0xA00010
/-- NOZ_HEAD_SEL (R176). -/
def Reg.NOZ_HEAD_SEL : Nat := 0xA00014
/-- NOZ_HEAD_ID_LO (R176). -/
def Reg.NOZ_HEAD_ID_LO : Nat := 0xA00020
/-- NOZ_HEAD_ID_HI (R176). -/
def Reg.NOZ_HEAD_ID_HI : Nat := 0xA00024
/-- NOZ_HEAD_INFO (R176). -/
def Reg.NOZ_HEAD_INFO : Nat := 0xA00028
/-- NOZ_HEAD_SPAN (R176). -/
def Reg.NOZ_HEAD_SPAN : Nat := 0xA0002C
/-- NOZ_HEAD_SPANLEN (R176). -/
def Reg.NOZ_HEAD_SPANLEN : Nat := 0xA00030
/-- NOZ_HEAD_RATED_LO (R176). -/
def Reg.NOZ_HEAD_RATED_LO : Nat := 0xA00034
/-- NOZ_HEAD_RATED_HI (R176). -/
def Reg.NOZ_HEAD_RATED_HI : Nat := 0xA00038
/-- NOZ_HEAD_ACT_LO (R176). -/
def Reg.NOZ_HEAD_ACT_LO : Nat := 0xA0003C
/-- NOZ_HEAD_ACT_HI (R176). -/
def Reg.NOZ_HEAD_ACT_HI : Nat := 0xA00040
/-- NOZ_BAR[n]_CFG (R176). -/
def Reg.NOZ_BAR_CFG (n : Nat) : Nat := 0xA00100 + 32 * n
/-- NOZ_BAR[n]_SPREAD (R176). -/
def Reg.NOZ_BAR_SPREAD (n : Nat) : Nat := 0xA00104 + 32 * n
/-- NOZ_BAR[n]_OUTN0 (R176). -/
def Reg.NOZ_BAR_OUTN0 (n : Nat) : Nat := 0xA00108 + 32 * n
/-- NOZ_BAR[n]_OUTN1 (R176). -/
def Reg.NOZ_BAR_OUTN1 (n : Nat) : Nat := 0xA0010C + 32 * n
/-- NOZ_BAR[n]_ROWB (R176). -/
def Reg.NOZ_BAR_ROWB (n : Nat) : Nat := 0xA00110 + 32 * n
/-- NOZ_BAR[n]_STATUS (R176). -/
def Reg.NOZ_BAR_STATUS (n : Nat) : Nat := 0xA00114 + 32 * n
/-- NOZ_BAR[n]_LOST (R176). -/
def Reg.NOZ_BAR_LOST (n : Nat) : Nat := 0xA00118 + 32 * n
/-- NOZ_BAR[n]_SPREADS (R176). -/
def Reg.NOZ_BAR_SPREADS (n : Nat) : Nat := 0xA0011C + 32 * n
/-- NOZ_MASK_WIN (R176). -/
def Reg.NOZ_MASK_WIN (n m : Nat) : Nat := 0x11000000 + 512 * n + 4 * m
/-- NOZ_OUT_WIN (R176). -/
def Reg.NOZ_OUT_WIN (n m : Nat) : Nat := 0x12000000 + 16384 * n + 4 * m
/-- ZXL_CFG (R202). -/
def Reg.ZXL_CFG : Nat := 0xB00000
/-- ZXL_STATUS (R202). -/
def Reg.ZXL_STATUS : Nat := 0xB00004
/-- ZXL_LPM (R202). -/
def Reg.ZXL_LPM : Nat := 0xB00008
/-- ZXL_EXCL (R202). -/
def Reg.ZXL_EXCL : Nat := 0xB0000C
/-- ZXL_BOOT (R202). -/
def Reg.ZXL_BOOT : Nat := 0xB00010
/-- ZXL_BAR_AVAIL (R202). -/
def Reg.ZXL_BAR_AVAIL : Nat := 0xB00014
/-- ZXL_LANE[n]_CFG (R202). -/
def Reg.ZXL_LANE_CFG (n : Nat) : Nat := 0xB00100 + 128 * n
/-- ZXL_LANE[n]_CTL (R202). -/
def Reg.ZXL_LANE_CTL (n : Nat) : Nat := 0xB00104 + 128 * n
/-- ZXL_LANE[n]_STATUS (R202). -/
def Reg.ZXL_LANE_STATUS (n : Nat) : Nat := 0xB00108 + 128 * n
/-- ZXL_LANE[n]_CAPS (R202). -/
def Reg.ZXL_LANE_CAPS (n : Nat) : Nat := 0xB0010C + 128 * n
/-- ZXL_LANE[n]_ERR (R202). -/
def Reg.ZXL_LANE_ERR (n : Nat) : Nat := 0xB00110 + 128 * n
/-- ZXL_LANE[n]_EQ (R202). -/
def Reg.ZXL_LANE_EQ (n : Nat) : Nat := 0xB00114 + 128 * n
/-- ZXL_LANE[n]_DFE0 (R202). -/
def Reg.ZXL_LANE_DFE0 (n : Nat) : Nat := 0xB00118 + 128 * n
/-- ZXL_LANE[n]_DFE1 (R202). -/
def Reg.ZXL_LANE_DFE1 (n : Nat) : Nat := 0xB0011C + 128 * n
/-- ZXL_LANE[n]_TX (R202). -/
def Reg.ZXL_LANE_TX (n : Nat) : Nat := 0xB00120 + 128 * n
/-- ZXL_LANE[n]_MARGIN (R202). -/
def Reg.ZXL_LANE_MARGIN (n : Nat) : Nat := 0xB00124 + 128 * n
/-- ZXL_LANE[n]_LOAD (R202). -/
def Reg.ZXL_LANE_LOAD (n : Nat) : Nat := 0xB00128 + 128 * n
/-- ZXL_LANE[n]_PIECE[p]_FIRST (R202). -/
def Reg.ZXL_LANE_PIECE_FIRST (n m : Nat) : Nat := 0xB00140 + 128 * n + 8 * m
/-- ZXL_LANE[n]_PIECE[p]_COUNT (R202). -/
def Reg.ZXL_LANE_PIECE_COUNT (n m : Nat) : Nat := 0xB00144 + 128 * n + 8 * m
/-- ZXL_CLAIM (R237). -/
def Reg.ZXL_CLAIM : Nat := 0xB01000
/-- ZXL_PCFG (R237). -/
def Reg.ZXL_PCFG : Nat := 0xB01004
/-- ZXL_PCTL (R237). -/
def Reg.ZXL_PCTL : Nat := 0xB01008
/-- ZXL_ECMD (R237). -/
def Reg.ZXL_ECMD : Nat := 0xB01010
/-- ZXL_EDATA (R237). -/
def Reg.ZXL_EDATA : Nat := 0xB01014
/-- ZXL_ESTAT (R237). -/
def Reg.ZXL_ESTAT : Nat := 0xB01018
/-- ZXL_FSEL (R237). -/
def Reg.ZXL_FSEL : Nat := 0xB01020
/-- ZXL_STAT_LOST (R237). -/
def Reg.ZXL_STAT_LOST : Nat := 0xB01024
/-- ZXL_FVEC[w] (R237). -/
def Reg.ZXL_FVEC (n m : Nat) : Nat := 0x15000000 + 128 * n + 4 * m
/-- ZXL_BAR[n]_EPSET (R237). -/
def Reg.ZXL_BAR_EPSET (n : Nat) : Nat := 0xB01200 + 32 * n
/-- ZXL_BAR[n]_EPOCH (R237). -/
def Reg.ZXL_BAR_EPOCH (n : Nat) : Nat := 0xB01204 + 32 * n
/-- ZXL_BAR[n]_MCHG (R237). -/
def Reg.ZXL_BAR_MCHG (n : Nat) : Nat := 0xB01208 + 32 * n
/-- ZXL_BAR[n]_WIRE (R237). -/
def Reg.ZXL_BAR_WIRE (n : Nat) : Nat := 0xB0120C + 32 * n
/-- ZXL_BAR[n]_MISMATCH (R237). -/
def Reg.ZXL_BAR_MISMATCH (n : Nat) : Nat := 0xB01210 + 32 * n
/-- ZXL_EP[i]_SLOT_LO (R237). -/
def Reg.ZXL_EP_SLOT_LO (n : Nat) : Nat := 0xB02000 + 8 * n
/-- ZXL_EP[i]_SLOT_HI (R237). -/
def Reg.ZXL_EP_SLOT_HI (n : Nat) : Nat := 0xB02004 + 8 * n
/-- ZXL_EPD_DELAY[i] (R237). -/
def Reg.ZXL_EPD_DELAY (n : Nat) : Nat := 0xB04000 + 4 * n
/-- VIS_CFG (R266). -/
def Reg.VIS_CFG : Nat := 0xC00000
/-- VIS_STATUS (R266). -/
def Reg.VIS_STATUS : Nat := 0xC00004
/-- VIS_CTL (R266). -/
def Reg.VIS_CTL : Nat := 0xC00008
/-- VIS_TAB_SEL (R266). -/
def Reg.VIS_TAB_SEL : Nat := 0xC0000C
/-- VIS_STAT_CFG (R266). -/
def Reg.VIS_STAT_CFG : Nat := 0xC00010
/-- VIS_HIST_WX (R266). -/
def Reg.VIS_HIST_WX : Nat := 0xC00014
/-- VIS_SHP[w]_WX (R266). -/
def Reg.VIS_SHP_WX (n : Nat) : Nat := 0xC00040 + 8 * n
/-- VIS_HIST_WY (R266). -/
def Reg.VIS_HIST_WY : Nat := 0xC00018
/-- VIS_SHP[w]_WY (R266). -/
def Reg.VIS_SHP_WY (n : Nat) : Nat := 0xC00044 + 8 * n
/-- VIS_COL_CFG (R266). -/
def Reg.VIS_COL_CFG : Nat := 0xC0001C
/-- VIS_STAT_STATUS (R266). -/
def Reg.VIS_STAT_STATUS : Nat := 0xC00020
/-- VIS_CAM[n]_CFG (R266). -/
def Reg.VIS_CAM_CFG (n : Nat) : Nat := 0xC00100 + 128 * n
/-- VIS_CAM[n]_GEOM (R266). -/
def Reg.VIS_CAM_GEOM (n : Nat) : Nat := 0xC00104 + 128 * n
/-- VIS_CAM[n]_FRAMING (R266). -/
def Reg.VIS_CAM_FRAMING (n : Nat) : Nat := 0xC00108 + 128 * n
/-- VIS_CAM[n]_EXP (R266). -/
def Reg.VIS_CAM_EXP (n : Nat) : Nat := 0xC0010C + 128 * n
/-- VIS_CAM[n]_BLK01 (R266). -/
def Reg.VIS_CAM_BLK01 (n : Nat) : Nat := 0xC00110 + 128 * n
/-- VIS_CAM[n]_BLK23 (R266). -/
def Reg.VIS_CAM_BLK23 (n : Nat) : Nat := 0xC00114 + 128 * n
/-- VIS_CAM[n]_FF_LO (R266). -/
def Reg.VIS_CAM_FF_LO (n : Nat) : Nat := 0xC00118 + 128 * n
/-- VIS_CAM[n]_FF_HI (R266). -/
def Reg.VIS_CAM_FF_HI (n : Nat) : Nat := 0xC0011C + 128 * n
/-- VIS_CAM[n]_SENS (R266). -/
def Reg.VIS_CAM_SENS (n : Nat) : Nat := 0xC00120 + 128 * n
/-- VIS_CAM[n]_DEFN (R266). -/
def Reg.VIS_CAM_DEFN (n : Nat) : Nat := 0xC00124 + 128 * n
/-- VIS_CAM[n]_BUF_LO (R266). -/
def Reg.VIS_CAM_BUF_LO (n : Nat) : Nat := 0xC00128 + 128 * n
/-- VIS_CAM[n]_BUF_HI (R266). -/
def Reg.VIS_CAM_BUF_HI (n : Nat) : Nat := 0xC0012C + 128 * n
/-- VIS_CAM[n]_BUF_SLOT (R266). -/
def Reg.VIS_CAM_BUF_SLOT (n : Nat) : Nat := 0xC00130 + 128 * n
/-- VIS_CAM[n]_I2C (R266). -/
def Reg.VIS_CAM_I2C (n : Nat) : Nat := 0xC00134 + 128 * n
/-- VIS_CAM[n]_I2C_DATA (R266). -/
def Reg.VIS_CAM_I2C_DATA (n : Nat) : Nat := 0xC00138 + 128 * n
/-- VIS_CAM[n]_FRAME (R266). -/
def Reg.VIS_CAM_FRAME (n : Nat) : Nat := 0xC0013C + 128 * n
/-- VIS_CAM[n]_FSTAT (R266). -/
def Reg.VIS_CAM_FSTAT (n : Nat) : Nat := 0xC00140 + 128 * n
/-- VIS_CAM[n]_ERR0 (R266). -/
def Reg.VIS_CAM_ERR0 (n : Nat) : Nat := 0xC00144 + 128 * n
/-- VIS_CAM[n]_ERR1 (R266). -/
def Reg.VIS_CAM_ERR1 (n : Nat) : Nat := 0xC00148 + 128 * n
/-- VIS_CAM[n]_EXCESS (R266). -/
def Reg.VIS_CAM_EXCESS (n : Nat) : Nat := 0xC0014C + 128 * n
/-- VIS_CAM[n]_APPLIED (R266). -/
def Reg.VIS_CAM_APPLIED (n : Nat) : Nat := 0xC00150 + 128 * n
/-- VIS_CAM[n]_DROP (R266). -/
def Reg.VIS_CAM_DROP (n : Nat) : Nat := 0xC00154 + 128 * n
/-- VIS_CAM[n]_CCM0 (R266). -/
def Reg.VIS_CAM_CCM0 (n : Nat) : Nat := 0xC00158 + 128 * n
/-- VIS_CAM[n]_CCM1 (R266). -/
def Reg.VIS_CAM_CCM1 (n : Nat) : Nat := 0xC0015C + 128 * n
/-- VIS_CAM[n]_CCM2 (R266). -/
def Reg.VIS_CAM_CCM2 (n : Nat) : Nat := 0xC00160 + 128 * n
/-- VIS_CAM[n]_CCM3 (R266). -/
def Reg.VIS_CAM_CCM3 (n : Nat) : Nat := 0xC00164 + 128 * n
/-- VIS_CAM[n]_CCM4 (R266). -/
def Reg.VIS_CAM_CCM4 (n : Nat) : Nat := 0xC00168 + 128 * n
/-- VIS_CAM[n]_WHITE01 (R266). -/
def Reg.VIS_CAM_WHITE01 (n : Nat) : Nat := 0xC0016C + 128 * n
/-- VIS_CAM[n]_WHITE2 (R266). -/
def Reg.VIS_CAM_WHITE2 (n : Nat) : Nat := 0xC00170 + 128 * n
/-- VIS_VS[s]_CFG (R266). -/
def Reg.VIS_VS_CFG (n : Nat) : Nat := 0xC00400 + 32 * n
/-- VIS_VS[s]_CROP_X (R266). -/
def Reg.VIS_VS_CROP_X (n : Nat) : Nat := 0xC00404 + 32 * n
/-- VIS_VS[s]_CROP_Y (R266). -/
def Reg.VIS_VS_CROP_Y (n : Nat) : Nat := 0xC00408 + 32 * n
/-- VIS_VS[s]_STEP (R266). -/
def Reg.VIS_VS_STEP (n : Nat) : Nat := 0xC0040C + 32 * n
/-- VIS_VS[s]_STATUS (R266). -/
def Reg.VIS_VS_STATUS (n : Nat) : Nat := 0xC00410 + 32 * n
/-- VIS_VS[s]_OUT (R266). -/
def Reg.VIS_VS_OUT (n : Nat) : Nat := 0xC00414 + 32 * n
/-- DEN_CFG (R285). -/
def Reg.DEN_CFG : Nat := 0xD00000
/-- DEN_DIST (R285). -/
def Reg.DEN_DIST : Nat := 0xD00004
/-- DEN_BAND (R285). -/
def Reg.DEN_BAND : Nat := 0xD00008
/-- DEN_MARGIN (R285). -/
def Reg.DEN_MARGIN : Nat := 0xD0000C
/-- DEN_CAM_OFS (R285). -/
def Reg.DEN_CAM_OFS : Nat := 0xD00010
/-- DEN_TRIG_PRE (R285). -/
def Reg.DEN_TRIG_PRE : Nat := 0xD00014
/-- DEN_LEAD (R285). -/
def Reg.DEN_LEAD : Nat := 0xD00018
/-- DEN_MAP_SCALE (R285). -/
def Reg.DEN_MAP_SCALE : Nat := 0xD0001C
/-- DEN_MAP_OFS (R285). -/
def Reg.DEN_MAP_OFS : Nat := 0xD00020
/-- DEN_CTL (R285). -/
def Reg.DEN_CTL : Nat := 0xD00024
/-- DEN_STATUS (R285). -/
def Reg.DEN_STATUS : Nat := 0xD00028
/-- DEN_LAST_LO (R285). -/
def Reg.DEN_LAST_LO : Nat := 0xD00030
/-- DEN_LAST_HI (R285). -/
def Reg.DEN_LAST_HI : Nat := 0xD00034
/-- DEN_BAR[n]_CFG (R285). -/
def Reg.DEN_BAR_CFG (n : Nat) : Nat := 0xD00100 + 64 * n
/-- DEN_BAR[n]_LEVELS (R285). -/
def Reg.DEN_BAR_LEVELS (n : Nat) : Nat := 0xD00104 + 64 * n
/-- DEN_BAR[n]_WEIGHT (R285). -/
def Reg.DEN_BAR_WEIGHT (n : Nat) : Nat := 0xD00108 + 64 * n
/-- DEN_BAR[n]_TGT01 (R285). -/
def Reg.DEN_BAR_TGT01 (n : Nat) : Nat := 0xD0010C + 64 * n
/-- DEN_BAR[n]_TGT2 (R285). -/
def Reg.DEN_BAR_TGT2 (n : Nat) : Nat := 0xD00110 + 64 * n
/-- DEN_BAR[n]_TONE (R285). -/
def Reg.DEN_BAR_TONE (n : Nat) : Nat := 0xD00114 + 64 * n
/-- DEN_BAR[n]_TLIM (R285). -/
def Reg.DEN_BAR_TLIM (n : Nat) : Nat := 0xD00118 + 64 * n
/-- DEN_BAR[n]_CTL (R285). -/
def Reg.DEN_BAR_CTL (n : Nat) : Nat := 0xD0011C + 64 * n
/-- DEN_BAR[n]_STATUS (R285). -/
def Reg.DEN_BAR_STATUS (n : Nat) : Nat := 0xD00120 + 64 * n
/-- DEN_BAR[n]_MEAN01 (R285). -/
def Reg.DEN_BAR_MEAN01 (n : Nat) : Nat := 0xD00124 + 64 * n
/-- DEN_BAR[n]_MEAN2 (R285). -/
def Reg.DEN_BAR_MEAN2 (n : Nat) : Nat := 0xD00128 + 64 * n
/-- DEN_BAR[n]_RESULT (R285). -/
def Reg.DEN_BAR_RESULT (n : Nat) : Nat := 0xD0012C + 64 * n
/-- DEN_BAR[n]_TOFS_PREV (R285). -/
def Reg.DEN_BAR_TOFS_PREV (n : Nat) : Nat := 0xD00130 + 64 * n
/-- DEN_BAR[n]_COUNT (R285). -/
def Reg.DEN_BAR_COUNT (n : Nat) : Nat := 0xD00134 + 64 * n
/-- DEN_BAR[n]_LASTSET (R285). -/
def Reg.DEN_BAR_LASTSET (n : Nat) : Nat := 0xD00138 + 64 * n
/-- DEN_BAR[n]_BANDS (R285). -/
def Reg.DEN_BAR_BANDS (n : Nat) : Nat := 0xD0013C + 64 * n
/-- LMP_CFG (R303). -/
def Reg.LMP_CFG : Nat := 0xE00000
/-- LMP_BUS (R303). -/
def Reg.LMP_BUS : Nat := 0xE00004
/-- LMP_PWM (R303). -/
def Reg.LMP_PWM : Nat := 0xE00008
/-- LMP_DIAG_STRETCH (R303). -/
def Reg.LMP_DIAG_STRETCH : Nat := 0xE0000C
/-- LMP_COV_STEP (R303). -/
def Reg.LMP_COV_STEP : Nat := 0xE00010
/-- LMP_COV_BASE_LO (R303). -/
def Reg.LMP_COV_BASE_LO : Nat := 0xE00014
/-- LMP_COV_BASE_HI (R303). -/
def Reg.LMP_COV_BASE_HI : Nat := 0xE00018
/-- LMP_CTL (R303). -/
def Reg.LMP_CTL : Nat := 0xE0001C
/-- LMP_HRC_CFG (R303). -/
def Reg.LMP_HRC_CFG : Nat := 0xE00020
/-- LMP_HRC_LIM (R303). -/
def Reg.LMP_HRC_LIM : Nat := 0xE00024
/-- LMP_HRC_TGT (R303). -/
def Reg.LMP_HRC_TGT : Nat := 0xE00028
/-- LMP_HRC_SAFE (R303). -/
def Reg.LMP_HRC_SAFE : Nat := 0xE0002C
/-- LMP_HRC_STATUS (R303). -/
def Reg.LMP_HRC_STATUS : Nat := 0xE00030
/-- LMP_STATUS (R303). -/
def Reg.LMP_STATUS : Nat := 0xE00034
/-- LMP_LATCH (R303). -/
def Reg.LMP_LATCH : Nat := 0xE00038
/-- LMP_SEG_SEL (R303). -/
def Reg.LMP_SEG_SEL : Nat := 0xE0003C
/-- LMP_PNL_CFG (R303). -/
def Reg.LMP_PNL_CFG : Nat := 0xE00040
/-- LMP_PNL_LED[r] (R303). -/
def Reg.LMP_PNL_LED (n : Nat) : Nat := 0xE00080 + 4 * n
/-- LMP_MOD[m]_CFG (R303). -/
def Reg.LMP_MOD_CFG (n : Nat) : Nat := 0xE00100 + 64 * n
/-- LMP_MOD[m]_OFS (R303). -/
def Reg.LMP_MOD_OFS (n : Nat) : Nat := 0xE00104 + 64 * n
/-- LMP_MOD[m]_LVL (R303). -/
def Reg.LMP_MOD_LVL (n : Nat) : Nat := 0xE00108 + 64 * n
/-- LMP_MOD[m]_CTL (R303). -/
def Reg.LMP_MOD_CTL (n : Nat) : Nat := 0xE0010C + 64 * n
/-- LMP_MOD[m]_FIRST (R303). -/
def Reg.LMP_MOD_FIRST (n : Nat) : Nat := 0xE00110 + 64 * n
/-- LMP_MOD[m]_SEGW (R303). -/
def Reg.LMP_MOD_SEGW (n : Nat) : Nat := 0xE00114 + 64 * n
/-- LMP_MOD[m]_STATUS (R303). -/
def Reg.LMP_MOD_STATUS (n : Nat) : Nat := 0xE00118 + 64 * n
/-- LMP_MOD[m]_OPEN (R303). -/
def Reg.LMP_MOD_OPEN (n : Nat) : Nat := 0xE0011C + 64 * n
/-- LMP_MOD[m]_UNVER (R303). -/
def Reg.LMP_MOD_UNVER (n : Nat) : Nat := 0xE00120 + 64 * n
/-- LMP_MOD[m]_ID (R303). -/
def Reg.LMP_MOD_ID (n : Nat) : Nat := 0xE00124 + 64 * n
/-- LMP_MOD[m]_RATED (R303). -/
def Reg.LMP_MOD_RATED (n : Nat) : Nat := 0xE00128 + 64 * n
/-- LMP_MOD[m]_HOURS (R303). -/
def Reg.LMP_MOD_HOURS (n : Nat) : Nat := 0xE0012C + 64 * n
/-- LMP_MOD[m]_ERR (R303). -/
def Reg.LMP_MOD_ERR (n : Nat) : Nat := 0xE00130 + 64 * n
/-- LMP_LEVEL (R303). -/
def Reg.LMP_LEVEL (n m : Nat) : Nat := 0x14000000 + 128 * n + 4 * m
/-- DRC_CFG (R330). -/
def Reg.DRC_CFG : Nat := 0xF00000
/-- DRC_STATUS (R330). -/
def Reg.DRC_STATUS : Nat := 0xF00004
/-- DRC_OP (R330). -/
def Reg.DRC_OP : Nat := 0xF00008
/-- DRC_RT (R330). -/
def Reg.DRC_RT : Nat := 0xF0000C
/-- DRC_CAP_LO (R330). -/
def Reg.DRC_CAP_LO : Nat := 0xF00010
/-- DRC_CAP_HI (R330). -/
def Reg.DRC_CAP_HI : Nat := 0xF00014
/-- DRC_REF (R330). -/
def Reg.DRC_REF : Nat := 0xF00018
/-- DRC_TEMP (R330). -/
def Reg.DRC_TEMP : Nat := 0xF0001C
/-- DRC_RH (R330). -/
def Reg.DRC_RH : Nat := 0xF00020
/-- DRC_TRACK (R330). -/
def Reg.DRC_TRACK : Nat := 0xF00024
/-- DRC_SCRUB (R330). -/
def Reg.DRC_SCRUB : Nat := 0xF00028
/-- DRC_SPARE (R330). -/
def Reg.DRC_SPARE : Nat := 0xF0002C
/-- DRC_CTL (R330). -/
def Reg.DRC_CTL : Nat := 0xF00030
/-- DRC_ERR_LO (R330). -/
def Reg.DRC_ERR_LO : Nat := 0xF00040
/-- DRC_ERR_HI (R330). -/
def Reg.DRC_ERR_HI : Nat := 0xF00044
/-- DRC_POISON (R330). -/
def Reg.DRC_POISON : Nat := 0xF00048
/-- DRC_DI[i]_STATE (R330). -/
def Reg.DRC_DI_STATE (n : Nat) : Nat := 0xF00100 + 64 * n
/-- DRC_DI[i]_CE (R330). -/
def Reg.DRC_DI_CE (n : Nat) : Nat := 0xF00104 + 64 * n
/-- DRC_DI[i]_UE (R330). -/
def Reg.DRC_DI_UE (n : Nat) : Nat := 0xF00108 + 64 * n
/-- DRC_DI[i]_REF (R330). -/
def Reg.DRC_DI_REF (n : Nat) : Nat := 0xF0010C + 64 * n
/-- DRC_DI[i]_RHT (R330). -/
def Reg.DRC_DI_RHT (n : Nat) : Nat := 0xF00110 + 64 * n
/-- DRC_DI[i]_MR4 (R330). -/
def Reg.DRC_DI_MR4 (n : Nat) : Nat := 0xF00114 + 64 * n
/-- DRC_DI[i]_MIG (R330). -/
def Reg.DRC_DI_MIG (n : Nat) : Nat := 0xF00118 + 64 * n
/-- DRC_DI[i]_EYE (R330). -/
def Reg.DRC_DI_EYE (n : Nat) : Nat := 0xF0011C + 64 * n
/-- DRC_DI[i]_DRIFT (R330). -/
def Reg.DRC_DI_DRIFT (n : Nat) : Nat := 0xF00120 + 64 * n
/-- DPX_CFG (R350). -/
def Reg.DPX_CFG : Nat := 0x1000000
/-- DPX_CTL (R350). -/
def Reg.DPX_CTL : Nat := 0x1000004
/-- DPX_STATUS (R350). -/
def Reg.DPX_STATUS : Nat := 0x1000008
/-- DPX_CLAIM (R350). -/
def Reg.DPX_CLAIM : Nat := 0x100000C
/-- DPX_HB (R350). -/
def Reg.DPX_HB : Nat := 0x1000010
/-- DPX_POS_TOL (R350). -/
def Reg.DPX_POS_TOL : Nat := 0x1000014
/-- DPX_POS_DIFF (R350). -/
def Reg.DPX_POS_DIFF : Nat := 0x1000018
/-- DPX_TAKE (R350). -/
def Reg.DPX_TAKE : Nat := 0x100001C
/-- DPX_TAKE_WEB_LO (R350). -/
def Reg.DPX_TAKE_WEB_LO : Nat := 0x1000020
/-- DPX_TAKE_WEB_HI (R350). -/
def Reg.DPX_TAKE_WEB_HI : Nat := 0x1000024
/-- DPX_SET (R350). -/
def Reg.DPX_SET : Nat := 0x1000028
/-- DPX_BAR[n]_MATCH (R350). -/
def Reg.DPX_BAR_MATCH (n : Nat) : Nat := 0x1000100 + 16 * n
/-- DPX_BAR[n]_MISM (R350). -/
def Reg.DPX_BAR_MISM (n : Nat) : Nat := 0x1000104 + 16 * n
/-- DPX_BAR[n]_LAST (R350). -/
def Reg.DPX_BAR_LAST (n : Nat) : Nat := 0x1000108 + 16 * n
/-- DPX_BAR[n]_GAP (R350). -/
def Reg.DPX_BAR_GAP (n : Nat) : Nat := 0x100010C + 16 * n
/-- PTP_CFG (R365). -/
def Reg.PTP_CFG : Nat := 0x1100000
/-- PTP_INTV (R365). -/
def Reg.PTP_INTV : Nat := 0x1100004
/-- PTP_SERVO (R365). -/
def Reg.PTP_SERVO : Nat := 0x1100008
/-- PTP_CTL (R365). -/
def Reg.PTP_CTL : Nat := 0x110000C
/-- PTP_STATUS (R365). -/
def Reg.PTP_STATUS : Nat := 0x1100010
/-- PTP_CAP_SEC_LO (R365). -/
def Reg.PTP_CAP_SEC_LO : Nat := 0x1100014
/-- PTP_CAP_SEC_HI (R365). -/
def Reg.PTP_CAP_SEC_HI : Nat := 0x1100018
/-- PTP_CAP_NS (R365). -/
def Reg.PTP_CAP_NS : Nat := 0x110001C
/-- PTP_SET_SEC_LO (R365). -/
def Reg.PTP_SET_SEC_LO : Nat := 0x1100020
/-- PTP_SET_SEC_HI (R365). -/
def Reg.PTP_SET_SEC_HI : Nat := 0x1100024
/-- PTP_SET_NS (R365). -/
def Reg.PTP_SET_NS : Nat := 0x1100028
/-- PTP_OFFSET (R365). -/
def Reg.PTP_OFFSET : Nat := 0x110002C
/-- PTP_PATHDLY (R365). -/
def Reg.PTP_PATHDLY : Nat := 0x1100030
/-- PTP_RATE (R365). -/
def Reg.PTP_RATE : Nat := 0x1100034
/-- PTP_PEND_LO (R365). -/
def Reg.PTP_PEND_LO : Nat := 0x1100038
/-- PTP_PEND_HI (R365). -/
def Reg.PTP_PEND_HI : Nat := 0x110003C
/-- PTP_GMID_LO (R365). -/
def Reg.PTP_GMID_LO : Nat := 0x1100040
/-- PTP_GMID_HI (R365). -/
def Reg.PTP_GMID_HI : Nat := 0x1100044
/-- PTP_RXDROP (R365). -/
def Reg.PTP_RXDROP : Nat := 0x1100048
/-- PTP_NET[p]_TXADJ (R365). -/
def Reg.PTP_NET_TXADJ (n : Nat) : Nat := 0x1100080 + 16 * n
/-- PTP_NET[p]_RXADJ (R365). -/
def Reg.PTP_NET_RXADJ (n : Nat) : Nat := 0x1100084 + 16 * n
/-- PTP_NET[p]_ASYM (R365). -/
def Reg.PTP_NET_ASYM (n : Nat) : Nat := 0x1100088 + 16 * n
/-- PTP_ACT[a]_SEC_LO (R365). -/
def Reg.PTP_ACT_SEC_LO (n : Nat) : Nat := 0x1100100 + 16 * n
/-- PTP_ACT[a]_SEC_HI (R365). -/
def Reg.PTP_ACT_SEC_HI (n : Nat) : Nat := 0x1100104 + 16 * n
/-- PTP_ACT[a]_NS (R365). -/
def Reg.PTP_ACT_NS (n : Nat) : Nat := 0x1100108 + 16 * n
/-- PTP_ACT[a]_CTL (R365). -/
def Reg.PTP_ACT_CTL (n : Nat) : Nat := 0x110010C + 16 * n
/-- RPC_STATUS (R389). -/
def Reg.RPC_STATUS : Nat := 0x100000
/-- RPC_CAUSE (R389). -/
def Reg.RPC_CAUSE : Nat := 0x100004
/-- RPC_SWRST (R389). -/
def Reg.RPC_SWRST : Nat := 0x100008
/-- RPC_PWR (R389). -/
def Reg.RPC_PWR : Nat := 0x10000C
/-- RPC_CLK (R389). -/
def Reg.RPC_CLK : Nat := 0x100010
/-- RPC_CRIT (R389). -/
def Reg.RPC_CRIT : Nat := 0x100014
/-- RPC_WDOG (R389). -/
def Reg.RPC_WDOG : Nat := 0x100018
/-- RPC_BOOT (R389). -/
def Reg.RPC_BOOT : Nat := 0x100020
/-- RPC_IMAGE (R389). -/
def Reg.RPC_IMAGE : Nat := 0x100024
/-- RPC_FUSE (R389). -/
def Reg.RPC_FUSE : Nat := 0x100028
/-- RPC_BOOTCNT (R389). -/
def Reg.RPC_BOOTCNT : Nat := 0x10002C
/-- RPC_SPI_CTL (R389). -/
def Reg.RPC_SPI_CTL : Nat := 0x100030
/-- RPC_SPI_ADDR (R389). -/
def Reg.RPC_SPI_ADDR : Nat := 0x100034
/-- RPC_DOM[d]_STATUS (R389). -/
def Reg.RPC_DOM_STATUS (n : Nat) : Nat := 0x100100 + 4 * n
/-- RPC_SPI_BUF (R389). -/
def Reg.RPC_SPI_BUF (n : Nat) : Nat := 0x101000 + 4 * n
/-- THM_STATUS (R402). -/
def Reg.THM_STATUS : Nat := 0x200000
/-- THM_LIMITS (R402). -/
def Reg.THM_LIMITS : Nat := 0x200004
/-- THM_EXCL (R402). -/
def Reg.THM_EXCL : Nat := 0x200008
/-- THM_BROKEN (R402). -/
def Reg.THM_BROKEN : Nat := 0x20000C
/-- THM_CTL (R402). -/
def Reg.THM_CTL : Nat := 0x200010
/-- THM_PEAK (R402). -/
def Reg.THM_PEAK : Nat := 0x200014
/-- THM_RATE (R402). -/
def Reg.THM_RATE : Nat := 0x200018
/-- THM_TRIPS (R402). -/
def Reg.THM_TRIPS : Nat := 0x20001C
/-- THM_LAST_TRIP (R402). -/
def Reg.THM_LAST_TRIP : Nat := 0x200020
/-- THM_HEAD (R402). -/
def Reg.THM_HEAD : Nat := 0x200024
/-- THM_HEAD_WARN (R402). -/
def Reg.THM_HEAD_WARN : Nat := 0x200028
/-- THM_TS[n]_TEMP (R402). -/
def Reg.THM_TS_TEMP (n : Nat) : Nat := 0x200100 + 8 * n
/-- THM_TS[n]_COUNT (R402). -/
def Reg.THM_TS_COUNT (n : Nat) : Nat := 0x200104 + 8 * n
/-- THM_TS_TRIM[n] (R402). -/
def Reg.THM_TS_TRIM (n : Nat) : Nat := 0x200180 + 4 * n
/-- DBG_FREEZE (R420). -/
def Reg.DBG_FREEZE : Nat := 0x1400000
/-- DBG_FREEZE_RAW (R420). -/
def Reg.DBG_FREEZE_RAW : Nat := 0x1400004
/-- DBG_STATUS (R420). -/
def Reg.DBG_STATUS : Nat := 0x1400008
/-- CRC_STATUS (R420). -/
def Reg.CRC_STATUS : Nat := 0x400000
/-- CRC_U[n]_CFG (R420). -/
def Reg.CRC_U_CFG (n : Nat) : Nat := 0x400100 + 128 * n
/-- CRC_U[n]_CTL (R420). -/
def Reg.CRC_U_CTL (n : Nat) : Nat := 0x400104 + 128 * n
/-- CRC_U[n]_STATUS (R420). -/
def Reg.CRC_U_STATUS (n : Nat) : Nat := 0x400108 + 128 * n
/-- CRC_U[n]_LEN (R420). -/
def Reg.CRC_U_LEN (n : Nat) : Nat := 0x40010C + 128 * n
/-- CRC_U[n]_POLY_LO (R420). -/
def Reg.CRC_U_POLY_LO (n : Nat) : Nat := 0x400110 + 128 * n
/-- CRC_U[n]_POLY_HI (R420). -/
def Reg.CRC_U_POLY_HI (n : Nat) : Nat := 0x400114 + 128 * n
/-- CRC_U[n]_INIT_LO (R420). -/
def Reg.CRC_U_INIT_LO (n : Nat) : Nat := 0x400118 + 128 * n
/-- CRC_U[n]_INIT_HI (R420). -/
def Reg.CRC_U_INIT_HI (n : Nat) : Nat := 0x40011C + 128 * n
/-- CRC_U[n]_XOROUT_LO (R420). -/
def Reg.CRC_U_XOROUT_LO (n : Nat) : Nat := 0x400120 + 128 * n
/-- CRC_U[n]_XOROUT_HI (R420). -/
def Reg.CRC_U_XOROUT_HI (n : Nat) : Nat := 0x400124 + 128 * n
/-- CRC_U[n]_EXPECT_LO (R420). -/
def Reg.CRC_U_EXPECT_LO (n : Nat) : Nat := 0x400128 + 128 * n
/-- CRC_U[n]_EXPECT_HI (R420). -/
def Reg.CRC_U_EXPECT_HI (n : Nat) : Nat := 0x40012C + 128 * n
/-- CRC_U[n]_VALUE_LO (R420). -/
def Reg.CRC_U_VALUE_LO (n : Nat) : Nat := 0x400130 + 128 * n
/-- CRC_U[n]_VALUE_HI (R420). -/
def Reg.CRC_U_VALUE_HI (n : Nat) : Nat := 0x400134 + 128 * n
/-- CRC_U[n]_DATA (R420). -/
def Reg.CRC_U_DATA (n : Nat) : Nat := 0x400138 + 128 * n
/-- CRC_U[n]_DATA_B (R420). -/
def Reg.CRC_U_DATA_B (n : Nat) : Nat := 0x40013C + 128 * n
/-- CRC_U[n]_ADDR_LO (R420). -/
def Reg.CRC_U_ADDR_LO (n : Nat) : Nat := 0x400140 + 128 * n
/-- CRC_U[n]_ADDR_HI (R420). -/
def Reg.CRC_U_ADDR_HI (n : Nat) : Nat := 0x400144 + 128 * n
/-- CRC_U[n]_RESULT_LO (R420). -/
def Reg.CRC_U_RESULT_LO (n : Nat) : Nat := 0x400148 + 128 * n
/-- CRC_U[n]_RESULT_HI (R420). -/
def Reg.CRC_U_RESULT_HI (n : Nat) : Nat := 0x40014C + 128 * n
/-- CRC_U[n]_COUNT (R420). -/
def Reg.CRC_U_COUNT (n : Nat) : Nat := 0x400150 + 128 * n
/-- PRS_STATUS (R420). -/
def Reg.PRS_STATUS : Nat := 0x300000
/-- PRS_ERR (R420). -/
def Reg.PRS_ERR : Nat := 0x300004
/-- PRS_CNT (R420). -/
def Reg.PRS_CNT : Nat := 0x300008
/-- PRS_CTL (R420). -/
def Reg.PRS_CTL : Nat := 0x30000C
/-- PRS_MAXWEAR (R420). -/
def Reg.PRS_MAXWEAR : Nat := 0x300010
/-- PRS_WORD[w] (R420). -/
def Reg.PRS_WORD (n : Nat) : Nat := 0x308000 + 4 * n
/-- PRS_WEAR[w] (R420). -/
def Reg.PRS_WEAR (n : Nat) : Nat := 0x310000 + 4 * n
/-- SYS_SNAP (R439). -/
def Reg.SYS_SNAP : Nat := 0x30
/-- SYS_SNAP_AUTO (R439). -/
def Reg.SYS_SNAP_AUTO : Nat := 0x34
/-- SYS_EVT_BASE_LO (R439). -/
def Reg.SYS_EVT_BASE_LO : Nat := 0x40
/-- SYS_EVT_BASE_HI (R439). -/
def Reg.SYS_EVT_BASE_HI : Nat := 0x44
/-- SYS_EVT_SIZE (R439). -/
def Reg.SYS_EVT_SIZE : Nat := 0x48
/-- SYS_EVT_HEAD (R439). -/
def Reg.SYS_EVT_HEAD : Nat := 0x4C
/-- SYS_EVT_TAIL (R439). -/
def Reg.SYS_EVT_TAIL : Nat := 0x50
/-- SYS_EVT_CFG (R439). -/
def Reg.SYS_EVT_CFG : Nat := 0x54
/-- SYS_EVT_LOST (R439). -/
def Reg.SYS_EVT_LOST : Nat := 0x58
/-- HST_STATUS (R439). -/
def Reg.HST_STATUS : Nat := 0x1200000
/-- HST_WIN_BASE_LO (R439). -/
def Reg.HST_WIN_BASE_LO : Nat := 0x1200010
/-- HST_WIN_BASE_HI (R439). -/
def Reg.HST_WIN_BASE_HI : Nat := 0x1200014
/-- HST_INT_PEND_LO (R439). -/
def Reg.HST_INT_PEND_LO : Nat := 0x1200020
/-- HST_INT_PEND_HI (R439). -/
def Reg.HST_INT_PEND_HI : Nat := 0x1200024
/-- HST_INT_EN_LO (R439). -/
def Reg.HST_INT_EN_LO : Nat := 0x1200028
/-- HST_INT_EN_HI (R439). -/
def Reg.HST_INT_EN_HI : Nat := 0x120002C
/-- HST_RT_CFG (R439). -/
def Reg.HST_RT_CFG : Nat := 0x1200040
/-- HST_RT_NOTIFY_LO (R439). -/
def Reg.HST_RT_NOTIFY_LO : Nat := 0x1200044
/-- HST_RT_NOTIFY_HI (R439). -/
def Reg.HST_RT_NOTIFY_HI : Nat := 0x1200048
/-- HST_RT_STAT (R439). -/
def Reg.HST_RT_STAT : Nat := 0x120004C
/-- HST_ERR (R439). -/
def Reg.HST_ERR : Nat := 0x1200050
/-- HST_EGR[e]_BASE_LO (R439). -/
def Reg.HST_EGR_BASE_LO (n : Nat) : Nat := 0x1200100 + 32 * n
/-- HST_EGR[e]_BASE_HI (R439). -/
def Reg.HST_EGR_BASE_HI (n : Nat) : Nat := 0x1200104 + 32 * n
/-- HST_EGR[e]_SIZE (R439). -/
def Reg.HST_EGR_SIZE (n : Nat) : Nat := 0x1200108 + 32 * n
/-- HST_EGR[e]_HEAD (R439). -/
def Reg.HST_EGR_HEAD (n : Nat) : Nat := 0x120010C + 32 * n
/-- HST_EGR[e]_TAIL (R439). -/
def Reg.HST_EGR_TAIL (n : Nat) : Nat := 0x1200110 + 32 * n
/-- HST_EGR[e]_CTL (R439). -/
def Reg.HST_EGR_CTL (n : Nat) : Nat := 0x1200114 + 32 * n
/-- HST_EGR[e]_STATUS (R439). -/
def Reg.HST_EGR_STATUS (n : Nat) : Nat := 0x1200118 + 32 * n
/-- HST_EGR[e]_DROP (R439). -/
def Reg.HST_EGR_DROP (n : Nat) : Nat := 0x120011C + 32 * n
/-- NET_P[p]_MAC_LO (R439). -/
def Reg.NET_P_MAC_LO (n : Nat) : Nat := 0x1300100 + 32 * n
/-- NET_P[p]_MAC_HI (R439). -/
def Reg.NET_P_MAC_HI (n : Nat) : Nat := 0x1300104 + 32 * n
/-- NET_P[p]_IP (R439). -/
def Reg.NET_P_IP (n : Nat) : Nat := 0x1300108 + 32 * n
/-- NET_P[p]_STATUS (R439). -/
def Reg.NET_P_STATUS (n : Nat) : Nat := 0x130010C + 32 * n
/-- VIS_TAB (R266). -/
def Reg.VIS_TAB (n m : Nat) : Nat := 0x13000000 + 8192 * n + 4 * m
/-- HST_MSIX_ADDR_LO (R439). -/
def Reg.HST_MSIX_ADDR_LO (n : Nat) : Nat := 0x1210000 + 16 * n
/-- HST_MSIX_ADDR_HI (R439). -/
def Reg.HST_MSIX_ADDR_HI (n : Nat) : Nat := 0x1210004 + 16 * n
/-- HST_MSIX_DATA (R439). -/
def Reg.HST_MSIX_DATA (n : Nat) : Nat := 0x1210008 + 16 * n
/-- HST_MSIX_CTRL (R439). -/
def Reg.HST_MSIX_CTRL (n : Nat) : Nat := 0x121000C + 16 * n
/-- HST_PBA (R439). -/
def Reg.HST_PBA (n : Nat) : Nat := 0x1211000 + 4 * n

/-! ### Fields -/
def F.SYS_ID_PART : Fld := ⟨Reg.SYS_ID, 16, 16⟩
def F.SYS_ID_STEP_MAJOR : Fld := ⟨Reg.SYS_ID, 12, 4⟩
def F.SYS_ID_STEP_MINOR : Fld := ⟨Reg.SYS_ID, 8, 4⟩
def F.SYS_MODE_HALT : Fld := ⟨Reg.SYS_MODE, 31, 1⟩
def F.SYS_MODE_DEPOSED : Fld := ⟨Reg.SYS_MODE, 30, 1⟩
def F.SYS_MODE_TRANS : Fld := ⟨Reg.SYS_MODE, 29, 1⟩
def F.SYS_MODE_CAUSE_CLR : Fld := ⟨Reg.SYS_MODE, 24, 1⟩
def F.SYS_MODE_CAUSE : Fld := ⟨Reg.SYS_MODE, 16, 8⟩
def F.SYS_MODE_PREV : Fld := ⟨Reg.SYS_MODE, 8, 4⟩
def F.SYS_MODE_MODE : Fld := ⟨Reg.SYS_MODE, 0, 4⟩
def F.SYS_MODE_REQ_RESULT : Fld := ⟨Reg.SYS_MODE_REQ, 30, 2⟩
def F.SYS_MODE_REQ_REASON : Fld := ⟨Reg.SYS_MODE_REQ, 16, 8⟩
def F.SYS_MODE_REQ_TARGET : Fld := ⟨Reg.SYS_MODE_REQ, 0, 4⟩
def F.POS_CFG_CH_EN : Fld := ⟨Reg.POS_CFG, 8, 4⟩
def F.POS_CFG_SRC : Fld := ⟨Reg.POS_CFG, 0, 2⟩
def F.POS_STATUS_CH_OK : Fld := ⟨Reg.POS_STATUS, 4, 4⟩
def F.POS_STATUS_EXTRAP : Fld := ⟨Reg.POS_STATUS, 3, 1⟩
def F.POS_STATUS_STABLE : Fld := ⟨Reg.POS_STATUS, 2, 1⟩
def F.POS_STATUS_MARK_DIR : Fld := ⟨Reg.POS_STATUS, 1, 1⟩
def F.POS_STATUS_DIR : Fld := ⟨Reg.POS_STATUS, 0, 1⟩
def F.POS_CTL_CNT_CLR : Fld := ⟨Reg.POS_CTL, 0, 1⟩
def F.POS_WEB_LO_WEB : Fld := ⟨Reg.POS_WEB_LO, 0, 32⟩
def F.POS_WEB_HI_WEB : Fld := ⟨Reg.POS_WEB_HI, 0, 16⟩
def F.POS_WEB_SET_LO_VAL : Fld := ⟨Reg.POS_WEB_SET_LO, 0, 32⟩
def F.POS_WEB_SET_HI_VAL : Fld := ⟨Reg.POS_WEB_SET_HI, 0, 16⟩
def F.POS_HWM_LO_HWM : Fld := ⟨Reg.POS_HWM_LO, 0, 32⟩
def F.POS_HWM_HI_HWM : Fld := ⟨Reg.POS_HWM_HI, 0, 16⟩
def F.POS_SPEED_SPEED : Fld := ⟨Reg.POS_SPEED, 0, 32⟩
def F.POS_SPEED_WIN_WIN : Fld := ⟨Reg.POS_SPEED_WIN, 0, 10⟩
def F.POS_SCALE_LO_SCALE : Fld := ⟨Reg.POS_SCALE_LO, 0, 32⟩
def F.POS_SCALE_HI_SCALE : Fld := ⟨Reg.POS_SCALE_HI, 0, 8⟩
def F.POS_BACKLASH_COUNTS : Fld := ⟨Reg.POS_BACKLASH, 0, 16⟩
def F.POS_FLT_WIN_MS : Fld := ⟨Reg.POS_FLT_WIN, 0, 10⟩
def F.POS_FLT_LIMIT_ANALOG : Fld := ⟨Reg.POS_FLT_LIMIT, 24, 8⟩
def F.POS_FLT_LIMIT_SSI : Fld := ⟨Reg.POS_FLT_LIMIT, 16, 8⟩
def F.POS_FLT_LIMIT_GLITCH : Fld := ⟨Reg.POS_FLT_LIMIT, 8, 8⟩
def F.POS_FLT_LIMIT_ILL : Fld := ⟨Reg.POS_FLT_LIMIT, 0, 8⟩
def F.POS_ILLEGAL_ENC3 : Fld := ⟨Reg.POS_ILLEGAL, 16, 16⟩
def F.POS_ILLEGAL_ENC2 : Fld := ⟨Reg.POS_ILLEGAL, 0, 16⟩
def F.POS_GLITCH_ENC3 : Fld := ⟨Reg.POS_GLITCH, 16, 16⟩
def F.POS_GLITCH_ENC2 : Fld := ⟨Reg.POS_GLITCH, 0, 16⟩
def F.POS_IDX_REHOME_ARM : Fld := ⟨Reg.POS_IDX_REHOME, 0, 4⟩
def F.POS_STABLE_TOL : Fld := ⟨Reg.POS_STABLE, 0, 16⟩
def F.POS_CH_CFG_MINSP (n : Nat) : Fld := ⟨Reg.POS_CH_CFG n, 8, 8⟩
def F.POS_CH_CFG_IDX_POL (n : Nat) : Fld := ⟨Reg.POS_CH_CFG n, 3, 1⟩
def F.POS_CH_CFG_INVERT (n : Nat) : Fld := ⟨Reg.POS_CH_CFG n, 2, 1⟩
def F.POS_CH_CFG_MODE (n : Nat) : Fld := ⟨Reg.POS_CH_CFG n, 0, 2⟩
def F.POS_CH_RAW_COUNT (n : Nat) : Fld := ⟨Reg.POS_CH_RAW n, 0, 32⟩
def F.POS_CH_STATUS_LATENCY (n : Nat) : Fld := ⟨Reg.POS_CH_STATUS n, 16, 16⟩
def F.POS_CH_STATUS_OVERSPEED (n : Nat) : Fld := ⟨Reg.POS_CH_STATUS n, 3, 1⟩
def F.POS_CH_STATUS_AMP_HIGH (n : Nat) : Fld := ⟨Reg.POS_CH_STATUS n, 2, 1⟩
def F.POS_CH_STATUS_AMP_LOW (n : Nat) : Fld := ⟨Reg.POS_CH_STATUS n, 1, 1⟩
def F.POS_CH_STATUS_NO_WORD (n : Nat) : Fld := ⟨Reg.POS_CH_STATUS n, 0, 1⟩
def F.POS_IDX_SEEN_COUNT (n : Nat) : Fld := ⟨Reg.POS_IDX_SEEN n, 0, 32⟩
def F.POS_CH_IDXPER_PERIOD (n : Nat) : Fld := ⟨Reg.POS_CH_IDXPER n, 0, 32⟩
def F.POS_CH_IDXCTL_EN (n : Nat) : Fld := ⟨Reg.POS_CH_IDXCTL n, 24, 1⟩
def F.POS_CH_IDXCTL_LIMIT (n : Nat) : Fld := ⟨Reg.POS_CH_IDXCTL n, 16, 8⟩
def F.POS_CH_IDXCTL_TOL (n : Nat) : Fld := ⟨Reg.POS_CH_IDXCTL n, 0, 16⟩
def F.POS_CH_IDXERR_ERR (n : Nat) : Fld := ⟨Reg.POS_CH_IDXERR n, 0, 32⟩
def F.POS_CH_IDXDEV_DEV (n : Nat) : Fld := ⟨Reg.POS_CH_IDXDEV n, 0, 16⟩
def F.POS_CH_SSI_CLKDIV (n : Nat) : Fld := ⟨Reg.POS_CH_SSI n, 24, 8⟩
def F.POS_CH_SSI_LEAD (n : Nat) : Fld := ⟨Reg.POS_CH_SSI n, 22, 2⟩
def F.POS_CH_SSI_GRAY (n : Nat) : Fld := ⟨Reg.POS_CH_SSI n, 21, 1⟩
def F.POS_CH_SSI_CHK_INV (n : Nat) : Fld := ⟨Reg.POS_CH_SSI n, 20, 1⟩
def F.POS_CH_SSI_CHK_TYPE (n : Nat) : Fld := ⟨Reg.POS_CH_SSI n, 18, 2⟩
def F.POS_CH_SSI_CHK_LEN (n : Nat) : Fld := ⟨Reg.POS_CH_SSI n, 14, 4⟩
def F.POS_CH_SSI_POLY (n : Nat) : Fld := ⟨Reg.POS_CH_SSI n, 6, 8⟩
def F.POS_CH_SSI_BITS (n : Nat) : Fld := ⟨Reg.POS_CH_SSI n, 0, 6⟩
def F.POS_CH_SSI_TIME_PERIOD (n : Nat) : Fld := ⟨Reg.POS_CH_SSI_TIME n, 16, 16⟩
def F.POS_CH_SSI_TIME_TIMEOUT (n : Nat) : Fld := ⟨Reg.POS_CH_SSI_TIME n, 0, 16⟩
def F.POS_CH_SSI_MAXSTEP_STEP (n : Nat) : Fld := ⟨Reg.POS_CH_SSI_MAXSTEP n, 0, 32⟩
def F.POS_CH_SSI_ERR_TIMEOUT (n : Nat) : Fld := ⟨Reg.POS_CH_SSI_ERR n, 16, 16⟩
def F.POS_CH_SSI_ERR_CHECK (n : Nat) : Fld := ⟨Reg.POS_CH_SSI_ERR n, 0, 16⟩
def F.POS_CH_SSI_JUMP_JUMP (n : Nat) : Fld := ⟨Reg.POS_CH_SSI_JUMP n, 0, 16⟩
def F.POS_CH_ANA_ERR_OVERSPEED (n : Nat) : Fld := ⟨Reg.POS_CH_ANA_ERR n, 16, 16⟩
def F.POS_CH_ANA_ERR_AMP (n : Nat) : Fld := ⟨Reg.POS_CH_ANA_ERR n, 0, 16⟩
def F.POS_TRIM_CTL_USE_HOST (n : Nat) : Fld := ⟨Reg.POS_TRIM_CTL n, 19, 1⟩
def F.POS_TRIM_CTL_STORE (n : Nat) : Fld := ⟨Reg.POS_TRIM_CTL n, 18, 1⟩
def F.POS_TRIM_CTL_APPLY (n : Nat) : Fld := ⟨Reg.POS_TRIM_CTL n, 17, 1⟩
def F.POS_TRIM_CTL_MEASURE (n : Nat) : Fld := ⟨Reg.POS_TRIM_CTL n, 16, 1⟩
def F.POS_TRIM_CTL_PERIODS (n : Nat) : Fld := ⟨Reg.POS_TRIM_CTL n, 0, 16⟩
def F.POS_TRIM_MEAS_PHASE (n : Nat) : Fld := ⟨Reg.POS_TRIM_MEAS n, 24, 8⟩
def F.POS_TRIM_MEAS_GAIN (n : Nat) : Fld := ⟨Reg.POS_TRIM_MEAS n, 16, 8⟩
def F.POS_TRIM_MEAS_OFS_C (n : Nat) : Fld := ⟨Reg.POS_TRIM_MEAS n, 8, 8⟩
def F.POS_TRIM_MEAS_OFS_S (n : Nat) : Fld := ⟨Reg.POS_TRIM_MEAS n, 0, 8⟩
def F.POS_TRIM_HOST_PHASE (n : Nat) : Fld := ⟨Reg.POS_TRIM_HOST n, 24, 8⟩
def F.POS_TRIM_HOST_GAIN (n : Nat) : Fld := ⟨Reg.POS_TRIM_HOST n, 16, 8⟩
def F.POS_TRIM_HOST_OFS_C (n : Nat) : Fld := ⟨Reg.POS_TRIM_HOST n, 8, 8⟩
def F.POS_TRIM_HOST_OFS_S (n : Nat) : Fld := ⟨Reg.POS_TRIM_HOST n, 0, 8⟩
def F.POS_TRIM_ACT_PHASE (n : Nat) : Fld := ⟨Reg.POS_TRIM_ACT n, 24, 8⟩
def F.POS_TRIM_ACT_GAIN (n : Nat) : Fld := ⟨Reg.POS_TRIM_ACT n, 16, 8⟩
def F.POS_TRIM_ACT_OFS_C (n : Nat) : Fld := ⟨Reg.POS_TRIM_ACT n, 8, 8⟩
def F.POS_TRIM_ACT_OFS_S (n : Nat) : Fld := ⟨Reg.POS_TRIM_ACT n, 0, 8⟩
def F.POS_TRIM_STAT_AMP (n : Nat) : Fld := ⟨Reg.POS_TRIM_STAT n, 16, 16⟩
def F.POS_TRIM_STAT_SAT (n : Nat) : Fld := ⟨Reg.POS_TRIM_STAT n, 5, 1⟩
def F.POS_TRIM_STAT_LOAD_BAD (n : Nat) : Fld := ⟨Reg.POS_TRIM_STAT n, 4, 1⟩
def F.POS_TRIM_STAT_LOADED (n : Nat) : Fld := ⟨Reg.POS_TRIM_STAT n, 3, 1⟩
def F.POS_TRIM_STAT_REFUSED (n : Nat) : Fld := ⟨Reg.POS_TRIM_STAT n, 2, 1⟩
def F.POS_TRIM_STAT_DONE (n : Nat) : Fld := ⟨Reg.POS_TRIM_STAT n, 1, 1⟩
def F.POS_TRIM_STAT_BUSY (n : Nat) : Fld := ⟨Reg.POS_TRIM_STAT n, 0, 1⟩
def F.LTC_PITCH_PITCH : Fld := ⟨Reg.LTC_PITCH, 0, 32⟩
def F.LTC_BUOY_MAXT : Fld := ⟨Reg.LTC_BUOY, 16, 16⟩
def F.LTC_BUOY_LINES : Fld := ⟨Reg.LTC_BUOY, 0, 13⟩
def F.LTC_REG_ACTION : Fld := ⟨Reg.LTC_REG, 16, 1⟩
def F.LTC_REG_LIMIT : Fld := ⟨Reg.LTC_REG, 0, 16⟩
def F.LTC_GATE_GUARD : Fld := ⟨Reg.LTC_GATE, 0, 8⟩
def F.LTC_MAXRATE_HZ : Fld := ⟨Reg.LTC_MAXRATE, 0, 32⟩
def F.LTC_FIRE_LEAD_NS : Fld := ⟨Reg.LTC_FIRE_LEAD, 0, 16⟩
def F.LTC_DERATE_LINES : Fld := ⟨Reg.LTC_DERATE, 0, 8⟩
def F.LTC_SHU_MINSPD_SPEED : Fld := ⟨Reg.LTC_SHU_MINSPD, 0, 32⟩
def F.LTC_SHU_ALIGN_DESC : Fld := ⟨Reg.LTC_SHU_ALIGN, 8, 8⟩
def F.LTC_SHU_ALIGN_ASC : Fld := ⟨Reg.LTC_SHU_ALIGN, 0, 8⟩
def F.LTC_STB_STATUS_CUT : Fld := ⟨Reg.LTC_STB_STATUS, 0, 8⟩
def F.LTC_BAR_OFFSET_NM (n : Nat) : Fld := ⟨Reg.LTC_BAR_OFFSET n, 0, 32⟩
def F.LTC_BAR_OFFSET_D_NM (n : Nat) : Fld := ⟨Reg.LTC_BAR_OFFSET_D n, 0, 32⟩
def F.LTC_BAR_PHASE_PHASE (n : Nat) : Fld := ⟨Reg.LTC_BAR_PHASE n, 0, 6⟩
def F.LTC_BAR_STROBE_WIDTH (n : Nat) : Fld := ⟨Reg.LTC_BAR_STROBE n, 0, 16⟩
def F.LTC_BAR_DERATE0_FACT1 (n : Nat) : Fld := ⟨Reg.LTC_BAR_DERATE0 n, 24, 8⟩
def F.LTC_BAR_DERATE0_TEMP1 (n : Nat) : Fld := ⟨Reg.LTC_BAR_DERATE0 n, 16, 8⟩
def F.LTC_BAR_DERATE0_FACT0 (n : Nat) : Fld := ⟨Reg.LTC_BAR_DERATE0 n, 8, 8⟩
def F.LTC_BAR_DERATE0_TEMP0 (n : Nat) : Fld := ⟨Reg.LTC_BAR_DERATE0 n, 0, 8⟩
def F.LTC_BAR_DERATE1_FACT3 (n : Nat) : Fld := ⟨Reg.LTC_BAR_DERATE1 n, 24, 8⟩
def F.LTC_BAR_DERATE1_TEMP3 (n : Nat) : Fld := ⟨Reg.LTC_BAR_DERATE1 n, 16, 8⟩
def F.LTC_BAR_DERATE1_FACT2 (n : Nat) : Fld := ⟨Reg.LTC_BAR_DERATE1 n, 8, 8⟩
def F.LTC_BAR_DERATE1_TEMP2 (n : Nat) : Fld := ⟨Reg.LTC_BAR_DERATE1 n, 0, 8⟩
def F.LTC_BAR_STATUS_WIDTH_ACT (n : Nat) : Fld := ⟨Reg.LTC_BAR_STATUS n, 16, 16⟩
def F.LTC_BAR_STATUS_HEAD_TEMP (n : Nat) : Fld := ⟨Reg.LTC_BAR_STATUS n, 8, 8⟩
def F.LTC_BAR_STATUS_STEP (n : Nat) : Fld := ⟨Reg.LTC_BAR_STATUS n, 3, 3⟩
def F.LTC_BAR_STATUS_GATED (n : Nat) : Fld := ⟨Reg.LTC_BAR_STATUS n, 2, 1⟩
def F.LTC_BAR_STATUS_REGF (n : Nat) : Fld := ⟨Reg.LTC_BAR_STATUS n, 1, 1⟩
def F.LTC_BAR_STATUS_RUN (n : Nat) : Fld := ⟨Reg.LTC_BAR_STATUS n, 0, 1⟩
def F.LTC_BAR_LINE_LINE (n : Nat) : Fld := ⟨Reg.LTC_BAR_LINE n, 0, 32⟩
def F.LTC_BAR_REGERR_MAX (n : Nat) : Fld := ⟨Reg.LTC_BAR_REGERR n, 16, 16⟩
def F.LTC_BAR_REGERR_ERR (n : Nat) : Fld := ⟨Reg.LTC_BAR_REGERR n, 0, 16⟩
def F.LTC_BAR_PITCH_ACT_PITCH (n : Nat) : Fld := ⟨Reg.LTC_BAR_PITCH_ACT n, 0, 32⟩
def F.LTC_BAR_BUOYS_FAULTS (n : Nat) : Fld := ⟨Reg.LTC_BAR_BUOYS n, 16, 16⟩
def F.LTC_BAR_BUOYS_COUNT (n : Nat) : Fld := ⟨Reg.LTC_BAR_BUOYS n, 0, 16⟩
def F.LTC_BAR_GATED_COUNT (n : Nat) : Fld := ⟨Reg.LTC_BAR_GATED n, 0, 32⟩
def F.LTC_STB_CFG_EN (n : Nat) : Fld := ⟨Reg.LTC_STB_CFG n, 31, 1⟩
def F.LTC_STB_CFG_BAR (n : Nat) : Fld := ⟨Reg.LTC_STB_CFG n, 16, 4⟩
def F.LTC_STB_CFG_WDOG (n : Nat) : Fld := ⟨Reg.LTC_STB_CFG n, 0, 16⟩
def F.LTC_STB_CUTS_COUNT (n : Nat) : Fld := ⟨Reg.LTC_STB_CUTS n, 0, 16⟩
def F.LTC_CMP_CFG_BAR (n : Nat) : Fld := ⟨Reg.LTC_CMP_CFG n, 16, 4⟩
def F.LTC_CMP_CFG_PIN (n : Nat) : Fld := ⟨Reg.LTC_CMP_CFG n, 12, 4⟩
def F.LTC_CMP_CFG_TARGET (n : Nat) : Fld := ⟨Reg.LTC_CMP_CFG n, 8, 4⟩
def F.LTC_CMP_CFG_COMP (n : Nat) : Fld := ⟨Reg.LTC_CMP_CFG n, 3, 1⟩
def F.LTC_CMP_CFG_POL (n : Nat) : Fld := ⟨Reg.LTC_CMP_CFG n, 2, 1⟩
def F.LTC_CMP_CFG_MODE (n : Nat) : Fld := ⟨Reg.LTC_CMP_CFG n, 0, 2⟩
def F.LTC_CMP_LIST_LEN (n : Nat) : Fld := ⟨Reg.LTC_CMP_LIST n, 16, 15⟩
def F.LTC_CMP_LIST_BASE (n : Nat) : Fld := ⟨Reg.LTC_CMP_LIST n, 0, 14⟩
def F.LTC_CMP_WIDTH_WIDTH (n : Nat) : Fld := ⟨Reg.LTC_CMP_WIDTH n, 0, 17⟩
def F.LTC_CMP_PERIOD_NM (n : Nat) : Fld := ⟨Reg.LTC_CMP_PERIOD n, 0, 32⟩
def F.LTC_CMP_LEAD_LEAD (n : Nat) : Fld := ⟨Reg.LTC_CMP_LEAD n, 0, 16⟩
def F.LTC_CMP_PTR_PTR (n : Nat) : Fld := ⟨Reg.LTC_CMP_PTR n, 0, 14⟩
def F.LTC_CMP_COUNT_PULSES (n : Nat) : Fld := ⟨Reg.LTC_CMP_COUNT n, 0, 32⟩
def F.LTC_CMP_STATUS_ARMED (n : Nat) : Fld := ⟨Reg.LTC_CMP_STATUS n, 31, 1⟩
def F.LTC_CMP_STATUS_DONE (n : Nat) : Fld := ⟨Reg.LTC_CMP_STATUS n, 30, 1⟩
def F.LTC_CMP_STATUS_SKIPPED (n : Nat) : Fld := ⟨Reg.LTC_CMP_STATUS n, 20, 10⟩
def F.LTC_CMP_STATUS_OVERLAP (n : Nat) : Fld := ⟨Reg.LTC_CMP_STATUS n, 10, 10⟩
def F.LTC_CMP_STATUS_MERGED (n : Nat) : Fld := ⟨Reg.LTC_CMP_STATUS n, 0, 10⟩
def F.LTC_CMP_POOL_LO_POS (n : Nat) : Fld := ⟨Reg.LTC_CMP_POOL_LO n, 0, 32⟩
def F.LTC_CMP_POOL_HI_ENTRY (n : Nat) : Fld := ⟨Reg.LTC_CMP_POOL_HI n, 0, 32⟩
def F.SYS_COMMIT_CFG : Fld := ⟨Reg.SYS_COMMIT, 17, 1⟩
def F.SYS_COMMIT_SET : Fld := ⟨Reg.SYS_COMMIT, 16, 1⟩
def F.SYS_COMMIT_KIND : Fld := ⟨Reg.SYS_COMMIT, 0, 2⟩
def F.SYS_ANCHOR_LO_VAL : Fld := ⟨Reg.SYS_ANCHOR_LO, 0, 32⟩
def F.SYS_ANCHOR_HI_VAL : Fld := ⟨Reg.SYS_ANCHOR_HI, 0, 16⟩
def F.SYS_COMMIT_STATUS_SEQ : Fld := ⟨Reg.SYS_COMMIT_STATUS, 16, 16⟩
def F.SYS_COMMIT_STATUS_CFG_PEND : Fld := ⟨Reg.SYS_COMMIT_STATUS, 15, 1⟩
def F.SYS_COMMIT_STATUS_PENDING : Fld := ⟨Reg.SYS_COMMIT_STATUS, 8, 4⟩
def F.SYS_COMMIT_STATUS_RESULT : Fld := ⟨Reg.SYS_COMMIT_STATUS, 6, 2⟩
def F.SYS_COMMIT_STATUS_REASON : Fld := ⟨Reg.SYS_COMMIT_STATUS, 0, 6⟩
def F.JOB_CTL_SCHED_RESET : Fld := ⟨Reg.JOB_CTL, 1, 1⟩
def F.JOB_CTL_BREAK : Fld := ⟨Reg.JOB_CTL, 0, 1⟩
def F.JOB_SCHED_CFG_MODE : Fld := ⟨Reg.JOB_SCHED_CFG, 0, 1⟩
def F.JOB_SCHED_LEAD_NM : Fld := ⟨Reg.JOB_SCHED_LEAD, 0, 32⟩
def F.JOB_SCHED_BASE_LO_ADDR : Fld := ⟨Reg.JOB_SCHED_BASE_LO, 0, 32⟩
def F.JOB_SCHED_BASE_HI_ADDR : Fld := ⟨Reg.JOB_SCHED_BASE_HI, 0, 3⟩
def F.JOB_SCHED_SIZE_ENTRIES : Fld := ⟨Reg.JOB_SCHED_SIZE, 0, 17⟩
def F.JOB_SCHED_HEAD_INDEX : Fld := ⟨Reg.JOB_SCHED_HEAD, 0, 16⟩
def F.JOB_SCHED_TAIL_INDEX : Fld := ⟨Reg.JOB_SCHED_TAIL, 0, 16⟩
def F.JOB_SCHED_SEQ_SEQ : Fld := ⟨Reg.JOB_SCHED_SEQ, 0, 32⟩
def F.JOB_TABLE_BASE_LO_ADDR : Fld := ⟨Reg.JOB_TABLE_BASE_LO, 0, 32⟩
def F.JOB_TABLE_BASE_HI_ADDR : Fld := ⟨Reg.JOB_TABLE_BASE_HI, 0, 3⟩
def F.JOB_TABLE_SIZE_JOBS : Fld := ⟨Reg.JOB_TABLE_SIZE, 0, 13⟩
def F.JOB_CHECK_RESULT : Fld := ⟨Reg.JOB_CHECK, 30, 2⟩
def F.JOB_CHECK_CODE : Fld := ⟨Reg.JOB_CHECK, 16, 8⟩
def F.JOB_CHECK_INDEX : Fld := ⟨Reg.JOB_CHECK, 0, 16⟩
def F.JOB_BUDGET_RATE : Fld := ⟨Reg.JOB_BUDGET, 0, 32⟩
def F.JOB_RT_RES_MBPS : Fld := ⟨Reg.JOB_RT_RES, 0, 32⟩
def F.JOB_USE_Q_JOB : Fld := ⟨Reg.JOB_USE_Q, 0, 12⟩
def F.JOB_USE_COUNT : Fld := ⟨Reg.JOB_USE, 0, 16⟩
def F.JOB_CHECK_SEQ_SEQ : Fld := ⟨Reg.JOB_CHECK_SEQ, 0, 32⟩
def F.JOB_BAR_ENTRY_SEQ (n : Nat) : Fld := ⟨Reg.JOB_BAR_ENTRY n, 0, 32⟩
def F.JOB_BAR_COPY_COPY (n : Nat) : Fld := ⟨Reg.JOB_BAR_COPY n, 0, 32⟩
def F.JOB_BAR_STATE_STATE (n : Nat) : Fld := ⟨Reg.JOB_BAR_STATE n, 30, 2⟩
def F.JOB_BAR_STATE_JOB (n : Nat) : Fld := ⟨Reg.JOB_BAR_STATE n, 0, 12⟩
def F.JOB_BAR_PRINTED_LO_LINES (n : Nat) : Fld := ⟨Reg.JOB_BAR_PRINTED_LO n, 0, 32⟩
def F.JOB_BAR_PRINTED_HI_LINES (n : Nat) : Fld := ⟨Reg.JOB_BAR_PRINTED_HI n, 0, 16⟩
def F.JOB_BAR_SKIPPED_LINES (n : Nat) : Fld := ⟨Reg.JOB_BAR_SKIPPED n, 0, 32⟩
def F.JOB_BAR_POISON_LINES (n : Nat) : Fld := ⟨Reg.JOB_BAR_POISON n, 0, 32⟩
def F.JOB_BAR_SET_SEQ (n : Nat) : Fld := ⟨Reg.JOB_BAR_SET n, 0, 16⟩
def F.JOB_ING_BASE_LO_ADDR (n : Nat) : Fld := ⟨Reg.JOB_ING_BASE_LO n, 0, 32⟩
def F.JOB_ING_BASE_HI_ADDR (n : Nat) : Fld := ⟨Reg.JOB_ING_BASE_HI n, 0, 32⟩
def F.JOB_ING_SIZE_ENTRIES (n : Nat) : Fld := ⟨Reg.JOB_ING_SIZE n, 0, 16⟩
def F.JOB_ING_HEAD_INDEX (n : Nat) : Fld := ⟨Reg.JOB_ING_HEAD n, 0, 16⟩
def F.JOB_ING_TAIL_INDEX (n : Nat) : Fld := ⟨Reg.JOB_ING_TAIL n, 0, 16⟩
def F.JOB_ING_CTL_EN (n : Nat) : Fld := ⟨Reg.JOB_ING_CTL n, 31, 1⟩
def F.JOB_ING_CTL_VEC (n : Nat) : Fld := ⟨Reg.JOB_ING_CTL n, 16, 6⟩
def F.JOB_ING_CTL_TMO (n : Nat) : Fld := ⟨Reg.JOB_ING_CTL n, 0, 16⟩
def F.JOB_ING_STATUS_RUN (n : Nat) : Fld := ⟨Reg.JOB_ING_STATUS n, 31, 1⟩
def F.JOB_ING_STATUS_STOPPED (n : Nat) : Fld := ⟨Reg.JOB_ING_STATUS n, 30, 1⟩
def F.JOB_ING_STATUS_ERR (n : Nat) : Fld := ⟨Reg.JOB_ING_STATUS n, 0, 7⟩
def F.CDC_CFG_SPLIT_EN : Fld := ⟨Reg.CDC_CFG, 1, 1⟩
def F.CDC_CFG_FILL_EN : Fld := ⟨Reg.CDC_CFG, 0, 1⟩
def F.CDC_CTL_CNT_CLR : Fld := ⟨Reg.CDC_CTL, 0, 1⟩
def F.CDC_STATUS_DEC_RUN : Fld := ⟨Reg.CDC_STATUS, 1, 1⟩
def F.CDC_STATUS_ENC_BUSY : Fld := ⟨Reg.CDC_STATUS, 0, 1⟩
def F.CDC_ERR_LAST_CODE : Fld := ⟨Reg.CDC_ERR_LAST, 24, 8⟩
def F.CDC_ERR_LAST_BAR : Fld := ⟨Reg.CDC_ERR_LAST, 0, 4⟩
def F.CDC_ERR_ROW_ROW : Fld := ⟨Reg.CDC_ERR_ROW, 0, 32⟩
def F.CDC_ERR_SEQ_SEQ : Fld := ⟨Reg.CDC_ERR_SEQ, 0, 32⟩
def F.CDC_ENC_ROW_ROW : Fld := ⟨Reg.CDC_ENC_ROW, 0, 32⟩
def F.CDC_ENC_BLOCKS_BLOCKS : Fld := ⟨Reg.CDC_ENC_BLOCKS, 0, 14⟩
def F.CDC_ENC_BYTES_BYTES : Fld := ⟨Reg.CDC_ENC_BYTES, 0, 32⟩
def F.CDC_ENC_CHAN_CHAN : Fld := ⟨Reg.CDC_ENC_CHAN, 0, 2⟩
def F.CDC_BAR_BAD_LINES (n : Nat) : Fld := ⟨Reg.CDC_BAR_BAD n, 0, 32⟩
def F.SCR_CFG_CKPT : Fld := ⟨Reg.SCR_CFG, 8, 4⟩
def F.SCR_CFG_HORIZON : Fld := ⟨Reg.SCR_CFG, 0, 4⟩
def F.SCR_CTL_CNT_CLR : Fld := ⟨Reg.SCR_CTL, 0, 1⟩
def F.SCR_STATUS_RUN_E : Fld := ⟨Reg.SCR_STATUS, 1, 1⟩
def F.SCR_STATUS_RUN_W : Fld := ⟨Reg.SCR_STATUS, 0, 1⟩
def F.SCR_MAT_SEL_MAT : Fld := ⟨Reg.SCR_MAT_SEL, 8, 1⟩
def F.SCR_MAT_SEL_BAR : Fld := ⟨Reg.SCR_MAT_SEL, 0, 4⟩
def F.SCR_GAIN_BASE_LO_ADDR : Fld := ⟨Reg.SCR_GAIN_BASE_LO, 0, 32⟩
def F.SCR_GAIN_BASE_HI_ADDR : Fld := ⟨Reg.SCR_GAIN_BASE_HI, 0, 3⟩
def F.SCR_BAR_CFG_GAIN_EN (n : Nat) : Fld := ⟨Reg.SCR_BAR_CFG n, 5, 1⟩
def F.SCR_BAR_CFG_GAIN_BANK (n : Nat) : Fld := ⟨Reg.SCR_BAR_CFG n, 4, 1⟩
def F.SCR_BAR_CFG_MAT (n : Nat) : Fld := ⟨Reg.SCR_BAR_CFG n, 3, 1⟩
def F.SCR_BAR_CFG_UPS (n : Nat) : Fld := ⟨Reg.SCR_BAR_CFG n, 1, 1⟩
def F.SCR_BAR_CFG_METHOD (n : Nat) : Fld := ⟨Reg.SCR_BAR_CFG n, 0, 1⟩
def F.SCR_BAR_TOFS_OFS (n : Nat) : Fld := ⟨Reg.SCR_BAR_TOFS n, 0, 10⟩
def F.SCR_BAR_MOFS_Y (n : Nat) : Fld := ⟨Reg.SCR_BAR_MOFS n, 16, 7⟩
def F.SCR_BAR_MOFS_X (n : Nat) : Fld := ⟨Reg.SCR_BAR_MOFS n, 0, 7⟩
def F.SCR_BAR_EDW_W_DR (n : Nat) : Fld := ⟨Reg.SCR_BAR_EDW n, 24, 5⟩
def F.SCR_BAR_EDW_W_D (n : Nat) : Fld := ⟨Reg.SCR_BAR_EDW n, 16, 5⟩
def F.SCR_BAR_EDW_W_DL (n : Nat) : Fld := ⟨Reg.SCR_BAR_EDW n, 8, 5⟩
def F.SCR_BAR_EDW_W_R (n : Nat) : Fld := ⟨Reg.SCR_BAR_EDW n, 0, 5⟩
def F.SCR_BAR_EDL_L3 (n : Nat) : Fld := ⟨Reg.SCR_BAR_EDL n, 20, 10⟩
def F.SCR_BAR_EDL_L2 (n : Nat) : Fld := ⟨Reg.SCR_BAR_EDL n, 10, 10⟩
def F.SCR_BAR_EDL_L1 (n : Nat) : Fld := ⟨Reg.SCR_BAR_EDL n, 0, 10⟩
def F.SCR_BAR_EDN_ECLAMP (n : Nat) : Fld := ⟨Reg.SCR_BAR_EDN n, 16, 11⟩
def F.SCR_BAR_EDN_NAMP (n : Nat) : Fld := ⟨Reg.SCR_BAR_EDN n, 0, 8⟩
def F.SCR_BAR_STATUS_AHEAD (n : Nat) : Fld := ⟨Reg.SCR_BAR_STATUS n, 16, 5⟩
def F.SCR_BAR_STATUS_COMMITTED (n : Nat) : Fld := ⟨Reg.SCR_BAR_STATUS n, 8, 4⟩
def F.SCR_BAR_STATUS_REPLAY (n : Nat) : Fld := ⟨Reg.SCR_BAR_STATUS n, 6, 1⟩
def F.SCR_BAR_STATUS_PAUSED (n : Nat) : Fld := ⟨Reg.SCR_BAR_STATUS n, 5, 1⟩
def F.SCR_BAR_STATUS_GAIN_LOADING (n : Nat) : Fld := ⟨Reg.SCR_BAR_STATUS n, 4, 1⟩
def F.SCR_BAR_STATUS_GAIN_BUSY (n : Nat) : Fld := ⟨Reg.SCR_BAR_STATUS n, 2, 2⟩
def F.SCR_BAR_STATUS_MAT_BUSY (n : Nat) : Fld := ⟨Reg.SCR_BAR_STATUS n, 0, 2⟩
def F.SCR_BAR_COMMIT_LINE (n : Nat) : Fld := ⟨Reg.SCR_BAR_COMMIT n, 0, 32⟩
def F.SCR_BAR_CKPT_LINE (n : Nat) : Fld := ⟨Reg.SCR_BAR_CKPT n, 0, 32⟩
def F.SCR_BAR_ROLLBACK_LINES (n : Nat) : Fld := ⟨Reg.SCR_BAR_ROLLBACK n, 16, 16⟩
def F.SCR_BAR_ROLLBACK_COUNT (n : Nat) : Fld := ⟨Reg.SCR_BAR_ROLLBACK n, 0, 16⟩
def F.SCR_BAR_STARVED_LINES (n : Nat) : Fld := ⟨Reg.SCR_BAR_STARVED n, 0, 32⟩
def F.SCR_BAR_LCRC_CRC (n : Nat) : Fld := ⟨Reg.SCR_BAR_LCRC n, 0, 32⟩
def F.SCR_BAR_LCRC_LINE_LINE (n : Nat) : Fld := ⟨Reg.SCR_BAR_LCRC_LINE n, 0, 32⟩
def F.SCR_TONE_VAL (n m : Nat) : Fld := ⟨Reg.SCR_TONE n m, 0, 10⟩
def F.SCR_MAT_LO_T1 (n m : Nat) : Fld := ⟨Reg.SCR_MAT_LO n m, 16, 12⟩
def F.SCR_MAT_LO_T0 (n m : Nat) : Fld := ⟨Reg.SCR_MAT_LO n m, 0, 12⟩
def F.SCR_MAT_HI_T2 (n m : Nat) : Fld := ⟨Reg.SCR_MAT_HI n m, 0, 12⟩
def F.NOZ_CFG_OVT_REL : Fld := ⟨Reg.NOZ_CFG, 0, 16⟩
def F.NOZ_OVT_ACTION_ACTION : Fld := ⟨Reg.NOZ_OVT_ACTION, 0, 1⟩
def F.NOZ_CTL_CNT_CLR : Fld := ⟨Reg.NOZ_CTL, 2, 1⟩
def F.NOZ_CTL_LIFE_SAVE : Fld := ⟨Reg.NOZ_CTL, 1, 1⟩
def F.NOZ_CTL_OVT_CLR : Fld := ⟨Reg.NOZ_CTL, 0, 1⟩
def F.NOZ_OUT_SEL_BANK : Fld := ⟨Reg.NOZ_OUT_SEL, 8, 1⟩
def F.NOZ_OUT_SEL_BAR : Fld := ⟨Reg.NOZ_OUT_SEL, 0, 4⟩
def F.NOZ_MASK_SEL_PAT : Fld := ⟨Reg.NOZ_MASK_SEL, 8, 3⟩
def F.NOZ_MASK_SEL_BAR : Fld := ⟨Reg.NOZ_MASK_SEL, 0, 4⟩
def F.NOZ_HEAD_SEL_HEAD : Fld := ⟨Reg.NOZ_HEAD_SEL, 0, 10⟩
def F.NOZ_HEAD_ID_LO_ID : Fld := ⟨Reg.NOZ_HEAD_ID_LO, 0, 32⟩
def F.NOZ_HEAD_ID_HI_ID : Fld := ⟨Reg.NOZ_HEAD_ID_HI, 0, 32⟩
def F.NOZ_HEAD_INFO_PRESENT : Fld := ⟨Reg.NOZ_HEAD_INFO, 31, 1⟩
def F.NOZ_HEAD_INFO_OVT : Fld := ⟨Reg.NOZ_HEAD_INFO, 30, 1⟩
def F.NOZ_HEAD_INFO_INHIBIT : Fld := ⟨Reg.NOZ_HEAD_INFO, 29, 1⟩
def F.NOZ_HEAD_INFO_FORCED : Fld := ⟨Reg.NOZ_HEAD_INFO, 28, 1⟩
def F.NOZ_HEAD_INFO_LIFE_WARN : Fld := ⟨Reg.NOZ_HEAD_INFO, 27, 1⟩
def F.NOZ_HEAD_INFO_LIFE_END : Fld := ⟨Reg.NOZ_HEAD_INFO, 26, 1⟩
def F.NOZ_HEAD_INFO_EP : Fld := ⟨Reg.NOZ_HEAD_INFO, 16, 10⟩
def F.NOZ_HEAD_INFO_MODEL : Fld := ⟨Reg.NOZ_HEAD_INFO, 0, 16⟩
def F.NOZ_HEAD_SPAN_SLOT : Fld := ⟨Reg.NOZ_HEAD_SPAN, 30, 2⟩
def F.NOZ_HEAD_SPAN_ROW : Fld := ⟨Reg.NOZ_HEAD_SPAN, 29, 1⟩
def F.NOZ_HEAD_SPAN_BAR : Fld := ⟨Reg.NOZ_HEAD_SPAN, 24, 4⟩
def F.NOZ_HEAD_SPAN_FIRST : Fld := ⟨Reg.NOZ_HEAD_SPAN, 0, 17⟩
def F.NOZ_HEAD_SPANLEN_COUNT : Fld := ⟨Reg.NOZ_HEAD_SPANLEN, 0, 17⟩
def F.NOZ_HEAD_RATED_LO_RATED : Fld := ⟨Reg.NOZ_HEAD_RATED_LO, 0, 32⟩
def F.NOZ_HEAD_RATED_HI_RATED : Fld := ⟨Reg.NOZ_HEAD_RATED_HI, 0, 16⟩
def F.NOZ_HEAD_ACT_LO_ACT : Fld := ⟨Reg.NOZ_HEAD_ACT_LO, 0, 32⟩
def F.NOZ_HEAD_ACT_HI_ACT : Fld := ⟨Reg.NOZ_HEAD_ACT_HI, 0, 16⟩
def F.NOZ_BAR_CFG_YOFS (n : Nat) : Fld := ⟨Reg.NOZ_BAR_CFG n, 24, 6⟩
def F.NOZ_BAR_CFG_XOFS (n : Nat) : Fld := ⟨Reg.NOZ_BAR_CFG n, 16, 6⟩
def F.NOZ_BAR_CFG_PAT (n : Nat) : Fld := ⟨Reg.NOZ_BAR_CFG n, 8, 3⟩
def F.NOZ_BAR_CFG_REACH (n : Nat) : Fld := ⟨Reg.NOZ_BAR_CFG n, 4, 3⟩
def F.NOZ_BAR_CFG_OUT_BANK (n : Nat) : Fld := ⟨Reg.NOZ_BAR_CFG n, 1, 1⟩
def F.NOZ_BAR_CFG_DUAL (n : Nat) : Fld := ⟨Reg.NOZ_BAR_CFG n, 0, 1⟩
def F.NOZ_BAR_SPREAD_TABLE (n : Nat) : Fld := ⟨Reg.NOZ_BAR_SPREAD n, 0, 32⟩
def F.NOZ_BAR_OUTN0_COUNT (n : Nat) : Fld := ⟨Reg.NOZ_BAR_OUTN0 n, 0, 13⟩
def F.NOZ_BAR_OUTN1_COUNT (n : Nat) : Fld := ⟨Reg.NOZ_BAR_OUTN1 n, 0, 13⟩
def F.NOZ_BAR_ROWB_LINES (n : Nat) : Fld := ⟨Reg.NOZ_BAR_ROWB n, 8, 6⟩
def F.NOZ_BAR_ROWB_PHASE (n : Nat) : Fld := ⟨Reg.NOZ_BAR_ROWB n, 0, 6⟩
def F.NOZ_BAR_STATUS_SPREADSET (n : Nat) : Fld := ⟨Reg.NOZ_BAR_STATUS n, 16, 13⟩
def F.NOZ_BAR_STATUS_HOT (n : Nat) : Fld := ⟨Reg.NOZ_BAR_STATUS n, 8, 8⟩
def F.NOZ_BAR_STATUS_OUT_BUSY (n : Nat) : Fld := ⟨Reg.NOZ_BAR_STATUS n, 2, 2⟩
def F.NOZ_BAR_STATUS_UNPRINTED (n : Nat) : Fld := ⟨Reg.NOZ_BAR_STATUS n, 0, 1⟩
def F.NOZ_BAR_LOST_DOTS (n : Nat) : Fld := ⟨Reg.NOZ_BAR_LOST n, 0, 32⟩
def F.NOZ_BAR_SPREADS_DOTS (n : Nat) : Fld := ⟨Reg.NOZ_BAR_SPREADS n, 0, 32⟩
def F.NOZ_MASK_WIN_BITS (n m : Nat) : Fld := ⟨Reg.NOZ_MASK_WIN n m, 0, 32⟩
def F.NOZ_OUT_WIN_ENTRY (n m : Nat) : Fld := ⟨Reg.NOZ_OUT_WIN n m, 0, 32⟩
def F.ZXL_CFG_RATE_TOP : Fld := ⟨Reg.ZXL_CFG, 8, 2⟩
def F.ZXL_CFG_RETRIES : Fld := ⟨Reg.ZXL_CFG, 0, 4⟩
def F.ZXL_STATUS_ACTIVE : Fld := ⟨Reg.ZXL_STATUS, 0, 18⟩
def F.ZXL_LPM_L2_S : Fld := ⟨Reg.ZXL_LPM, 16, 16⟩
def F.ZXL_LPM_L1_MS : Fld := ⟨Reg.ZXL_LPM, 0, 16⟩
def F.ZXL_EXCL_LANES : Fld := ⟨Reg.ZXL_EXCL, 0, 16⟩
def F.ZXL_BOOT_ATTEMPT : Fld := ⟨Reg.ZXL_BOOT, 0, 2⟩
def F.ZXL_BAR_AVAIL_BARS : Fld := ⟨Reg.ZXL_BAR_AVAIL, 0, 12⟩
def F.ZXL_LANE_CFG_EN (n : Nat) : Fld := ⟨Reg.ZXL_LANE_CFG n, 31, 1⟩
def F.ZXL_LANE_CFG_EP_EXPECT (n : Nat) : Fld := ⟨Reg.ZXL_LANE_CFG n, 16, 7⟩
def F.ZXL_LANE_CFG_VER_MIN (n : Nat) : Fld := ⟨Reg.ZXL_LANE_CFG n, 8, 8⟩
def F.ZXL_LANE_CFG_RATE_MAX (n : Nat) : Fld := ⟨Reg.ZXL_LANE_CFG n, 0, 2⟩
def F.ZXL_LANE_CTL_MARGIN (n : Nat) : Fld := ⟨Reg.ZXL_LANE_CTL n, 4, 1⟩
def F.ZXL_LANE_CTL_WAKE (n : Nat) : Fld := ⟨Reg.ZXL_LANE_CTL n, 3, 1⟩
def F.ZXL_LANE_CTL_L2 (n : Nat) : Fld := ⟨Reg.ZXL_LANE_CTL n, 2, 1⟩
def F.ZXL_LANE_CTL_L1 (n : Nat) : Fld := ⟨Reg.ZXL_LANE_CTL n, 1, 1⟩
def F.ZXL_LANE_CTL_RETRAIN (n : Nat) : Fld := ⟨Reg.ZXL_LANE_CTL n, 0, 1⟩
def F.ZXL_LANE_STATUS_STATE (n : Nat) : Fld := ⟨Reg.ZXL_LANE_STATUS n, 28, 4⟩
def F.ZXL_LANE_STATUS_RATE (n : Nat) : Fld := ⟨Reg.ZXL_LANE_STATUS n, 24, 2⟩
def F.ZXL_LANE_STATUS_ENDPOINTS (n : Nat) : Fld := ⟨Reg.ZXL_LANE_STATUS n, 16, 7⟩
def F.ZXL_LANE_STATUS_FAILCODE (n : Nat) : Fld := ⟨Reg.ZXL_LANE_STATUS n, 8, 8⟩
def F.ZXL_LANE_STATUS_LAST_FAIL (n : Nat) : Fld := ⟨Reg.ZXL_LANE_STATUS n, 4, 4⟩
def F.ZXL_LANE_STATUS_LPM_OK (n : Nat) : Fld := ⟨Reg.ZXL_LANE_STATUS n, 0, 2⟩
def F.ZXL_LANE_CAPS_VER (n : Nat) : Fld := ⟨Reg.ZXL_LANE_CAPS n, 8, 8⟩
def F.ZXL_LANE_CAPS_LPM (n : Nat) : Fld := ⟨Reg.ZXL_LANE_CAPS n, 4, 2⟩
def F.ZXL_LANE_CAPS_RATES (n : Nat) : Fld := ⟨Reg.ZXL_LANE_CAPS n, 0, 4⟩
def F.ZXL_LANE_ERR_SYMBOL (n : Nat) : Fld := ⟨Reg.ZXL_LANE_ERR n, 16, 16⟩
def F.ZXL_LANE_ERR_LOCKLOSS (n : Nat) : Fld := ⟨Reg.ZXL_LANE_ERR n, 8, 8⟩
def F.ZXL_LANE_ERR_RETRIES (n : Nat) : Fld := ⟨Reg.ZXL_LANE_ERR n, 0, 8⟩
def F.ZXL_LANE_EQ_MODE (n : Nat) : Fld := ⟨Reg.ZXL_LANE_EQ n, 30, 2⟩
def F.ZXL_LANE_EQ_SAT (n : Nat) : Fld := ⟨Reg.ZXL_LANE_EQ n, 12, 1⟩
def F.ZXL_LANE_EQ_CTLE (n : Nat) : Fld := ⟨Reg.ZXL_LANE_EQ n, 8, 4⟩
def F.ZXL_LANE_EQ_MU (n : Nat) : Fld := ⟨Reg.ZXL_LANE_EQ n, 0, 3⟩
def F.ZXL_LANE_DFE0_TAP1 (n : Nat) : Fld := ⟨Reg.ZXL_LANE_DFE0 n, 0, 8⟩
def F.ZXL_LANE_DFE0_TAP2 (n : Nat) : Fld := ⟨Reg.ZXL_LANE_DFE0 n, 8, 8⟩
def F.ZXL_LANE_DFE0_TAP3 (n : Nat) : Fld := ⟨Reg.ZXL_LANE_DFE0 n, 16, 8⟩
def F.ZXL_LANE_DFE0_TAP4 (n : Nat) : Fld := ⟨Reg.ZXL_LANE_DFE0 n, 24, 8⟩
def F.ZXL_LANE_DFE1_TAP5 (n : Nat) : Fld := ⟨Reg.ZXL_LANE_DFE1 n, 0, 8⟩
def F.ZXL_LANE_DFE1_TAP6 (n : Nat) : Fld := ⟨Reg.ZXL_LANE_DFE1 n, 8, 8⟩
def F.ZXL_LANE_DFE1_TAP7 (n : Nat) : Fld := ⟨Reg.ZXL_LANE_DFE1 n, 16, 8⟩
def F.ZXL_LANE_DFE1_TAP8 (n : Nat) : Fld := ⟨Reg.ZXL_LANE_DFE1 n, 24, 8⟩
def F.ZXL_LANE_TX_SWING (n : Nat) : Fld := ⟨Reg.ZXL_LANE_TX n, 8, 4⟩
def F.ZXL_LANE_TX_POST (n : Nat) : Fld := ⟨Reg.ZXL_LANE_TX n, 4, 4⟩
def F.ZXL_LANE_TX_PRE (n : Nat) : Fld := ⟨Reg.ZXL_LANE_TX n, 0, 4⟩
def F.ZXL_LANE_MARGIN_H (n : Nat) : Fld := ⟨Reg.ZXL_LANE_MARGIN n, 16, 16⟩
def F.ZXL_LANE_MARGIN_V (n : Nat) : Fld := ⟨Reg.ZXL_LANE_MARGIN n, 0, 16⟩
def F.ZXL_LANE_LOAD_POSITIONS (n : Nat) : Fld := ⟨Reg.ZXL_LANE_LOAD n, 0, 17⟩
def F.ZXL_LANE_PIECE_FIRST_VALID (n m : Nat) : Fld := ⟨Reg.ZXL_LANE_PIECE_FIRST n m, 31, 1⟩
def F.ZXL_LANE_PIECE_FIRST_BAR (n m : Nat) : Fld := ⟨Reg.ZXL_LANE_PIECE_FIRST n m, 24, 4⟩
def F.ZXL_LANE_PIECE_FIRST_FIRST (n m : Nat) : Fld := ⟨Reg.ZXL_LANE_PIECE_FIRST n m, 0, 17⟩
def F.ZXL_LANE_PIECE_COUNT_COUNT (n m : Nat) : Fld := ⟨Reg.ZXL_LANE_PIECE_COUNT n m, 0, 17⟩
def F.ZXL_CLAIM_CLAIM : Fld := ⟨Reg.ZXL_CLAIM, 0, 16⟩
def F.ZXL_PCFG_GUARD : Fld := ⟨Reg.ZXL_PCFG, 20, 12⟩
def F.ZXL_PCFG_DEADLINE : Fld := ⟨Reg.ZXL_PCFG, 8, 8⟩
def F.ZXL_PCFG_CMD_TMO : Fld := ⟨Reg.ZXL_PCFG, 0, 8⟩
def F.ZXL_PCTL_DMEAS : Fld := ⟨Reg.ZXL_PCTL, 0, 1⟩
def F.ZXL_ECMD_OP : Fld := ⟨Reg.ZXL_ECMD, 30, 2⟩
def F.ZXL_ECMD_EP : Fld := ⟨Reg.ZXL_ECMD, 16, 10⟩
def F.ZXL_ECMD_REG : Fld := ⟨Reg.ZXL_ECMD, 0, 16⟩
def F.ZXL_EDATA_DATA : Fld := ⟨Reg.ZXL_EDATA, 0, 32⟩
def F.ZXL_ESTAT_RESULT : Fld := ⟨Reg.ZXL_ESTAT, 30, 2⟩
def F.ZXL_ESTAT_CODE : Fld := ⟨Reg.ZXL_ESTAT, 0, 8⟩
def F.ZXL_FSEL_CLASS : Fld := ⟨Reg.ZXL_FSEL, 0, 3⟩
def F.ZXL_STAT_LOST_FRAMES : Fld := ⟨Reg.ZXL_STAT_LOST, 0, 16⟩
def F.ZXL_FVEC_EPS (n m : Nat) : Fld := ⟨Reg.ZXL_FVEC n m, 0, 32⟩
def F.ZXL_BAR_EPSET_HEAT (n : Nat) : Fld := ⟨Reg.ZXL_BAR_EPSET n, 16, 8⟩
def F.ZXL_BAR_EPSET_DRIVE (n : Nat) : Fld := ⟨Reg.ZXL_BAR_EPSET n, 8, 8⟩
def F.ZXL_BAR_EPSET_WAVE (n : Nat) : Fld := ⟨Reg.ZXL_BAR_EPSET n, 0, 4⟩
def F.ZXL_BAR_EPOCH_PEND (n : Nat) : Fld := ⟨Reg.ZXL_BAR_EPOCH n, 16, 16⟩
def F.ZXL_BAR_EPOCH_EPOCH (n : Nat) : Fld := ⟨Reg.ZXL_BAR_EPOCH n, 0, 16⟩
def F.ZXL_BAR_MCHG_STATE (n : Nat) : Fld := ⟨Reg.ZXL_BAR_MCHG n, 30, 2⟩
def F.ZXL_BAR_MCHG_L (n : Nat) : Fld := ⟨Reg.ZXL_BAR_MCHG n, 0, 16⟩
def F.ZXL_BAR_WIRE_COUNT (n : Nat) : Fld := ⟨Reg.ZXL_BAR_WIRE n, 0, 32⟩
def F.ZXL_BAR_MISMATCH_EPS (n : Nat) : Fld := ⟨Reg.ZXL_BAR_MISMATCH n, 0, 11⟩
def F.ZXL_EP_SLOT_LO_SLOT (n : Nat) : Fld := ⟨Reg.ZXL_EP_SLOT_LO n, 0, 32⟩
def F.ZXL_EP_SLOT_HI_SLOT (n : Nat) : Fld := ⟨Reg.ZXL_EP_SLOT_HI n, 0, 32⟩
def F.ZXL_EPD_DELAY_D (n : Nat) : Fld := ⟨Reg.ZXL_EPD_DELAY n, 0, 32⟩
def F.VIS_CFG_CH : Fld := ⟨Reg.VIS_CFG, 0, 1⟩
def F.VIS_STATUS_QUEUED : Fld := ⟨Reg.VIS_STATUS, 16, 16⟩
def F.VIS_STATUS_M2M_BUSY : Fld := ⟨Reg.VIS_STATUS, 4, 1⟩
def F.VIS_STATUS_ACTIVE : Fld := ⟨Reg.VIS_STATUS, 0, 4⟩
def F.VIS_CTL_CNT_CLR : Fld := ⟨Reg.VIS_CTL, 0, 1⟩
def F.VIS_TAB_SEL_UNIT : Fld := ⟨Reg.VIS_TAB_SEL, 8, 2⟩
def F.VIS_TAB_SEL_TABLE : Fld := ⟨Reg.VIS_TAB_SEL, 0, 3⟩
def F.VIS_STAT_CFG_EN2 : Fld := ⟨Reg.VIS_STAT_CFG, 31, 1⟩
def F.VIS_STAT_CFG_ENC : Fld := ⟨Reg.VIS_STAT_CFG, 30, 1⟩
def F.VIS_STAT_CFG_COL_SRC : Fld := ⟨Reg.VIS_STAT_CFG, 24, 2⟩
def F.VIS_STAT_CFG_SRC : Fld := ⟨Reg.VIS_STAT_CFG, 20, 2⟩
def F.VIS_STAT_CFG_SHP_COMP : Fld := ⟨Reg.VIS_STAT_CFG, 16, 2⟩
def F.VIS_STAT_CFG_FMT : Fld := ⟨Reg.VIS_STAT_CFG, 0, 1⟩
def F.VIS_HIST_WX_X0 : Fld := ⟨Reg.VIS_HIST_WX, 16, 16⟩
def F.VIS_HIST_WX_W : Fld := ⟨Reg.VIS_HIST_WX, 0, 16⟩
def F.VIS_SHP_WX_X0 (n : Nat) : Fld := ⟨Reg.VIS_SHP_WX n, 16, 16⟩
def F.VIS_SHP_WX_W (n : Nat) : Fld := ⟨Reg.VIS_SHP_WX n, 0, 16⟩
def F.VIS_HIST_WY_Y0 : Fld := ⟨Reg.VIS_HIST_WY, 16, 16⟩
def F.VIS_HIST_WY_H : Fld := ⟨Reg.VIS_HIST_WY, 0, 16⟩
def F.VIS_SHP_WY_Y0 (n : Nat) : Fld := ⟨Reg.VIS_SHP_WY n, 16, 16⟩
def F.VIS_SHP_WY_H (n : Nat) : Fld := ⟨Reg.VIS_SHP_WY n, 0, 16⟩
def F.VIS_COL_CFG_START : Fld := ⟨Reg.VIS_COL_CFG, 31, 1⟩
def F.VIS_COL_CFG_TAP : Fld := ⟨Reg.VIS_COL_CFG, 16, 1⟩
def F.VIS_COL_CFG_LINES : Fld := ⟨Reg.VIS_COL_CFG, 0, 16⟩
def F.VIS_STAT_STATUS_LOST : Fld := ⟨Reg.VIS_STAT_STATUS, 16, 16⟩
def F.VIS_STAT_STATUS_RECORDS : Fld := ⟨Reg.VIS_STAT_STATUS, 0, 16⟩
def F.VIS_CAM_CFG_EN (n : Nat) : Fld := ⟨Reg.VIS_CAM_CFG n, 31, 1⟩
def F.VIS_CAM_CFG_RAWCOPY (n : Nat) : Fld := ⟨Reg.VIS_CAM_CFG n, 30, 1⟩
def F.VIS_CAM_CFG_M2M (n : Nat) : Fld := ⟨Reg.VIS_CAM_CFG n, 29, 1⟩
def F.VIS_CAM_CFG_BAR (n : Nat) : Fld := ⟨Reg.VIS_CAM_CFG n, 20, 4⟩
def F.VIS_CAM_CFG_CRC_EN (n : Nat) : Fld := ⟨Reg.VIS_CAM_CFG n, 19, 1⟩
def F.VIS_CAM_CFG_FSTART (n : Nat) : Fld := ⟨Reg.VIS_CAM_CFG n, 18, 1⟩
def F.VIS_CAM_CFG_SYNC (n : Nat) : Fld := ⟨Reg.VIS_CAM_CFG n, 17, 1⟩
def F.VIS_CAM_CFG_VPOL (n : Nat) : Fld := ⟨Reg.VIS_CAM_CFG n, 16, 1⟩
def F.VIS_CAM_CFG_HPOL (n : Nat) : Fld := ⟨Reg.VIS_CAM_CFG n, 15, 1⟩
def F.VIS_CAM_CFG_CLKEDGE (n : Nat) : Fld := ⟨Reg.VIS_CAM_CFG n, 14, 1⟩
def F.VIS_CAM_CFG_FMT (n : Nat) : Fld := ⟨Reg.VIS_CAM_CFG n, 12, 2⟩
def F.VIS_CAM_CFG_PHASE (n : Nat) : Fld := ⟨Reg.VIS_CAM_CFG n, 10, 2⟩
def F.VIS_CAM_CFG_BITS (n : Nat) : Fld := ⟨Reg.VIS_CAM_CFG n, 0, 5⟩
def F.VIS_CAM_GEOM_WIDTH (n : Nat) : Fld := ⟨Reg.VIS_CAM_GEOM n, 0, 17⟩
def F.VIS_CAM_FRAMING_TMO (n : Nat) : Fld := ⟨Reg.VIS_CAM_FRAMING n, 16, 16⟩
def F.VIS_CAM_FRAMING_LINES (n : Nat) : Fld := ⟨Reg.VIS_CAM_FRAMING n, 0, 16⟩
def F.VIS_CAM_EXP_POL (n : Nat) : Fld := ⟨Reg.VIS_CAM_EXP n, 31, 1⟩
def F.VIS_CAM_EXP_WIDTH (n : Nat) : Fld := ⟨Reg.VIS_CAM_EXP n, 0, 24⟩
def F.VIS_CAM_BLK01_BLK1 (n : Nat) : Fld := ⟨Reg.VIS_CAM_BLK01 n, 16, 16⟩
def F.VIS_CAM_BLK01_BLK0 (n : Nat) : Fld := ⟨Reg.VIS_CAM_BLK01 n, 0, 16⟩
def F.VIS_CAM_BLK23_BLK3 (n : Nat) : Fld := ⟨Reg.VIS_CAM_BLK23 n, 16, 16⟩
def F.VIS_CAM_BLK23_BLK2 (n : Nat) : Fld := ⟨Reg.VIS_CAM_BLK23 n, 0, 16⟩
def F.VIS_CAM_FF_LO_ADDR (n : Nat) : Fld := ⟨Reg.VIS_CAM_FF_LO n, 0, 32⟩
def F.VIS_CAM_FF_HI_FF_EN (n : Nat) : Fld := ⟨Reg.VIS_CAM_FF_HI n, 31, 1⟩
def F.VIS_CAM_FF_HI_ADDR (n : Nat) : Fld := ⟨Reg.VIS_CAM_FF_HI n, 0, 3⟩
def F.VIS_CAM_SENS_I2C_LAT (n : Nat) : Fld := ⟨Reg.VIS_CAM_SENS n, 8, 2⟩
def F.VIS_CAM_SENS_BANK (n : Nat) : Fld := ⟨Reg.VIS_CAM_SENS n, 6, 1⟩
def F.VIS_CAM_SENS_COUNT (n : Nat) : Fld := ⟨Reg.VIS_CAM_SENS n, 0, 5⟩
def F.VIS_CAM_DEFN_COUNT (n : Nat) : Fld := ⟨Reg.VIS_CAM_DEFN n, 0, 11⟩
def F.VIS_CAM_BUF_LO_ADDR (n : Nat) : Fld := ⟨Reg.VIS_CAM_BUF_LO n, 0, 32⟩
def F.VIS_CAM_BUF_HI_ADDR (n : Nat) : Fld := ⟨Reg.VIS_CAM_BUF_HI n, 0, 3⟩
def F.VIS_CAM_BUF_SLOT_SLOTS (n : Nat) : Fld := ⟨Reg.VIS_CAM_BUF_SLOT n, 24, 8⟩
def F.VIS_CAM_BUF_SLOT_SLOT (n : Nat) : Fld := ⟨Reg.VIS_CAM_BUF_SLOT n, 0, 24⟩
def F.VIS_CAM_I2C_OP (n : Nat) : Fld := ⟨Reg.VIS_CAM_I2C n, 30, 2⟩
def F.VIS_CAM_I2C_RESULT (n : Nat) : Fld := ⟨Reg.VIS_CAM_I2C n, 28, 2⟩
def F.VIS_CAM_I2C_REG16 (n : Nat) : Fld := ⟨Reg.VIS_CAM_I2C n, 27, 1⟩
def F.VIS_CAM_I2C_ADDR (n : Nat) : Fld := ⟨Reg.VIS_CAM_I2C n, 20, 7⟩
def F.VIS_CAM_I2C_REG (n : Nat) : Fld := ⟨Reg.VIS_CAM_I2C n, 0, 16⟩
def F.VIS_CAM_I2C_DATA_SPEED (n : Nat) : Fld := ⟨Reg.VIS_CAM_I2C_DATA n, 8, 2⟩
def F.VIS_CAM_I2C_DATA_DATA (n : Nat) : Fld := ⟨Reg.VIS_CAM_I2C_DATA n, 0, 8⟩
def F.VIS_CAM_FRAME_FRAME (n : Nat) : Fld := ⟨Reg.VIS_CAM_FRAME n, 0, 32⟩
def F.VIS_CAM_FSTAT_FLAGS (n : Nat) : Fld := ⟨Reg.VIS_CAM_FSTAT n, 27, 5⟩
def F.VIS_CAM_FSTAT_LINES (n : Nat) : Fld := ⟨Reg.VIS_CAM_FSTAT n, 0, 16⟩
def F.VIS_CAM_ERR0_SHORT (n : Nat) : Fld := ⟨Reg.VIS_CAM_ERR0 n, 16, 16⟩
def F.VIS_CAM_ERR0_LONG (n : Nat) : Fld := ⟨Reg.VIS_CAM_ERR0 n, 0, 16⟩
def F.VIS_CAM_ERR1_CRCERR (n : Nat) : Fld := ⟨Reg.VIS_CAM_ERR1 n, 16, 16⟩
def F.VIS_CAM_ERR1_TMO (n : Nat) : Fld := ⟨Reg.VIS_CAM_ERR1 n, 0, 16⟩
def F.VIS_CAM_EXCESS_LINES (n : Nat) : Fld := ⟨Reg.VIS_CAM_EXCESS n, 0, 32⟩
def F.VIS_CAM_APPLIED_TAG (n : Nat) : Fld := ⟨Reg.VIS_CAM_APPLIED n, 24, 8⟩
def F.VIS_CAM_APPLIED_FRAME (n : Nat) : Fld := ⟨Reg.VIS_CAM_APPLIED n, 0, 24⟩
def F.VIS_CAM_DROP_FRAMES (n : Nat) : Fld := ⟨Reg.VIS_CAM_DROP n, 0, 16⟩
def F.VIS_CAM_CCM0_M01 (n : Nat) : Fld := ⟨Reg.VIS_CAM_CCM0 n, 16, 16⟩
def F.VIS_CAM_CCM0_M00 (n : Nat) : Fld := ⟨Reg.VIS_CAM_CCM0 n, 0, 16⟩
def F.VIS_CAM_CCM1_M10 (n : Nat) : Fld := ⟨Reg.VIS_CAM_CCM1 n, 16, 16⟩
def F.VIS_CAM_CCM1_M02 (n : Nat) : Fld := ⟨Reg.VIS_CAM_CCM1 n, 0, 16⟩
def F.VIS_CAM_CCM2_M12 (n : Nat) : Fld := ⟨Reg.VIS_CAM_CCM2 n, 16, 16⟩
def F.VIS_CAM_CCM2_M11 (n : Nat) : Fld := ⟨Reg.VIS_CAM_CCM2 n, 0, 16⟩
def F.VIS_CAM_CCM3_M21 (n : Nat) : Fld := ⟨Reg.VIS_CAM_CCM3 n, 16, 16⟩
def F.VIS_CAM_CCM3_M20 (n : Nat) : Fld := ⟨Reg.VIS_CAM_CCM3 n, 0, 16⟩
def F.VIS_CAM_CCM4_M22 (n : Nat) : Fld := ⟨Reg.VIS_CAM_CCM4 n, 0, 16⟩
def F.VIS_CAM_WHITE01_WHITE1 (n : Nat) : Fld := ⟨Reg.VIS_CAM_WHITE01 n, 16, 16⟩
def F.VIS_CAM_WHITE01_WHITE0 (n : Nat) : Fld := ⟨Reg.VIS_CAM_WHITE01 n, 0, 16⟩
def F.VIS_CAM_WHITE2_DENS_EN (n : Nat) : Fld := ⟨Reg.VIS_CAM_WHITE2 n, 16, 1⟩
def F.VIS_CAM_WHITE2_WHITE2 (n : Nat) : Fld := ⟨Reg.VIS_CAM_WHITE2 n, 0, 16⟩
def F.VIS_VS_CFG_EN (n : Nat) : Fld := ⟨Reg.VIS_VS_CFG n, 31, 1⟩
def F.VIS_VS_CFG_OUT16 (n : Nat) : Fld := ⟨Reg.VIS_VS_CFG n, 30, 1⟩
def F.VIS_VS_CFG_TAP (n : Nat) : Fld := ⟨Reg.VIS_VS_CFG n, 29, 1⟩
def F.VIS_VS_CFG_CH (n : Nat) : Fld := ⟨Reg.VIS_VS_CFG n, 28, 1⟩
def F.VIS_VS_CFG_SRC (n : Nat) : Fld := ⟨Reg.VIS_VS_CFG n, 24, 2⟩
def F.VIS_VS_CROP_X_X0 (n : Nat) : Fld := ⟨Reg.VIS_VS_CROP_X n, 16, 16⟩
def F.VIS_VS_CROP_X_W (n : Nat) : Fld := ⟨Reg.VIS_VS_CROP_X n, 0, 16⟩
def F.VIS_VS_CROP_Y_Y0 (n : Nat) : Fld := ⟨Reg.VIS_VS_CROP_Y n, 16, 16⟩
def F.VIS_VS_CROP_Y_H (n : Nat) : Fld := ⟨Reg.VIS_VS_CROP_Y n, 0, 16⟩
def F.VIS_VS_STEP_V (n : Nat) : Fld := ⟨Reg.VIS_VS_STEP n, 16, 16⟩
def F.VIS_VS_STEP_H (n : Nat) : Fld := ⟨Reg.VIS_VS_STEP n, 0, 16⟩
def F.VIS_VS_STATUS_DROP (n : Nat) : Fld := ⟨Reg.VIS_VS_STATUS n, 16, 16⟩
def F.VIS_VS_STATUS_FRAMES (n : Nat) : Fld := ⟨Reg.VIS_VS_STATUS n, 0, 16⟩
def F.VIS_VS_OUT_OH (n : Nat) : Fld := ⟨Reg.VIS_VS_OUT n, 16, 16⟩
def F.VIS_VS_OUT_OW (n : Nat) : Fld := ⟨Reg.VIS_VS_OUT n, 0, 16⟩
def F.DEN_CFG_EN : Fld := ⟨Reg.DEN_CFG, 31, 1⟩
def F.DEN_CFG_INSERT : Fld := ⟨Reg.DEN_CFG, 30, 1⟩
def F.DEN_CFG_PORT : Fld := ⟨Reg.DEN_CFG, 26, 2⟩
def F.DEN_CFG_TRIG_CMP : Fld := ⟨Reg.DEN_CFG, 16, 5⟩
def F.DEN_CFG_TRIG_EN : Fld := ⟨Reg.DEN_CFG, 15, 1⟩
def F.DEN_CFG_BARS : Fld := ⟨Reg.DEN_CFG, 0, 12⟩
def F.DEN_DIST_MM : Fld := ⟨Reg.DEN_DIST, 0, 32⟩
def F.DEN_BAND_H : Fld := ⟨Reg.DEN_BAND, 16, 8⟩
def F.DEN_BAND_SKIP : Fld := ⟨Reg.DEN_BAND, 8, 8⟩
def F.DEN_BAND_MINL : Fld := ⟨Reg.DEN_BAND, 0, 8⟩
def F.DEN_MARGIN_NM : Fld := ⟨Reg.DEN_MARGIN, 0, 32⟩
def F.DEN_CAM_OFS_NM : Fld := ⟨Reg.DEN_CAM_OFS, 0, 32⟩
def F.DEN_TRIG_PRE_NM : Fld := ⟨Reg.DEN_TRIG_PRE, 0, 32⟩
def F.DEN_LEAD_NM : Fld := ⟨Reg.DEN_LEAD, 0, 32⟩
def F.DEN_MAP_SCALE_SCALE : Fld := ⟨Reg.DEN_MAP_SCALE, 0, 32⟩
def F.DEN_MAP_OFS_OFS : Fld := ⟨Reg.DEN_MAP_OFS, 0, 32⟩
def F.DEN_CTL_CNT_CLR : Fld := ⟨Reg.DEN_CTL, 1, 1⟩
def F.DEN_CTL_BAND_NOW : Fld := ⟨Reg.DEN_CTL, 0, 1⟩
def F.DEN_STATUS_STATE : Fld := ⟨Reg.DEN_STATUS, 30, 2⟩
def F.DEN_STATUS_BAR : Fld := ⟨Reg.DEN_STATUS, 24, 4⟩
def F.DEN_STATUS_REQ : Fld := ⟨Reg.DEN_STATUS, 12, 12⟩
def F.DEN_STATUS_ROT : Fld := ⟨Reg.DEN_STATUS, 0, 4⟩
def F.DEN_LAST_LO_Y0 : Fld := ⟨Reg.DEN_LAST_LO, 0, 32⟩
def F.DEN_LAST_HI_Y0 : Fld := ⟨Reg.DEN_LAST_HI, 0, 16⟩
def F.DEN_BAR_CFG_UPDATE (n : Nat) : Fld := ⟨Reg.DEN_BAR_CFG n, 31, 1⟩
def F.DEN_BAR_CFG_TONE (n : Nat) : Fld := ⟨Reg.DEN_BAR_CFG n, 30, 1⟩
def F.DEN_BAR_CFG_COMP (n : Nat) : Fld := ⟨Reg.DEN_BAR_CFG n, 28, 2⟩
def F.DEN_BAR_CFG_DSTEP (n : Nat) : Fld := ⟨Reg.DEN_BAR_CFG n, 16, 8⟩
def F.DEN_BAR_CFG_GMAX (n : Nat) : Fld := ⟨Reg.DEN_BAR_CFG n, 8, 8⟩
def F.DEN_BAR_CFG_GMIN (n : Nat) : Fld := ⟨Reg.DEN_BAR_CFG n, 0, 8⟩
def F.DEN_BAR_LEVELS_LVL2 (n : Nat) : Fld := ⟨Reg.DEN_BAR_LEVELS n, 16, 8⟩
def F.DEN_BAR_LEVELS_LVL1 (n : Nat) : Fld := ⟨Reg.DEN_BAR_LEVELS n, 8, 8⟩
def F.DEN_BAR_LEVELS_LVL0 (n : Nat) : Fld := ⟨Reg.DEN_BAR_LEVELS n, 0, 8⟩
def F.DEN_BAR_WEIGHT_W2 (n : Nat) : Fld := ⟨Reg.DEN_BAR_WEIGHT n, 8, 4⟩
def F.DEN_BAR_WEIGHT_W1 (n : Nat) : Fld := ⟨Reg.DEN_BAR_WEIGHT n, 4, 4⟩
def F.DEN_BAR_WEIGHT_W0 (n : Nat) : Fld := ⟨Reg.DEN_BAR_WEIGHT n, 0, 4⟩
def F.DEN_BAR_TGT01_TGT1 (n : Nat) : Fld := ⟨Reg.DEN_BAR_TGT01 n, 16, 16⟩
def F.DEN_BAR_TGT01_TGT0 (n : Nat) : Fld := ⟨Reg.DEN_BAR_TGT01 n, 0, 16⟩
def F.DEN_BAR_TGT2_TGT2 (n : Nat) : Fld := ⟨Reg.DEN_BAR_TGT2 n, 0, 16⟩
def F.DEN_BAR_TONE_TGAIN (n : Nat) : Fld := ⟨Reg.DEN_BAR_TONE n, 16, 10⟩
def F.DEN_BAR_TONE_TSTEP (n : Nat) : Fld := ⟨Reg.DEN_BAR_TONE n, 8, 8⟩
def F.DEN_BAR_TLIM_TMAX (n : Nat) : Fld := ⟨Reg.DEN_BAR_TLIM n, 16, 10⟩
def F.DEN_BAR_TLIM_TMIN (n : Nat) : Fld := ⟨Reg.DEN_BAR_TLIM n, 0, 10⟩
def F.DEN_BAR_CTL_RESUME (n : Nat) : Fld := ⟨Reg.DEN_BAR_CTL n, 1, 1⟩
def F.DEN_BAR_CTL_RESTORE (n : Nat) : Fld := ⟨Reg.DEN_BAR_CTL n, 0, 1⟩
def F.DEN_BAR_STATUS_PREV_VALID (n : Nat) : Fld := ⟨Reg.DEN_BAR_STATUS n, 31, 1⟩
def F.DEN_BAR_STATUS_PAUSED (n : Nat) : Fld := ⟨Reg.DEN_BAR_STATUS n, 30, 1⟩
def F.DEN_BAR_STATUS_NOVIEW (n : Nat) : Fld := ⟨Reg.DEN_BAR_STATUS n, 29, 1⟩
def F.DEN_BAR_STATUS_BADWHY (n : Nat) : Fld := ⟨Reg.DEN_BAR_STATUS n, 16, 8⟩
def F.DEN_BAR_STATUS_SKIPWHY (n : Nat) : Fld := ⟨Reg.DEN_BAR_STATUS n, 8, 8⟩
def F.DEN_BAR_MEAN01_MU1 (n : Nat) : Fld := ⟨Reg.DEN_BAR_MEAN01 n, 16, 16⟩
def F.DEN_BAR_MEAN01_MU0 (n : Nat) : Fld := ⟨Reg.DEN_BAR_MEAN01 n, 0, 16⟩
def F.DEN_BAR_MEAN2_MU2 (n : Nat) : Fld := ⟨Reg.DEN_BAR_MEAN2 n, 0, 16⟩
def F.DEN_BAR_RESULT_MAXD (n : Nat) : Fld := ⟨Reg.DEN_BAR_RESULT n, 24, 8⟩
def F.DEN_BAR_RESULT_MEAND (n : Nat) : Fld := ⟨Reg.DEN_BAR_RESULT n, 16, 8⟩
def F.DEN_BAR_RESULT_CLAMPED (n : Nat) : Fld := ⟨Reg.DEN_BAR_RESULT n, 0, 16⟩
def F.DEN_BAR_TOFS_PREV_OFS (n : Nat) : Fld := ⟨Reg.DEN_BAR_TOFS_PREV n, 0, 10⟩
def F.DEN_BAR_COUNT_SKIPS (n : Nat) : Fld := ⟨Reg.DEN_BAR_COUNT n, 16, 16⟩
def F.DEN_BAR_COUNT_UPDATES (n : Nat) : Fld := ⟨Reg.DEN_BAR_COUNT n, 0, 16⟩
def F.DEN_BAR_LASTSET_SEQ (n : Nat) : Fld := ⟨Reg.DEN_BAR_LASTSET n, 0, 16⟩
def F.DEN_BAR_BANDS_BAD (n : Nat) : Fld := ⟨Reg.DEN_BAR_BANDS n, 16, 16⟩
def F.DEN_BAR_BANDS_BANDS (n : Nat) : Fld := ⟨Reg.DEN_BAR_BANDS n, 0, 16⟩
def F.LMP_CFG_EN : Fld := ⟨Reg.LMP_CFG, 31, 1⟩
def F.LMP_CFG_LATCH_CMP : Fld := ⟨Reg.LMP_CFG, 16, 5⟩
def F.LMP_CFG_MODS : Fld := ⟨Reg.LMP_CFG, 0, 16⟩
def F.LMP_BUS_MISS : Fld := ⟨Reg.LMP_BUS, 24, 4⟩
def F.LMP_BUS_RSP_TMO : Fld := ⟨Reg.LMP_BUS, 16, 8⟩
def F.LMP_BUS_POLL : Fld := ⟨Reg.LMP_BUS, 0, 16⟩
def F.LMP_PWM_WDOG : Fld := ⟨Reg.LMP_PWM, 24, 8⟩
def F.LMP_PWM_PERIOD : Fld := ⟨Reg.LMP_PWM, 0, 16⟩
def F.LMP_DIAG_STRETCH_STRETCH : Fld := ⟨Reg.LMP_DIAG_STRETCH, 0, 1⟩
def F.LMP_COV_STEP_NM : Fld := ⟨Reg.LMP_COV_STEP, 0, 32⟩
def F.LMP_COV_BASE_LO_BASE : Fld := ⟨Reg.LMP_COV_BASE_LO, 0, 32⟩
def F.LMP_COV_BASE_HI_BASE : Fld := ⟨Reg.LMP_COV_BASE_HI, 0, 16⟩
def F.LMP_CTL_HOURS_SAVE : Fld := ⟨Reg.LMP_CTL, 2, 1⟩
def F.LMP_CTL_CNT_CLR : Fld := ⟨Reg.LMP_CTL, 1, 1⟩
def F.LMP_CTL_LATCH_NOW : Fld := ⟨Reg.LMP_CTL, 0, 1⟩
def F.LMP_HRC_CFG_EN : Fld := ⟨Reg.LMP_HRC_CFG, 31, 1⟩
def F.LMP_HRC_CFG_POL : Fld := ⟨Reg.LMP_HRC_CFG, 30, 1⟩
def F.LMP_HRC_CFG_KI : Fld := ⟨Reg.LMP_HRC_CFG, 16, 8⟩
def F.LMP_HRC_CFG_STEPMAX : Fld := ⟨Reg.LMP_HRC_CFG, 0, 8⟩
def F.LMP_HRC_LIM_MAX : Fld := ⟨Reg.LMP_HRC_LIM, 16, 12⟩
def F.LMP_HRC_LIM_MIN : Fld := ⟨Reg.LMP_HRC_LIM, 0, 12⟩
def F.LMP_HRC_TGT_LOW : Fld := ⟨Reg.LMP_HRC_TGT, 16, 16⟩
def F.LMP_HRC_TGT_TARGET : Fld := ⟨Reg.LMP_HRC_TGT, 0, 16⟩
def F.LMP_HRC_SAFE_CODE : Fld := ⟨Reg.LMP_HRC_SAFE, 0, 12⟩
def F.LMP_HRC_STATUS_HMIN : Fld := ⟨Reg.LMP_HRC_STATUS, 16, 16⟩
def F.LMP_HRC_STATUS_CODE : Fld := ⟨Reg.LMP_HRC_STATUS, 0, 12⟩
def F.LMP_STATUS_LOST : Fld := ⟨Reg.LMP_STATUS, 16, 16⟩
def F.LMP_STATUS_OK : Fld := ⟨Reg.LMP_STATUS, 0, 16⟩
def F.LMP_LATCH_MERGED : Fld := ⟨Reg.LMP_LATCH, 24, 8⟩
def F.LMP_LATCH_LATE : Fld := ⟨Reg.LMP_LATCH, 16, 8⟩
def F.LMP_LATCH_COUNT : Fld := ⟨Reg.LMP_LATCH, 0, 16⟩
def F.LMP_SEG_SEL_MOD : Fld := ⟨Reg.LMP_SEG_SEL, 0, 4⟩
def F.LMP_PNL_CFG_EN : Fld := ⟨Reg.LMP_PNL_CFG, 31, 1⟩
def F.LMP_PNL_CFG_AUTO : Fld := ⟨Reg.LMP_PNL_CFG, 30, 1⟩
def F.LMP_PNL_CFG_PRE : Fld := ⟨Reg.LMP_PNL_CFG, 0, 8⟩
def F.LMP_PNL_LED_LED (n : Nat) : Fld := ⟨Reg.LMP_PNL_LED n, 0, 32⟩
def F.LMP_MOD_CFG_BAR (n : Nat) : Fld := ⟨Reg.LMP_MOD_CFG n, 24, 4⟩
def F.LMP_MOD_CFG_SEGS (n : Nat) : Fld := ⟨Reg.LMP_MOD_CFG n, 16, 6⟩
def F.LMP_MOD_CFG_ASC (n : Nat) : Fld := ⟨Reg.LMP_MOD_CFG n, 1, 1⟩
def F.LMP_MOD_CFG_DESC (n : Nat) : Fld := ⟨Reg.LMP_MOD_CFG n, 0, 1⟩
def F.LMP_MOD_OFS_NM (n : Nat) : Fld := ⟨Reg.LMP_MOD_OFS n, 0, 32⟩
def F.LMP_MOD_LVL_DMAX (n : Nat) : Fld := ⟨Reg.LMP_MOD_LVL n, 16, 16⟩
def F.LMP_MOD_LVL_DMIN (n : Nat) : Fld := ⟨Reg.LMP_MOD_LVL n, 0, 16⟩
def F.LMP_MOD_CTL_MODE (n : Nat) : Fld := ⟨Reg.LMP_MOD_CTL n, 31, 1⟩
def F.LMP_MOD_CTL_STBY (n : Nat) : Fld := ⟨Reg.LMP_MOD_CTL n, 0, 16⟩
def F.LMP_MOD_FIRST_POS (n : Nat) : Fld := ⟨Reg.LMP_MOD_FIRST n, 0, 17⟩
def F.LMP_MOD_SEGW_POS (n : Nat) : Fld := ⟨Reg.LMP_MOD_SEGW n, 0, 17⟩
def F.LMP_MOD_STATUS_STATE (n : Nat) : Fld := ⟨Reg.LMP_MOD_STATUS n, 30, 2⟩
def F.LMP_MOD_STATUS_LIFE_WARN (n : Nat) : Fld := ⟨Reg.LMP_MOD_STATUS n, 29, 1⟩
def F.LMP_MOD_STATUS_LIFE_END (n : Nat) : Fld := ⟨Reg.LMP_MOD_STATUS n, 28, 1⟩
def F.LMP_MOD_STATUS_FLAGS (n : Nat) : Fld := ⟨Reg.LMP_MOD_STATUS n, 24, 4⟩
def F.LMP_MOD_STATUS_TEMP (n : Nat) : Fld := ⟨Reg.LMP_MOD_STATUS n, 16, 8⟩
def F.LMP_MOD_STATUS_HEADROOM (n : Nat) : Fld := ⟨Reg.LMP_MOD_STATUS n, 0, 16⟩
def F.LMP_MOD_OPEN_SEGS (n : Nat) : Fld := ⟨Reg.LMP_MOD_OPEN n, 0, 32⟩
def F.LMP_MOD_UNVER_SEGS (n : Nat) : Fld := ⟨Reg.LMP_MOD_UNVER n, 0, 32⟩
def F.LMP_MOD_ID_ID (n : Nat) : Fld := ⟨Reg.LMP_MOD_ID n, 0, 32⟩
def F.LMP_MOD_RATED_HOURS (n : Nat) : Fld := ⟨Reg.LMP_MOD_RATED n, 0, 16⟩
def F.LMP_MOD_HOURS_SECONDS (n : Nat) : Fld := ⟨Reg.LMP_MOD_HOURS n, 0, 32⟩
def F.LMP_MOD_ERR_CRC (n : Nat) : Fld := ⟨Reg.LMP_MOD_ERR n, 16, 16⟩
def F.LMP_MOD_ERR_MISS (n : Nat) : Fld := ⟨Reg.LMP_MOD_ERR n, 0, 16⟩
def F.LMP_LEVEL_EN (n m : Nat) : Fld := ⟨Reg.LMP_LEVEL n m, 31, 1⟩
def F.LMP_LEVEL_CUR (n m : Nat) : Fld := ⟨Reg.LMP_LEVEL n m, 16, 8⟩
def F.LMP_LEVEL_DUTY (n m : Nat) : Fld := ⟨Reg.LMP_LEVEL n m, 0, 16⟩
def F.DRC_CFG_SPARE : Fld := ⟨Reg.DRC_CFG, 16, 2⟩
def F.DRC_CFG_DENSITY : Fld := ⟨Reg.DRC_CFG, 8, 4⟩
def F.DRC_CFG_X8 : Fld := ⟨Reg.DRC_CFG, 4, 1⟩
def F.DRC_CFG_RANKS : Fld := ⟨Reg.DRC_CFG, 0, 2⟩
def F.DRC_STATUS_INIT_DONE : Fld := ⟨Reg.DRC_STATUS, 31, 1⟩
def F.DRC_STATUS_RETAINED : Fld := ⟨Reg.DRC_STATUS, 30, 1⟩
def F.DRC_STATUS_STORED : Fld := ⟨Reg.DRC_STATUS, 29, 1⟩
def F.DRC_STATUS_OP1_ONLY : Fld := ⟨Reg.DRC_STATUS, 28, 1⟩
def F.DRC_STATUS_HOT : Fld := ⟨Reg.DRC_STATUS, 16, 8⟩
def F.DRC_STATUS_FC_BUSY : Fld := ⟨Reg.DRC_STATUS, 1, 1⟩
def F.DRC_STATUS_OP : Fld := ⟨Reg.DRC_STATUS, 0, 1⟩
def F.DRC_OP_RESULT : Fld := ⟨Reg.DRC_OP, 30, 2⟩
def F.DRC_OP_REASON : Fld := ⟨Reg.DRC_OP, 16, 8⟩
def F.DRC_OP_TARGET : Fld := ⟨Reg.DRC_OP, 0, 1⟩
def F.DRC_RT_RES : Fld := ⟨Reg.DRC_RT, 0, 16⟩
def F.DRC_CAP_LO_BYTES : Fld := ⟨Reg.DRC_CAP_LO, 0, 32⟩
def F.DRC_CAP_HI_BYTES : Fld := ⟨Reg.DRC_CAP_HI, 0, 3⟩
def F.DRC_REF_POSTPONE : Fld := ⟨Reg.DRC_REF, 0, 4⟩
def F.DRC_TEMP_POLL : Fld := ⟨Reg.DRC_TEMP, 0, 8⟩
def F.DRC_RH_EN : Fld := ⟨Reg.DRC_RH, 16, 1⟩
def F.DRC_RH_THRESH : Fld := ⟨Reg.DRC_RH, 0, 16⟩
def F.DRC_TRACK_LIMIT : Fld := ⟨Reg.DRC_TRACK, 0, 8⟩
def F.DRC_SCRUB_EN : Fld := ⟨Reg.DRC_SCRUB, 31, 1⟩
def F.DRC_SCRUB_HOURS : Fld := ⟨Reg.DRC_SCRUB, 0, 16⟩
def F.DRC_SPARE_CE_LIMIT : Fld := ⟨Reg.DRC_SPARE, 16, 16⟩
def F.DRC_SPARE_UE_LIMIT : Fld := ⟨Reg.DRC_SPARE, 0, 8⟩
def F.DRC_CTL_DI : Fld := ⟨Reg.DRC_CTL, 8, 1⟩
def F.DRC_CTL_UNRETIRE : Fld := ⟨Reg.DRC_CTL, 2, 1⟩
def F.DRC_CTL_RETIRE : Fld := ⟨Reg.DRC_CTL, 1, 1⟩
def F.DRC_CTL_CNT_CLR : Fld := ⟨Reg.DRC_CTL, 0, 1⟩
def F.DRC_ERR_LO_ADDR : Fld := ⟨Reg.DRC_ERR_LO, 0, 32⟩
def F.DRC_ERR_HI_UE : Fld := ⟨Reg.DRC_ERR_HI, 31, 1⟩
def F.DRC_ERR_HI_ADDR : Fld := ⟨Reg.DRC_ERR_HI, 0, 3⟩
def F.DRC_POISON_UNITS : Fld := ⟨Reg.DRC_POISON, 0, 32⟩
def F.DRC_DI_STATE_SPARE (n : Nat) : Fld := ⟨Reg.DRC_DI_STATE n, 30, 2⟩
def F.DRC_DI_STATE_ACTIVE (n : Nat) : Fld := ⟨Reg.DRC_DI_STATE n, 24, 1⟩
def F.DRC_DI_CE_COUNT (n : Nat) : Fld := ⟨Reg.DRC_DI_CE n, 0, 32⟩
def F.DRC_DI_UE_COUNT (n : Nat) : Fld := ⟨Reg.DRC_DI_UE n, 0, 16⟩
def F.DRC_DI_REF_INSERTED (n : Nat) : Fld := ⟨Reg.DRC_DI_REF n, 16, 16⟩
def F.DRC_DI_REF_HOTPAY (n : Nat) : Fld := ⟨Reg.DRC_DI_REF n, 8, 8⟩
def F.DRC_DI_REF_DEBT_MAX (n : Nat) : Fld := ⟨Reg.DRC_DI_REF n, 0, 4⟩
def F.DRC_DI_RHT_COUNT (n : Nat) : Fld := ⟨Reg.DRC_DI_RHT n, 0, 32⟩
def F.DRC_DI_MR4_C1R1 (n : Nat) : Fld := ⟨Reg.DRC_DI_MR4 n, 24, 5⟩
def F.DRC_DI_MR4_C1R0 (n : Nat) : Fld := ⟨Reg.DRC_DI_MR4 n, 16, 5⟩
def F.DRC_DI_MR4_C0R1 (n : Nat) : Fld := ⟨Reg.DRC_DI_MR4 n, 8, 5⟩
def F.DRC_DI_MR4_C0R0 (n : Nat) : Fld := ⟨Reg.DRC_DI_MR4 n, 0, 5⟩
def F.DRC_DI_MIG_M (n : Nat) : Fld := ⟨Reg.DRC_DI_MIG n, 0, 32⟩
def F.DRC_DI_EYE_WRITE (n : Nat) : Fld := ⟨Reg.DRC_DI_EYE n, 16, 16⟩
def F.DRC_DI_EYE_READ (n : Nat) : Fld := ⟨Reg.DRC_DI_EYE n, 0, 16⟩
def F.DRC_DI_DRIFT_PS (n : Nat) : Fld := ⟨Reg.DRC_DI_DRIFT n, 0, 16⟩
def F.DPX_CFG_SETTMO : Fld := ⟨Reg.DPX_CFG, 24, 8⟩
def F.DPX_CFG_SHARE : Fld := ⟨Reg.DPX_CFG, 12, 4⟩
def F.DPX_CFG_CRC_TAKE : Fld := ⟨Reg.DPX_CFG, 5, 1⟩
def F.DPX_CFG_HB_TAKE : Fld := ⟨Reg.DPX_CFG, 4, 1⟩
def F.DPX_CFG_ROLE : Fld := ⟨Reg.DPX_CFG, 0, 2⟩
def F.DPX_CTL_CNT_CLR : Fld := ⟨Reg.DPX_CTL, 1, 1⟩
def F.DPX_CTL_TAKEOVER : Fld := ⟨Reg.DPX_CTL, 0, 1⟩
def F.DPX_STATUS_STATE : Fld := ⟨Reg.DPX_STATUS, 28, 4⟩
def F.DPX_STATUS_MIR_UP : Fld := ⟨Reg.DPX_STATUS, 26, 2⟩
def F.DPX_STATUS_PMODE : Fld := ⟨Reg.DPX_STATUS, 20, 4⟩
def F.DPX_STATUS_GUARDED : Fld := ⟨Reg.DPX_STATUS, 0, 12⟩
def F.DPX_CLAIM_PARTNER : Fld := ⟨Reg.DPX_CLAIM, 16, 16⟩
def F.DPX_CLAIM_SET : Fld := ⟨Reg.DPX_CLAIM, 0, 16⟩
def F.DPX_HB_SEQ : Fld := ⟨Reg.DPX_HB, 16, 16⟩
def F.DPX_HB_MISSED : Fld := ⟨Reg.DPX_HB, 0, 16⟩
def F.DPX_POS_TOL_NM : Fld := ⟨Reg.DPX_POS_TOL, 0, 32⟩
def F.DPX_POS_DIFF_NM : Fld := ⟨Reg.DPX_POS_DIFF, 0, 32⟩
def F.DPX_TAKE_CAUSE : Fld := ⟨Reg.DPX_TAKE, 28, 4⟩
def F.DPX_TAKE_COUNT : Fld := ⟨Reg.DPX_TAKE, 0, 16⟩
def F.DPX_TAKE_WEB_LO_WEB : Fld := ⟨Reg.DPX_TAKE_WEB_LO, 0, 32⟩
def F.DPX_TAKE_WEB_HI_WEB : Fld := ⟨Reg.DPX_TAKE_WEB_HI, 0, 16⟩
def F.DPX_SET_SEQ : Fld := ⟨Reg.DPX_SET, 16, 16⟩
def F.DPX_SET_HELD : Fld := ⟨Reg.DPX_SET, 8, 8⟩
def F.DPX_BAR_MATCH_LINES (n : Nat) : Fld := ⟨Reg.DPX_BAR_MATCH n, 0, 32⟩
def F.DPX_BAR_MISM_CONFIRMED (n : Nat) : Fld := ⟨Reg.DPX_BAR_MISM n, 16, 16⟩
def F.DPX_BAR_MISM_SELF (n : Nat) : Fld := ⟨Reg.DPX_BAR_MISM n, 8, 8⟩
def F.DPX_BAR_MISM_RUN (n : Nat) : Fld := ⟨Reg.DPX_BAR_MISM n, 0, 4⟩
def F.DPX_BAR_LAST_WIRE (n : Nat) : Fld := ⟨Reg.DPX_BAR_LAST n, 0, 32⟩
def F.DPX_BAR_GAP_LINES (n : Nat) : Fld := ⟨Reg.DPX_BAR_GAP n, 0, 16⟩
def F.PTP_CFG_EN : Fld := ⟨Reg.PTP_CFG, 31, 1⟩
def F.PTP_CFG_ROLE : Fld := ⟨Reg.PTP_CFG, 30, 1⟩
def F.PTP_CFG_PORT : Fld := ⟨Reg.PTP_CFG, 29, 1⟩
def F.PTP_CFG_UDP : Fld := ⟨Reg.PTP_CFG, 28, 1⟩
def F.PTP_CFG_P2P : Fld := ⟨Reg.PTP_CFG, 27, 1⟩
def F.PTP_CFG_TWOSTEP : Fld := ⟨Reg.PTP_CFG, 26, 1⟩
def F.PTP_CFG_DOMAIN : Fld := ⟨Reg.PTP_CFG, 16, 7⟩
def F.PTP_CFG_PRIO1 : Fld := ⟨Reg.PTP_CFG, 8, 8⟩
def F.PTP_CFG_PRIO2 : Fld := ⟨Reg.PTP_CFG, 0, 8⟩
def F.PTP_INTV_LOG_SYNC : Fld := ⟨Reg.PTP_INTV, 24, 8⟩
def F.PTP_INTV_LOG_ANN : Fld := ⟨Reg.PTP_INTV, 16, 8⟩
def F.PTP_INTV_LOG_DREQ : Fld := ⟨Reg.PTP_INTV, 8, 8⟩
def F.PTP_INTV_ANN_TMO : Fld := ⟨Reg.PTP_INTV, 0, 8⟩
def F.PTP_SERVO_STEP_CONF : Fld := ⟨Reg.PTP_SERVO, 28, 4⟩
def F.PTP_SERVO_LOCK_NS : Fld := ⟨Reg.PTP_SERVO, 16, 12⟩
def F.PTP_SERVO_KP : Fld := ⟨Reg.PTP_SERVO, 8, 8⟩
def F.PTP_SERVO_KI : Fld := ⟨Reg.PTP_SERVO, 0, 8⟩
def F.PTP_CTL_CNT_CLR : Fld := ⟨Reg.PTP_CTL, 2, 1⟩
def F.PTP_CTL_CAPTURE : Fld := ⟨Reg.PTP_CTL, 1, 1⟩
def F.PTP_CTL_SET_TIME : Fld := ⟨Reg.PTP_CTL, 0, 1⟩
def F.PTP_STATUS_STATE : Fld := ⟨Reg.PTP_STATUS, 28, 4⟩
def F.PTP_STATUS_STEP_PEND : Fld := ⟨Reg.PTP_STATUS, 27, 1⟩
def F.PTP_STATUS_MASTER : Fld := ⟨Reg.PTP_STATUS, 26, 1⟩
def F.PTP_STATUS_PORTSTATE : Fld := ⟨Reg.PTP_STATUS, 16, 4⟩
def F.PTP_STATUS_HOLD_S : Fld := ⟨Reg.PTP_STATUS, 0, 16⟩
def F.PTP_CAP_SEC_LO_SEC : Fld := ⟨Reg.PTP_CAP_SEC_LO, 0, 32⟩
def F.PTP_CAP_SEC_HI_FRAC : Fld := ⟨Reg.PTP_CAP_SEC_HI, 16, 16⟩
def F.PTP_CAP_SEC_HI_SEC : Fld := ⟨Reg.PTP_CAP_SEC_HI, 0, 16⟩
def F.PTP_CAP_NS_NS : Fld := ⟨Reg.PTP_CAP_NS, 0, 32⟩
def F.PTP_SET_SEC_LO_SEC : Fld := ⟨Reg.PTP_SET_SEC_LO, 0, 32⟩
def F.PTP_SET_SEC_HI_FRAC : Fld := ⟨Reg.PTP_SET_SEC_HI, 16, 16⟩
def F.PTP_SET_SEC_HI_SEC : Fld := ⟨Reg.PTP_SET_SEC_HI, 0, 16⟩
def F.PTP_SET_NS_NS : Fld := ⟨Reg.PTP_SET_NS, 0, 32⟩
def F.PTP_OFFSET_NS : Fld := ⟨Reg.PTP_OFFSET, 0, 32⟩
def F.PTP_PATHDLY_NS : Fld := ⟨Reg.PTP_PATHDLY, 0, 32⟩
def F.PTP_RATE_RATE : Fld := ⟨Reg.PTP_RATE, 0, 32⟩
def F.PTP_PEND_LO_NS : Fld := ⟨Reg.PTP_PEND_LO, 0, 32⟩
def F.PTP_PEND_HI_NS : Fld := ⟨Reg.PTP_PEND_HI, 0, 32⟩
def F.PTP_GMID_LO_ID : Fld := ⟨Reg.PTP_GMID_LO, 0, 32⟩
def F.PTP_GMID_HI_ID : Fld := ⟨Reg.PTP_GMID_HI, 0, 32⟩
def F.PTP_RXDROP_COUNT : Fld := ⟨Reg.PTP_RXDROP, 0, 32⟩
def F.PTP_NET_TXADJ_ADJ (n : Nat) : Fld := ⟨Reg.PTP_NET_TXADJ n, 0, 32⟩
def F.PTP_NET_RXADJ_ADJ (n : Nat) : Fld := ⟨Reg.PTP_NET_RXADJ n, 0, 32⟩
def F.PTP_NET_ASYM_ASYM (n : Nat) : Fld := ⟨Reg.PTP_NET_ASYM n, 0, 32⟩
def F.PTP_ACT_SEC_LO_SEC (n : Nat) : Fld := ⟨Reg.PTP_ACT_SEC_LO n, 0, 32⟩
def F.PTP_ACT_SEC_HI_SEC (n : Nat) : Fld := ⟨Reg.PTP_ACT_SEC_HI n, 0, 16⟩
def F.PTP_ACT_NS_NS (n : Nat) : Fld := ⟨Reg.PTP_ACT_NS n, 0, 32⟩
def F.PTP_ACT_CTL_STATE (n : Nat) : Fld := ⟨Reg.PTP_ACT_CTL n, 29, 3⟩
def F.PTP_ACT_CTL_REASON (n : Nat) : Fld := ⟨Reg.PTP_ACT_CTL n, 16, 8⟩
def F.PTP_ACT_CTL_CANCEL (n : Nat) : Fld := ⟨Reg.PTP_ACT_CTL n, 9, 1⟩
def F.PTP_ACT_CTL_ARM (n : Nat) : Fld := ⟨Reg.PTP_ACT_CTL n, 8, 1⟩
def F.PTP_ACT_CTL_TARGET (n : Nat) : Fld := ⟨Reg.PTP_ACT_CTL n, 0, 4⟩
def F.RPC_STATUS_VIO : Fld := ⟨Reg.RPC_STATUS, 20, 3⟩
def F.RPC_STATUS_STEP : Fld := ⟨Reg.RPC_STATUS, 16, 4⟩
def F.RPC_STATUS_RUN : Fld := ⟨Reg.RPC_STATUS, 0, 12⟩
def F.RPC_CAUSE_SRC : Fld := ⟨Reg.RPC_CAUSE, 0, 17⟩
def F.RPC_SWRST_RESULT : Fld := ⟨Reg.RPC_SWRST, 30, 2⟩
def F.RPC_SWRST_REASON : Fld := ⟨Reg.RPC_SWRST, 16, 8⟩
def F.RPC_SWRST_GO : Fld := ⟨Reg.RPC_SWRST, 15, 1⟩
def F.RPC_SWRST_REACH : Fld := ⟨Reg.RPC_SWRST, 12, 2⟩
def F.RPC_SWRST_DOM : Fld := ⟨Reg.RPC_SWRST, 8, 4⟩
def F.RPC_SWRST_BLOCK : Fld := ⟨Reg.RPC_SWRST, 0, 8⟩
def F.RPC_PWR_RESULT : Fld := ⟨Reg.RPC_PWR, 30, 2⟩
def F.RPC_PWR_REASON : Fld := ⟨Reg.RPC_PWR, 16, 8⟩
def F.RPC_PWR_GO : Fld := ⟨Reg.RPC_PWR, 15, 1⟩
def F.RPC_PWR_OFF : Fld := ⟨Reg.RPC_PWR, 8, 1⟩
def F.RPC_PWR_DOM : Fld := ⟨Reg.RPC_PWR, 0, 4⟩
def F.RPC_CLK_LOST : Fld := ⟨Reg.RPC_CLK, 16, 12⟩
def F.RPC_CLK_GOOD : Fld := ⟨Reg.RPC_CLK, 0, 12⟩
def F.RPC_CRIT_ERRORS : Fld := ⟨Reg.RPC_CRIT, 16, 16⟩
def F.RPC_CRIT_LAST : Fld := ⟨Reg.RPC_CRIT, 8, 4⟩
def F.RPC_CRIT_SCHED : Fld := ⟨Reg.RPC_CRIT, 6, 2⟩
def F.RPC_CRIT_CLAIM : Fld := ⟨Reg.RPC_CRIT, 4, 2⟩
def F.RPC_CRIT_LINE : Fld := ⟨Reg.RPC_CRIT, 2, 2⟩
def F.RPC_CRIT_CFG : Fld := ⟨Reg.RPC_CRIT, 0, 2⟩
def F.RPC_WDOG_BITES : Fld := ⟨Reg.RPC_WDOG, 16, 16⟩
def F.RPC_WDOG_MS : Fld := ⟨Reg.RPC_WDOG, 0, 16⟩
def F.RPC_BOOT_FAIL_STEP : Fld := ⟨Reg.RPC_BOOT, 28, 4⟩
def F.RPC_BOOT_FAIL_CODE : Fld := ⟨Reg.RPC_BOOT, 20, 8⟩
def F.RPC_BOOT_COUNT : Fld := ⟨Reg.RPC_BOOT, 16, 4⟩
def F.RPC_BOOT_IMAGE : Fld := ⟨Reg.RPC_BOOT, 15, 1⟩
def F.RPC_BOOT_SIGNED : Fld := ⟨Reg.RPC_BOOT, 14, 1⟩
def F.RPC_BOOT_X4 : Fld := ⟨Reg.RPC_BOOT, 13, 1⟩
def F.RPC_BOOT_SKIPPED : Fld := ⟨Reg.RPC_BOOT, 0, 12⟩
def F.RPC_IMAGE_SEQ : Fld := ⟨Reg.RPC_IMAGE, 0, 32⟩
def F.RPC_FUSE_KEYSET : Fld := ⟨Reg.RPC_FUSE, 1, 1⟩
def F.RPC_FUSE_SECURE : Fld := ⟨Reg.RPC_FUSE, 0, 1⟩
def F.RPC_BOOTCNT_BOOTS : Fld := ⟨Reg.RPC_BOOTCNT, 0, 32⟩
def F.RPC_SPI_CTL_RESULT : Fld := ⟨Reg.RPC_SPI_CTL, 30, 2⟩
def F.RPC_SPI_CTL_REASON : Fld := ⟨Reg.RPC_SPI_CTL, 16, 8⟩
def F.RPC_SPI_CTL_GO : Fld := ⟨Reg.RPC_SPI_CTL, 15, 1⟩
def F.RPC_SPI_CTL_X4 : Fld := ⟨Reg.RPC_SPI_CTL, 14, 1⟩
def F.RPC_SPI_CTL_READ : Fld := ⟨Reg.RPC_SPI_CTL, 13, 1⟩
def F.RPC_SPI_CTL_LEN : Fld := ⟨Reg.RPC_SPI_CTL, 0, 9⟩
def F.RPC_SPI_ADDR_OPCODE : Fld := ⟨Reg.RPC_SPI_ADDR, 24, 8⟩
def F.RPC_SPI_ADDR_ADDR : Fld := ⟨Reg.RPC_SPI_ADDR, 0, 24⟩
def F.RPC_DOM_STATUS_STATE (n : Nat) : Fld := ⟨Reg.RPC_DOM_STATUS n, 29, 3⟩
def F.RPC_DOM_STATUS_SRC (n : Nat) : Fld := ⟨Reg.RPC_DOM_STATUS n, 0, 17⟩
def F.RPC_SPI_BUF_DATA (n : Nat) : Fld := ⟨Reg.RPC_SPI_BUF n, 0, 32⟩
def F.THM_STATUS_FAST : Fld := ⟨Reg.THM_STATUS, 31, 1⟩
def F.THM_STATUS_WARN : Fld := ⟨Reg.THM_STATUS, 30, 1⟩
def F.THM_STATUS_THROT : Fld := ⟨Reg.THM_STATUS, 29, 1⟩
def F.THM_STATUS_STOP : Fld := ⟨Reg.THM_STATUS, 28, 1⟩
def F.THM_STATUS_HOT : Fld := ⟨Reg.THM_STATUS, 16, 4⟩
def F.THM_STATUS_TMAX : Fld := ⟨Reg.THM_STATUS, 0, 16⟩
def F.THM_LIMITS_TTRIP : Fld := ⟨Reg.THM_LIMITS, 24, 8⟩
def F.THM_LIMITS_TSTOP : Fld := ⟨Reg.THM_LIMITS, 16, 8⟩
def F.THM_LIMITS_TTHROT : Fld := ⟨Reg.THM_LIMITS, 8, 8⟩
def F.THM_LIMITS_TWARN : Fld := ⟨Reg.THM_LIMITS, 0, 8⟩
def F.THM_EXCL_EXCL : Fld := ⟨Reg.THM_EXCL, 0, 16⟩
def F.THM_BROKEN_BROKEN : Fld := ⟨Reg.THM_BROKEN, 0, 16⟩
def F.THM_CTL_PEAK_CLR : Fld := ⟨Reg.THM_CTL, 1, 1⟩
def F.THM_CTL_SAMPLE : Fld := ⟨Reg.THM_CTL, 0, 1⟩
def F.THM_PEAK_SENSOR : Fld := ⟨Reg.THM_PEAK, 16, 4⟩
def F.THM_PEAK_TEMP : Fld := ⟨Reg.THM_PEAK, 0, 16⟩
def F.THM_RATE_RATE : Fld := ⟨Reg.THM_RATE, 0, 16⟩
def F.THM_TRIPS_TRIPS : Fld := ⟨Reg.THM_TRIPS, 16, 16⟩
def F.THM_TRIPS_STOPS : Fld := ⟨Reg.THM_TRIPS, 0, 16⟩
def F.THM_LAST_TRIP_REASON : Fld := ⟨Reg.THM_LAST_TRIP, 28, 4⟩
def F.THM_LAST_TRIP_SENSOR : Fld := ⟨Reg.THM_LAST_TRIP, 24, 4⟩
def F.THM_LAST_TRIP_TEMP : Fld := ⟨Reg.THM_LAST_TRIP, 0, 16⟩
def F.THM_HEAD_VALID : Fld := ⟨Reg.THM_HEAD, 31, 1⟩
def F.THM_HEAD_EP : Fld := ⟨Reg.THM_HEAD, 16, 10⟩
def F.THM_HEAD_TEMP : Fld := ⟨Reg.THM_HEAD, 0, 8⟩
def F.THM_HEAD_WARN_TEMP : Fld := ⟨Reg.THM_HEAD_WARN, 0, 8⟩
def F.THM_TS_TEMP_BROKEN (n : Nat) : Fld := ⟨Reg.THM_TS_TEMP n, 31, 1⟩
def F.THM_TS_TEMP_EXCL (n : Nat) : Fld := ⟨Reg.THM_TS_TEMP n, 30, 1⟩
def F.THM_TS_TEMP_TEMP (n : Nat) : Fld := ⟨Reg.THM_TS_TEMP n, 0, 16⟩
def F.THM_TS_COUNT_COUNT (n : Nat) : Fld := ⟨Reg.THM_TS_COUNT n, 0, 16⟩
def F.THM_TS_TRIM_C110 (n : Nat) : Fld := ⟨Reg.THM_TS_TRIM n, 16, 16⟩
def F.THM_TS_TRIM_C30 (n : Nat) : Fld := ⟨Reg.THM_TS_TRIM n, 0, 16⟩
def F.DBG_FREEZE_KEY : Fld := ⟨Reg.DBG_FREEZE, 16, 16⟩
def F.DBG_FREEZE_GO : Fld := ⟨Reg.DBG_FREEZE, 0, 1⟩
def F.DBG_FREEZE_RAW_RAW : Fld := ⟨Reg.DBG_FREEZE_RAW, 0, 1⟩
def F.DBG_STATUS_BADKEY : Fld := ⟨Reg.DBG_STATUS, 0, 16⟩
def F.CRC_STATUS_MISM : Fld := ⟨Reg.CRC_STATUS, 8, 8⟩
def F.CRC_STATUS_RUN : Fld := ⟨Reg.CRC_STATUS, 0, 8⟩
def F.CRC_U_CFG_IRQ (n : Nat) : Fld := ⟨Reg.CRC_U_CFG n, 30, 2⟩
def F.CRC_U_CFG_VEC (n : Nat) : Fld := ⟨Reg.CRC_U_CFG n, 24, 6⟩
def F.CRC_U_CFG_SRC (n : Nat) : Fld := ⟨Reg.CRC_U_CFG n, 16, 2⟩
def F.CRC_U_CFG_CMP_EN (n : Nat) : Fld := ⟨Reg.CRC_U_CFG n, 10, 1⟩
def F.CRC_U_CFG_REFOUT (n : Nat) : Fld := ⟨Reg.CRC_U_CFG n, 9, 1⟩
def F.CRC_U_CFG_REFIN (n : Nat) : Fld := ⟨Reg.CRC_U_CFG n, 8, 1⟩
def F.CRC_U_CFG_WIDTH (n : Nat) : Fld := ⟨Reg.CRC_U_CFG n, 0, 6⟩
def F.CRC_U_CTL_ABORT (n : Nat) : Fld := ⟨Reg.CRC_U_CTL n, 3, 1⟩
def F.CRC_U_CTL_FINISH (n : Nat) : Fld := ⟨Reg.CRC_U_CTL n, 2, 1⟩
def F.CRC_U_CTL_RESUME (n : Nat) : Fld := ⟨Reg.CRC_U_CTL n, 1, 1⟩
def F.CRC_U_CTL_GO (n : Nat) : Fld := ⟨Reg.CRC_U_CTL n, 0, 1⟩
def F.CRC_U_STATUS_RUN (n : Nat) : Fld := ⟨Reg.CRC_U_STATUS n, 31, 1⟩
def F.CRC_U_STATUS_DONE (n : Nat) : Fld := ⟨Reg.CRC_U_STATUS n, 30, 1⟩
def F.CRC_U_STATUS_MATCH (n : Nat) : Fld := ⟨Reg.CRC_U_STATUS n, 29, 1⟩
def F.CRC_U_STATUS_MISMATCH (n : Nat) : Fld := ⟨Reg.CRC_U_STATUS n, 28, 1⟩
def F.CRC_U_STATUS_ABORTED (n : Nat) : Fld := ⟨Reg.CRC_U_STATUS n, 27, 1⟩
def F.CRC_U_STATUS_ERR (n : Nat) : Fld := ⟨Reg.CRC_U_STATUS n, 24, 3⟩
def F.CRC_U_STATUS_POISON (n : Nat) : Fld := ⟨Reg.CRC_U_STATUS n, 3, 1⟩
def F.CRC_U_STATUS_DROP (n : Nat) : Fld := ⟨Reg.CRC_U_STATUS n, 2, 1⟩
def F.CRC_U_STATUS_WERR (n : Nat) : Fld := ⟨Reg.CRC_U_STATUS n, 1, 1⟩
def F.CRC_U_LEN_BYTES (n : Nat) : Fld := ⟨Reg.CRC_U_LEN n, 0, 32⟩
def F.CRC_U_POLY_LO_POLY (n : Nat) : Fld := ⟨Reg.CRC_U_POLY_LO n, 0, 32⟩
def F.CRC_U_POLY_HI_POLY (n : Nat) : Fld := ⟨Reg.CRC_U_POLY_HI n, 0, 32⟩
def F.CRC_U_INIT_LO_INIT (n : Nat) : Fld := ⟨Reg.CRC_U_INIT_LO n, 0, 32⟩
def F.CRC_U_INIT_HI_INIT (n : Nat) : Fld := ⟨Reg.CRC_U_INIT_HI n, 0, 32⟩
def F.CRC_U_XOROUT_LO_XOROUT (n : Nat) : Fld := ⟨Reg.CRC_U_XOROUT_LO n, 0, 32⟩
def F.CRC_U_XOROUT_HI_XOROUT (n : Nat) : Fld := ⟨Reg.CRC_U_XOROUT_HI n, 0, 32⟩
def F.CRC_U_EXPECT_LO_EXPECT (n : Nat) : Fld := ⟨Reg.CRC_U_EXPECT_LO n, 0, 32⟩
def F.CRC_U_EXPECT_HI_EXPECT (n : Nat) : Fld := ⟨Reg.CRC_U_EXPECT_HI n, 0, 32⟩
def F.CRC_U_VALUE_LO_VALUE (n : Nat) : Fld := ⟨Reg.CRC_U_VALUE_LO n, 0, 32⟩
def F.CRC_U_VALUE_HI_VALUE (n : Nat) : Fld := ⟨Reg.CRC_U_VALUE_HI n, 0, 32⟩
def F.CRC_U_DATA_DATA (n : Nat) : Fld := ⟨Reg.CRC_U_DATA n, 0, 32⟩
def F.CRC_U_DATA_B_DATA (n : Nat) : Fld := ⟨Reg.CRC_U_DATA_B n, 0, 8⟩
def F.CRC_U_ADDR_LO_ADDR (n : Nat) : Fld := ⟨Reg.CRC_U_ADDR_LO n, 0, 32⟩
def F.CRC_U_ADDR_HI_ADDR (n : Nat) : Fld := ⟨Reg.CRC_U_ADDR_HI n, 0, 3⟩
def F.CRC_U_RESULT_LO_RESULT (n : Nat) : Fld := ⟨Reg.CRC_U_RESULT_LO n, 0, 32⟩
def F.CRC_U_RESULT_HI_RESULT (n : Nat) : Fld := ⟨Reg.CRC_U_RESULT_HI n, 0, 32⟩
def F.CRC_U_COUNT_BYTES (n : Nat) : Fld := ⟨Reg.CRC_U_COUNT n, 0, 32⟩
def F.PRS_STATUS_BUSY : Fld := ⟨Reg.PRS_STATUS, 31, 1⟩
def F.PRS_STATUS_WORN : Fld := ⟨Reg.PRS_STATUS, 30, 1⟩
def F.PRS_STATUS_SPARES : Fld := ⟨Reg.PRS_STATUS, 16, 7⟩
def F.PRS_ERR_KIND : Fld := ⟨Reg.PRS_ERR, 30, 2⟩
def F.PRS_ERR_WORD : Fld := ⟨Reg.PRS_ERR, 0, 13⟩
def F.PRS_CNT_CE : Fld := ⟨Reg.PRS_CNT, 16, 16⟩
def F.PRS_CNT_UE : Fld := ⟨Reg.PRS_CNT, 0, 16⟩
def F.PRS_CTL_CNT_CLR : Fld := ⟨Reg.PRS_CTL, 0, 1⟩
def F.PRS_MAXWEAR_WEAR : Fld := ⟨Reg.PRS_MAXWEAR, 13, 19⟩
def F.PRS_MAXWEAR_WORD : Fld := ⟨Reg.PRS_MAXWEAR, 0, 13⟩
def F.PRS_WORD_DATA (n : Nat) : Fld := ⟨Reg.PRS_WORD n, 0, 32⟩
def F.PRS_WEAR_REMAPPED (n : Nat) : Fld := ⟨Reg.PRS_WEAR n, 31, 1⟩
def F.PRS_WEAR_WRITES (n : Nat) : Fld := ⟨Reg.PRS_WEAR n, 0, 24⟩
def F.SYS_SNAP_SEQ : Fld := ⟨Reg.SYS_SNAP, 16, 16⟩
def F.SYS_SNAP_PEND : Fld := ⟨Reg.SYS_SNAP, 15, 1⟩
def F.SYS_SNAP_BAR : Fld := ⟨Reg.SYS_SNAP, 8, 4⟩
def F.SYS_SNAP_TAKE : Fld := ⟨Reg.SYS_SNAP, 0, 1⟩
def F.SYS_SNAP_AUTO_PERIOD : Fld := ⟨Reg.SYS_SNAP_AUTO, 0, 16⟩
def F.SYS_EVT_BASE_LO_ADDR : Fld := ⟨Reg.SYS_EVT_BASE_LO, 0, 32⟩
def F.SYS_EVT_BASE_HI_ADDR : Fld := ⟨Reg.SYS_EVT_BASE_HI, 0, 32⟩
def F.SYS_EVT_SIZE_ENTRIES : Fld := ⟨Reg.SYS_EVT_SIZE, 0, 17⟩
def F.SYS_EVT_HEAD_INDEX : Fld := ⟨Reg.SYS_EVT_HEAD, 0, 16⟩
def F.SYS_EVT_TAIL_INDEX : Fld := ⟨Reg.SYS_EVT_TAIL, 0, 16⟩
def F.SYS_EVT_CFG_EN : Fld := ⟨Reg.SYS_EVT_CFG, 31, 1⟩
def F.SYS_EVT_CFG_LOC : Fld := ⟨Reg.SYS_EVT_CFG, 30, 1⟩
def F.SYS_EVT_CFG_VEC : Fld := ⟨Reg.SYS_EVT_CFG, 24, 6⟩
def F.SYS_EVT_CFG_MOD : Fld := ⟨Reg.SYS_EVT_CFG, 0, 16⟩
def F.SYS_EVT_LOST_QUEUED : Fld := ⟨Reg.SYS_EVT_LOST, 16, 7⟩
def F.SYS_EVT_LOST_LOST : Fld := ⟨Reg.SYS_EVT_LOST, 0, 16⟩
def F.HST_STATUS_SPEED : Fld := ⟨Reg.HST_STATUS, 24, 4⟩
def F.HST_STATUS_WIDTH : Fld := ⟨Reg.HST_STATUS, 16, 4⟩
def F.HST_STATUS_L0 : Fld := ⟨Reg.HST_STATUS, 7, 1⟩
def F.HST_STATUS_MSIX : Fld := ⟨Reg.HST_STATUS, 6, 1⟩
def F.HST_STATUS_BME : Fld := ⟨Reg.HST_STATUS, 5, 1⟩
def F.HST_STATUS_D3 : Fld := ⟨Reg.HST_STATUS, 4, 1⟩
def F.HST_WIN_BASE_LO_ADDR : Fld := ⟨Reg.HST_WIN_BASE_LO, 20, 12⟩
def F.HST_WIN_BASE_HI_ADDR : Fld := ⟨Reg.HST_WIN_BASE_HI, 0, 3⟩
def F.HST_INT_PEND_LO_VEC : Fld := ⟨Reg.HST_INT_PEND_LO, 0, 32⟩
def F.HST_INT_PEND_HI_VEC : Fld := ⟨Reg.HST_INT_PEND_HI, 0, 32⟩
def F.HST_INT_EN_LO_VEC : Fld := ⟨Reg.HST_INT_EN_LO, 0, 32⟩
def F.HST_INT_EN_HI_VEC : Fld := ⟨Reg.HST_INT_EN_HI, 0, 32⟩
def F.HST_RT_CFG_EN : Fld := ⟨Reg.HST_RT_CFG, 31, 1⟩
def F.HST_RT_CFG_UDP : Fld := ⟨Reg.HST_RT_CFG, 0, 16⟩
def F.HST_RT_NOTIFY_LO_VEC : Fld := ⟨Reg.HST_RT_NOTIFY_LO, 0, 32⟩
def F.HST_RT_NOTIFY_HI_VEC : Fld := ⟨Reg.HST_RT_NOTIFY_HI, 0, 32⟩
def F.HST_RT_STAT_DROP : Fld := ⟨Reg.HST_RT_STAT, 16, 16⟩
def F.HST_RT_STAT_DUP : Fld := ⟨Reg.HST_RT_STAT, 0, 16⟩
def F.HST_ERR_RANGE : Fld := ⟨Reg.HST_ERR, 16, 16⟩
def F.HST_EGR_BASE_LO_ADDR (n : Nat) : Fld := ⟨Reg.HST_EGR_BASE_LO n, 0, 32⟩
def F.HST_EGR_BASE_HI_ADDR (n : Nat) : Fld := ⟨Reg.HST_EGR_BASE_HI n, 0, 32⟩
def F.HST_EGR_SIZE_ENTRIES (n : Nat) : Fld := ⟨Reg.HST_EGR_SIZE n, 0, 16⟩
def F.HST_EGR_HEAD_INDEX (n : Nat) : Fld := ⟨Reg.HST_EGR_HEAD n, 0, 16⟩
def F.HST_EGR_TAIL_INDEX (n : Nat) : Fld := ⟨Reg.HST_EGR_TAIL n, 0, 16⟩
def F.HST_EGR_CTL_EN (n : Nat) : Fld := ⟨Reg.HST_EGR_CTL n, 31, 1⟩
def F.HST_EGR_CTL_VEC (n : Nat) : Fld := ⟨Reg.HST_EGR_CTL n, 16, 6⟩
def F.HST_EGR_STATUS_RUN (n : Nat) : Fld := ⟨Reg.HST_EGR_STATUS n, 31, 1⟩
def F.HST_EGR_STATUS_STOPPED (n : Nat) : Fld := ⟨Reg.HST_EGR_STATUS n, 30, 1⟩
def F.HST_EGR_STATUS_ERR (n : Nat) : Fld := ⟨Reg.HST_EGR_STATUS n, 0, 8⟩
def F.HST_EGR_DROP_RECORDS (n : Nat) : Fld := ⟨Reg.HST_EGR_DROP n, 0, 32⟩
def F.NET_P_MAC_LO_MAC (n : Nat) : Fld := ⟨Reg.NET_P_MAC_LO n, 0, 32⟩
def F.NET_P_MAC_HI_MAC (n : Nat) : Fld := ⟨Reg.NET_P_MAC_HI n, 0, 16⟩
def F.NET_P_IP_IP (n : Nat) : Fld := ⟨Reg.NET_P_IP n, 0, 32⟩
def F.NET_P_STATUS_UP (n : Nat) : Fld := ⟨Reg.NET_P_STATUS n, 0, 1⟩
def F.VIS_TAB_WORD (n m : Nat) : Fld := ⟨Reg.VIS_TAB n m, 0, 32⟩
def F.HST_MSIX_ADDR_LO_W (n : Nat) : Fld := ⟨Reg.HST_MSIX_ADDR_LO n, 0, 32⟩
def F.HST_MSIX_ADDR_HI_W (n : Nat) : Fld := ⟨Reg.HST_MSIX_ADDR_HI n, 0, 32⟩
def F.HST_MSIX_DATA_W (n : Nat) : Fld := ⟨Reg.HST_MSIX_DATA n, 0, 32⟩
def F.HST_MSIX_CTRL_MASK (n : Nat) : Fld := ⟨Reg.HST_MSIX_CTRL n, 0, 1⟩
def F.HST_PBA_PEND (n : Nat) : Fld := ⟨Reg.HST_PBA n, 0, 32⟩

/-! ### Rows, block by block -/
/-- SYS block registers. -/
def sysDefs : List RegDef :=
  [⟨0x0, 1, 4, 1, 4, 0x0, 0x0, 0x0, 0xFFFFFF00, 0x0, fun _ _ => 0x1280B000⟩,
   ⟨0x10, 1, 4, 1, 4, 0x0, 0x0, 0x0, 0xE0FF0F0F, 0x0, fun _ _ => 0x1⟩,
   ⟨0x14, 1, 4, 1, 4, 0xF, 0x0, 0x0, 0x0, 0x0, fun _ _ => 0x0⟩,
   ⟨0x20, 1, 4, 1, 4, 0x3, 0x0, 0x0, 0x0, 0x0, fun _ _ => 0x0⟩,
   ⟨0x24, 1, 4, 1, 4, 0xFFFFFFFF, 0x0, 0x0, 0x0, 0x0, fun _ _ => 0x0⟩,
   ⟨0x28, 1, 4, 1, 4, 0xFFFF, 0x0, 0x0, 0x0, 0x0, fun _ _ => 0x0⟩,
   ⟨0x2C, 1, 4, 1, 4, 0x0, 0x0, 0x0, 0x0, 0x0, fun _ _ => 0x0⟩,
   ⟨0x30, 1, 4, 1, 4, 0xF00, 0x0, 0x0, 0x0, 0x0, fun _ _ => 0x0⟩,
   ⟨0x34, 1, 4, 1, 4, 0xFFFF, 0x0, 0x0, 0x0, 0x0, fun _ _ => 0xA⟩,
   ⟨0x40, 1, 4, 1, 4, 0xFFFFFFFF, 0x0, 0x0, 0x0, 0x0, fun _ _ => 0x0⟩,
   ⟨0x44, 1, 4, 1, 4, 0xFFFFFFFF, 0x0, 0x0, 0x0, 0x0, fun _ _ => 0x0⟩,
   ⟨0x48, 1, 4, 1, 4, 0x1FFFF, 0x0, 0x0, 0x0, 0x0, fun _ _ => 0x100⟩,
   ⟨0x4C, 1, 4, 1, 4, 0x0, 0x0, 0x0, 0x0, 0x0, fun _ _ => 0x0⟩,
   ⟨0x50, 1, 4, 1, 4, 0xFFFF, 0x0, 0x0, 0x0, 0x0, fun _ _ => 0x0⟩,
   ⟨0x54, 1, 4, 1, 4, 0xFF00FFFF, 0x0, 0x0, 0x0, 0x0, fun _ _ => 0x14⟩,
   ⟨0x58, 1, 4, 1, 4, 0x0, 0x0, 0x0, 0x0, 0x0, fun _ _ => 0x0⟩]
/-- RPC block registers. -/
def rpcDefs : List RegDef :=
  [⟨0x100000, 1, 4, 1, 4, 0x0, 0x0, 0x0, 0x0, 0x0, fun _ _ => 0x700001⟩,
   ⟨0x100004, 1, 4, 1, 4, 0x0, 0x0, 0x1FFFF, 0x0, 0x0, fun _ _ => 0x0⟩,
   ⟨0x100008, 1, 4, 1, 4, 0x3FFF, 0x0, 0x0, 0x0, 0x0, fun _ _ => 0x0⟩,
   ⟨0x10000C, 1, 4, 1, 4, 0x10F, 0x0, 0x0, 0x0, 0x0, fun _ _ => 0x0⟩,
   ⟨0x100010, 1, 4, 1, 4, 0x0, 0x0, 0xFFF0000, 0x0, 0x0, fun _ _ => 0x1⟩,
   ⟨0x100014, 1, 4, 1, 4, 0xFF, 0x0, 0x0, 0x0, 0x0, fun _ _ => 0x0⟩,
   ⟨0x100018, 1, 4, 1, 4, 0x0, 0x0, 0x0, 0x0, 0x0, fun _ _ => 0x64⟩,
   ⟨0x100020, 1, 4, 1, 4, 0x0, 0x0, 0x0, 0x0, 0x0, fun _ _ => 0x0⟩,
   ⟨0x100024, 1, 4, 1, 4, 0x0, 0x0, 0x0, 0x0, 0x0, fun _ _ => 0x0⟩,
   ⟨0x100028, 1, 4, 1, 4, 0x0, 0x0, 0x0, 0x0, 0x0, fun _ _ => 0x0⟩,
   ⟨0x10002C, 1, 4, 1, 4, 0x0, 0x0, 0x0, 0x0, 0xFFFFFFFF, fun _ _ => 0x0⟩,
   ⟨0x100030, 1, 4, 1, 4, 0x61FF, 0x0, 0x0, 0x0, 0x0, fun _ _ => 0x0⟩,
   ⟨0x100034, 1, 4, 1, 4, 0xFFFFFFFF, 0x0, 0x0, 0x0, 0x0, fun _ _ => 0x0⟩,
   ⟨0x100100, 12, 4, 1, 4, 0x0, 0x0, 0x0, 0x0, 0x0, fun _ _ => 0x0⟩,
   ⟨0x101000, 64, 4, 1, 4, 0xFFFFFFFF, 0x0, 0x0, 0x0, 0x0, fun _ _ => 0x0⟩]
/-- THM block registers. -/
def thmDefs : List RegDef :=
  [⟨0x200000, 1, 4, 1, 4, 0x0, 0x0, 0x0, 0x0, 0x0, fun _ _ => 0x0⟩,
   ⟨0x200004, 1, 4, 1, 4, 0x0, 0x0, 0x0, 0x0, 0x0, fun _ _ => 0x7D736964⟩,
   ⟨0x200008, 1, 4, 1, 4, 0x0, 0x0, 0x0, 0x0, 0x0, fun _ _ => 0x0⟩,
   ⟨0x20000C, 1, 4, 1, 4, 0x0, 0x0, 0x0, 0x0, 0x0, fun _ _ => 0x0⟩,
   ⟨0x200010, 1, 4, 1, 4, 0x0, 0x0, 0x0, 0x0, 0x0, fun _ _ => 0x0⟩,
   ⟨0x200014, 1, 4, 1, 4, 0x0, 0x0, 0x0, 0x0, 0x0, fun _ _ => 0x0⟩,
   ⟨0x200018, 1, 4, 1, 4, 0x0, 0x0, 0x0, 0x0, 0x0, fun _ _ => 0x0⟩,
   ⟨0x20001C, 1, 4, 1, 4, 0x0, 0x0, 0x0, 0x0, 0x0, fun _ _ => 0x0⟩,
   ⟨0x200020, 1, 4, 1, 4, 0x0, 0x0, 0x0, 0x0, 0x0, fun _ _ => 0x0⟩,
   ⟨0x200024, 1, 4, 1, 4, 0x0, 0x0, 0x0, 0x0, 0x0, fun _ _ => 0x0⟩,
   ⟨0x200028, 1, 4, 1, 4, 0xFF, 0x0, 0x0, 0x0, 0x0, fun _ _ => 0xFF⟩,
   ⟨0x200100, 16, 8, 1, 4, 0x0, 0x0, 0x0, 0x0, 0x0, fun _ _ => 0x0⟩,
   ⟨0x200104, 16, 8, 1, 4, 0x0, 0x0, 0x0, 0x0, 0x0, fun _ _ => 0x0⟩,
   ⟨0x200180, 16, 4, 1, 4, 0x0, 0x0, 0x0, 0x0, 0x0, fun _ _ => 0x70803E8⟩]
/-- PRS block registers. -/
def prsDefs : List RegDef :=
  [⟨0x300000, 1, 4, 1, 4, 0x0, 0x0, 0x0, 0x0, 0x407F0000, fun _ _ => 0x400000⟩,
   ⟨0x300004, 1, 4, 1, 4, 0x0, 0x0, 0x0, 0x0, 0x0, fun _ _ => 0x0⟩,
   ⟨0x300008, 1, 4, 1, 4, 0x0, 0x0, 0x0, 0x0, 0x0, fun _ _ => 0x0⟩,
   ⟨0x30000C, 1, 4, 1, 4, 0x0, 0x0, 0x0, 0x0, 0x0, fun _ _ => 0x0⟩,
   ⟨0x300010, 1, 4, 1, 4, 0x0, 0x0, 0x0, 0x0, 0xFFFFFFFF, fun _ _ => 0x0⟩,
   ⟨0x308000, 8192, 4, 1, 4, 0x0, 0x0, 0x0, 0x0, 0xFFFFFFFF, fun _ _ => 0x0⟩,
   ⟨0x310000, 8192, 4, 1, 4, 0x0, 0x0, 0x0, 0x0, 0x80FFFFFF, fun _ _ => 0x0⟩]
/-- CRC block registers. -/
def crcDefs : List RegDef :=
  [⟨0x400000, 1, 4, 1, 4, 0x0, 0x0, 0x0, 0x0, 0x0, fun _ _ => 0x0⟩,
   ⟨0x400100, 8, 128, 1, 4, 0xFF03073F, 0x0, 0x0, 0x0, 0x0, fun _ _ => 0x31F⟩,
   ⟨0x400104, 8, 128, 1, 4, 0x0, 0x0, 0x0, 0x0, 0x0, fun _ _ => 0x0⟩,
   ⟨0x400108, 8, 128, 1, 4, 0x0, 0x0, 0xE, 0x0, 0x0, fun _ _ => 0x0⟩,
   ⟨0x40010C, 8, 128, 1, 4, 0xFFFFFFFF, 0x0, 0x0, 0x0, 0x0, fun _ _ => 0x0⟩,
   ⟨0x400110, 8, 128, 1, 4, 0xFFFFFFFF, 0x0, 0x0, 0x0, 0x0, fun _ _ => 0x4C11DB7⟩,
   ⟨0x400114, 8, 128, 1, 4, 0xFFFFFFFF, 0x0, 0x0, 0x0, 0x0, fun _ _ => 0x0⟩,
   ⟨0x400118, 8, 128, 1, 4, 0xFFFFFFFF, 0x0, 0x0, 0x0, 0x0, fun _ _ => 0xFFFFFFFF⟩,
   ⟨0x40011C, 8, 128, 1, 4, 0xFFFFFFFF, 0x0, 0x0, 0x0, 0x0, fun _ _ => 0x0⟩,
   ⟨0x400120, 8, 128, 1, 4, 0xFFFFFFFF, 0x0, 0x0, 0x0, 0x0, fun _ _ => 0xFFFFFFFF⟩,
   ⟨0x400124, 8, 128, 1, 4, 0xFFFFFFFF, 0x0, 0x0, 0x0, 0x0, fun _ _ => 0x0⟩,
   ⟨0x400128, 8, 128, 1, 4, 0xFFFFFFFF, 0x0, 0x0, 0x0, 0x0, fun _ _ => 0x0⟩,
   ⟨0x40012C, 8, 128, 1, 4, 0xFFFFFFFF, 0x0, 0x0, 0x0, 0x0, fun _ _ => 0x0⟩,
   ⟨0x400130, 8, 128, 1, 4, 0xFFFFFFFF, 0x0, 0x0, 0x0, 0x0, fun _ _ => 0x0⟩,
   ⟨0x400134, 8, 128, 1, 4, 0xFFFFFFFF, 0x0, 0x0, 0x0, 0x0, fun _ _ => 0x0⟩,
   ⟨0x400138, 8, 128, 1, 4, 0x0, 0x0, 0x0, 0x0, 0x0, fun _ _ => 0x0⟩,
   ⟨0x40013C, 8, 128, 1, 4, 0x0, 0x0, 0x0, 0x0, 0x0, fun _ _ => 0x0⟩,
   ⟨0x400140, 8, 128, 1, 4, 0xFFFFFFFF, 0x0, 0x0, 0x0, 0x0, fun _ _ => 0x0⟩,
   ⟨0x400144, 8, 128, 1, 4, 0x7, 0x0, 0x0, 0x0, 0x0, fun _ _ => 0x0⟩,
   ⟨0x400148, 8, 128, 1, 4, 0x0, 0x0, 0x0, 0x0, 0x0, fun _ _ => 0x0⟩,
   ⟨0x40014C, 8, 128, 1, 4, 0x0, 0x0, 0x0, 0x0, 0x0, fun _ _ => 0x0⟩,
   ⟨0x400150, 8, 128, 1, 4, 0x0, 0x0, 0x0, 0x0, 0x0, fun _ _ => 0x0⟩]
/-- POS block registers, part 0. -/
def posDefs0 : List RegDef :=
  [⟨0x500000, 1, 4, 1, 4, 0xF03, 0x0, 0x0, 0x0, 0x0, fun _ _ => 0x0⟩,
   ⟨0x500004, 1, 4, 1, 4, 0x0, 0x0, 0x0, 0xFF, 0x0, fun _ _ => 0x0⟩,
   ⟨0x500008, 1, 4, 1, 4, 0x0, 0x0, 0x0, 0x0, 0x0, fun _ _ => 0x0⟩,
   ⟨0x500010, 1, 4, 1, 4, 0x0, 0x0, 0x0, 0xFFFFFFFF, 0x0, fun _ _ => 0x0⟩,
   ⟨0x500014, 1, 4, 1, 4, 0x0, 0x0, 0x0, 0xFFFF, 0x0, fun _ _ => 0x0⟩,
   ⟨0x500018, 1, 4, 1, 4, 0xFFFFFFFF, 0x0, 0x0, 0x0, 0x0, fun _ _ => 0x0⟩,
   ⟨0x50001C, 1, 4, 1, 4, 0xFFFF, 0x0, 0x0, 0x0, 0x0, fun _ _ => 0x0⟩,
   ⟨0x500020, 1, 4, 1, 4, 0x0, 0x0, 0x0, 0xFFFFFFFF, 0x0, fun _ _ => 0x0⟩,
   ⟨0x500024, 1, 4, 1, 4, 0x0, 0x0, 0x0, 0xFFFF, 0x0, fun _ _ => 0x0⟩,
   ⟨0x500028, 1, 4, 1, 4, 0x0, 0x0, 0x0, 0xFFFFFFFF, 0x0, fun _ _ => 0x0⟩,
   ⟨0x50002C, 1, 4, 1, 4, 0x3FF, 0x0, 0x0, 0x0, 0x0, fun _ _ => 0xA⟩,
   ⟨0x500030, 1, 4, 1, 4, 0xFFFFFFFF, 0x0, 0x0, 0x0, 0x0, fun _ _ => 0x1000000⟩,
   ⟨0x500034, 1, 4, 1, 4, 0xFF, 0x0, 0x0, 0x0, 0x0, fun _ _ => 0x0⟩,
   ⟨0x500038, 1, 4, 1, 4, 0xFFFF, 0x0, 0x0, 0x0, 0x0, fun _ _ => 0x8⟩,
   ⟨0x50003C, 1, 4, 1, 4, 0x3FF, 0x0, 0x0, 0x0, 0x0, fun _ _ => 0x64⟩,
   ⟨0x500040, 1, 4, 1, 4, 0xFFFFFFFF, 0x0, 0x0, 0x0, 0x0, fun _ _ => 0x1041004⟩,
   ⟨0x500044, 1, 4, 1, 4, 0x0, 0x0, 0x0, 0xFFFFFFFF, 0x0, fun _ _ => 0x0⟩,
   ⟨0x500048, 1, 4, 1, 4, 0x0, 0x0, 0x0, 0xFFFFFFFF, 0x0, fun _ _ => 0x0⟩,
   ⟨0x50004C, 1, 4, 1, 4, 0xF, 0x0, 0x0, 0x0, 0x0, fun _ _ => 0x0⟩,
   ⟨0x500050, 1, 4, 1, 4, 0xFFFF, 0x0, 0x0, 0x0, 0x0, fun _ _ => 0xA⟩,
   ⟨0x500100, 4, 64, 1, 4, 0xFF0F, 0x0, 0x0, 0x0, 0x0, fun _ _ => 0x0⟩,
   ⟨0x500104, 4, 64, 1, 4, 0x0, 0x0, 0x0, 0xFFFFFFFF, 0x0, fun _ _ => 0x0⟩,
   ⟨0x500108, 4, 64, 1, 4, 0x0, 0x0, 0x0, 0xFFFF000F, 0x0, fun i _ => if i < 2 then 0x2580000 else 0x280000⟩,
   ⟨0x50010C, 4, 64, 1, 4, 0x0, 0x0, 0x0, 0xFFFFFFFF, 0x0, fun _ _ => 0x0⟩,
   ⟨0x500110, 4, 64, 1, 4, 0xFFFFFFFF, 0x0, 0x0, 0x0, 0x0, fun _ _ => 0x0⟩,
   ⟨0x500114, 4, 64, 1, 4, 0x1FFFFFF, 0x0, 0x0, 0x0, 0x0, fun _ _ => 0x30004⟩,
   ⟨0x500118, 4, 64, 1, 4, 0x0, 0x0, 0x0, 0xFFFFFFFF, 0x0, fun _ _ => 0x0⟩,
   ⟨0x50011C, 4, 64, 1, 4, 0x0, 0x0, 0x0, 0xFFFF, 0x0, fun _ _ => 0x0⟩,
   ⟨0x500120, 4, 64, 1, 4, 0xFFFFFFFF, 0x0, 0x0, 0x0, 0x0, fun _ _ => 0x9000018⟩,
   ⟨0x500124, 4, 64, 1, 4, 0xFFFFFFFF, 0x0, 0x0, 0x0, 0x0, fun _ _ => 0x640032⟩]
/-- POS block registers, part 1. -/
def posDefs1 : List RegDef :=
  [⟨0x500128, 4, 64, 1, 4, 0xFFFFFFFF, 0x0, 0x0, 0x0, 0x0, fun _ _ => 0x0⟩,
   ⟨0x50012C, 4, 64, 1, 4, 0x0, 0x0, 0x0, 0xFFFFFFFF, 0x0, fun _ _ => 0x0⟩,
   ⟨0x500130, 4, 64, 1, 4, 0x0, 0x0, 0x0, 0xFFFF, 0x0, fun _ _ => 0x0⟩,
   ⟨0x500134, 4, 64, 1, 4, 0x0, 0x0, 0x0, 0xFFFFFFFF, 0x0, fun _ _ => 0x0⟩,
   ⟨0x500200, 2, 32, 1, 4, 0x8FFFF, 0x0, 0x0, 0x0, 0x0, fun _ _ => 0x1000⟩,
   ⟨0x500204, 2, 32, 1, 4, 0x0, 0x0, 0x0, 0xFFFFFFFF, 0x0, fun _ _ => 0x0⟩,
   ⟨0x500208, 2, 32, 1, 4, 0xFFFFFFFF, 0x0, 0x0, 0x0, 0x0, fun _ _ => 0x0⟩,
   ⟨0x50020C, 2, 32, 1, 4, 0x0, 0x0, 0x0, 0xFFFFFFFF, 0x0, fun _ _ => 0x0⟩,
   ⟨0x500210, 2, 32, 1, 4, 0x0, 0x0, 0x0, 0xFFFF003F, 0x0, fun _ _ => 0x0⟩]
def posDefs : List RegDef := posDefs0 ++ posDefs1
/-- LTC block registers, part 0. -/
def ltcDefs0 : List RegDef :=
  [⟨0x600000, 1, 4, 1, 4, 0xFFFFFFFF, 0xFFFFFFFF, 0x0, 0x0, 0x0, fun _ _ => 0x52AEAB⟩,
   ⟨0x600004, 1, 4, 1, 4, 0xFFFF1FFF, 0x0, 0x0, 0x0, 0x0, fun _ _ => 0x100⟩,
   ⟨0x600008, 1, 4, 1, 4, 0x1FFFF, 0x0, 0x0, 0x0, 0x0, fun _ _ => 0x10040⟩,
   ⟨0x60000C, 1, 4, 1, 4, 0xFF, 0x0, 0x0, 0x0, 0x0, fun _ _ => 0x10⟩,
   ⟨0x600010, 1, 4, 1, 4, 0x0, 0x0, 0x0, 0xFFFFFFFF, 0x0, fun _ _ => 0x0⟩,
   ⟨0x600014, 1, 4, 1, 4, 0x0, 0x0, 0x0, 0xFFFF, 0x0, fun _ _ => 0xFA0⟩,
   ⟨0x600018, 1, 4, 1, 4, 0xFF, 0x0, 0x0, 0x0, 0x0, fun _ _ => 0x8⟩,
   ⟨0x60001C, 1, 4, 1, 4, 0xFFFFFFFF, 0x0, 0x0, 0x0, 0x0, fun _ _ => 0x989680⟩,
   ⟨0x600020, 1, 4, 1, 4, 0xFFFF, 0xFFFF, 0x0, 0x0, 0x0, fun _ _ => 0x0⟩,
   ⟨0x600024, 1, 4, 1, 4, 0x0, 0x0, 0xFF, 0xFF, 0x0, fun _ _ => 0x0⟩,
   ⟨0x600100, 12, 64, 1, 4, 0xFFFFFFFF, 0x0, 0x0, 0x0, 0x0, fun _ _ => 0x0⟩,
   ⟨0x600104, 12, 64, 1, 4, 0xFFFFFFFF, 0x0, 0x0, 0x0, 0x0, fun _ _ => 0x0⟩,
   ⟨0x600108, 12, 64, 1, 4, 0x3F, 0x3F, 0x0, 0x0, 0x0, fun _ _ => 0x0⟩,
   ⟨0x60010C, 12, 64, 1, 4, 0xFFFF, 0xFFFF, 0x0, 0x0, 0x0, fun _ _ => 0x12C⟩,
   ⟨0x600110, 12, 64, 1, 4, 0xFFFFFFFF, 0x0, 0x0, 0x0, 0x0, fun _ _ => 0xFFFFFFFF⟩,
   ⟨0x600114, 12, 64, 1, 4, 0xFFFFFFFF, 0x0, 0x0, 0x0, 0x0, fun _ _ => 0xFFFFFFFF⟩,
   ⟨0x600118, 12, 64, 1, 4, 0x0, 0x0, 0x0, 0xFFFFFF3F, 0x0, fun _ _ => 0x0⟩,
   ⟨0x60011C, 12, 64, 1, 4, 0x0, 0x0, 0x0, 0xFFFFFFFF, 0x0, fun _ _ => 0x0⟩,
   ⟨0x600120, 12, 64, 1, 4, 0x0, 0x0, 0x0, 0xFFFFFFFF, 0x0, fun _ _ => 0x0⟩,
   ⟨0x600124, 12, 64, 1, 4, 0x0, 0x0, 0x0, 0xFFFFFFFF, 0x0, fun _ _ => 0x0⟩,
   ⟨0x600128, 12, 64, 1, 4, 0x0, 0x0, 0x0, 0xFFFFFFFF, 0x0, fun _ _ => 0x0⟩,
   ⟨0x60012C, 12, 64, 1, 4, 0x0, 0x0, 0x0, 0xFFFFFFFF, 0x0, fun _ _ => 0x0⟩,
   ⟨0x600400, 8, 16, 1, 4, 0x800FFFFF, 0x0, 0x0, 0x0, 0x0, fun _ _ => 0x3E8⟩,
   ⟨0x600404, 8, 16, 1, 4, 0x0, 0x0, 0x0, 0xFFFF, 0x0, fun _ _ => 0x0⟩,
   ⟨0x600800, 32, 32, 1, 4, 0xFFF0F, 0x0, 0x0, 0x0, 0x0, fun _ _ => 0x0⟩,
   ⟨0x600804, 32, 32, 1, 4, 0x7FFF3FFF, 0x7FFF3FFF, 0x0, 0x0, 0x0, fun _ _ => 0x10000⟩,
   ⟨0x600808, 32, 32, 1, 4, 0x1FFFF, 0x0, 0x0, 0x0, 0x0, fun _ _ => 0x64⟩,
   ⟨0x60080C, 32, 32, 1, 4, 0xFFFFFFFF, 0x0, 0x0, 0x0, 0x0, fun _ _ => 0x0⟩,
   ⟨0x600810, 32, 32, 1, 4, 0xFFFF, 0x0, 0x0, 0x0, 0x0, fun _ _ => 0x0⟩,
   ⟨0x600814, 32, 32, 1, 4, 0x0, 0x0, 0x0, 0x3FFF, 0x0, fun _ _ => 0x0⟩]
/-- LTC block registers, part 1. -/
def ltcDefs1 : List RegDef :=
  [⟨0x600818, 32, 32, 1, 4, 0x0, 0x0, 0x0, 0xFFFFFFFF, 0x0, fun _ _ => 0x0⟩,
   ⟨0x60081C, 32, 32, 1, 4, 0x0, 0x0, 0x0, 0xFFFFFFFF, 0x0, fun _ _ => 0x0⟩,
   ⟨0x610000, 16384, 8, 1, 4, 0xFFFFFFFF, 0x0, 0x0, 0x0, 0x0, fun _ _ => 0x0⟩,
   ⟨0x610004, 16384, 8, 1, 4, 0xFFFFFFFF, 0x0, 0x0, 0x0, 0x0, fun _ _ => 0x0⟩]
def ltcDefs : List RegDef := ltcDefs0 ++ ltcDefs1
/-- JOB block registers, part 0. -/
def jobDefs0 : List RegDef :=
  [⟨0x700000, 1, 4, 1, 4, 0x0, 0x0, 0x0, 0x0, 0x0, fun _ _ => 0x0⟩,
   ⟨0x700004, 1, 4, 1, 4, 0x1, 0x0, 0x0, 0x0, 0x0, fun _ _ => 0x0⟩,
   ⟨0x700008, 1, 4, 1, 4, 0xFFFFFFFF, 0x0, 0x0, 0x0, 0x0, fun _ _ => 0x0⟩,
   ⟨0x70000C, 1, 4, 1, 4, 0xFFFFFFFF, 0x0, 0x0, 0x0, 0x0, fun _ _ => 0x0⟩,
   ⟨0x700010, 1, 4, 1, 4, 0x7, 0x0, 0x0, 0x0, 0x0, fun _ _ => 0x0⟩,
   ⟨0x700014, 1, 4, 1, 4, 0x1FFFF, 0x0, 0x0, 0x0, 0x0, fun _ _ => 0x100⟩,
   ⟨0x700018, 1, 4, 1, 4, 0x0, 0x0, 0x0, 0xFFFF, 0x0, fun _ _ => 0x0⟩,
   ⟨0x70001C, 1, 4, 1, 4, 0xFFFF, 0x0, 0x0, 0x0, 0x0, fun _ _ => 0x0⟩,
   ⟨0x700020, 1, 4, 1, 4, 0x0, 0x0, 0x0, 0xFFFFFFFF, 0x0, fun _ _ => 0x0⟩,
   ⟨0x700024, 1, 4, 1, 4, 0xFFFFFFFF, 0x0, 0x0, 0x0, 0x0, fun _ _ => 0x0⟩,
   ⟨0x700028, 1, 4, 1, 4, 0x7, 0x0, 0x0, 0x0, 0x0, fun _ _ => 0x0⟩,
   ⟨0x70002C, 1, 4, 1, 4, 0x1FFF, 0x0, 0x0, 0x0, 0x0, fun _ _ => 0x0⟩,
   ⟨0x700030, 1, 4, 1, 4, 0x0, 0x0, 0x0, 0x0, 0x0, fun _ _ => 0x0⟩,
   ⟨0x700034, 1, 4, 1, 4, 0xFFFFFFFF, 0x0, 0x0, 0x0, 0x0, fun _ _ => 0x13880⟩,
   ⟨0x700038, 1, 4, 1, 4, 0x0, 0x0, 0x0, 0xFFFFFFFF, 0x0, fun _ _ => 0x7D00⟩,
   ⟨0x70003C, 1, 4, 1, 4, 0xFFF, 0x0, 0x0, 0x0, 0x0, fun _ _ => 0x0⟩,
   ⟨0x700040, 1, 4, 1, 4, 0x0, 0x0, 0x0, 0xFFFF, 0x0, fun _ _ => 0x0⟩,
   ⟨0x700044, 1, 4, 1, 4, 0x0, 0x0, 0x0, 0x0, 0x0, fun _ _ => 0x0⟩,
   ⟨0x700100, 12, 32, 1, 4, 0x0, 0x0, 0x0, 0xFFFFFFFF, 0x0, fun _ _ => 0x0⟩,
   ⟨0x700104, 12, 32, 1, 4, 0x0, 0x0, 0x0, 0xFFFFFFFF, 0x0, fun _ _ => 0x0⟩,
   ⟨0x700108, 12, 32, 1, 4, 0x0, 0x0, 0x0, 0xC0000FFF, 0x0, fun _ _ => 0x0⟩,
   ⟨0x70010C, 12, 32, 1, 4, 0x0, 0x0, 0x0, 0xFFFFFFFF, 0x0, fun _ _ => 0x0⟩,
   ⟨0x700110, 12, 32, 1, 4, 0x0, 0x0, 0x0, 0xFFFF, 0x0, fun _ _ => 0x0⟩,
   ⟨0x700114, 12, 32, 1, 4, 0x0, 0x0, 0x0, 0xFFFFFFFF, 0x0, fun _ _ => 0x0⟩,
   ⟨0x700118, 12, 32, 1, 4, 0x0, 0x0, 0x0, 0xFFFFFFFF, 0x0, fun _ _ => 0x0⟩,
   ⟨0x70011C, 12, 32, 1, 4, 0x0, 0x0, 0x0, 0xFFFF, 0x0, fun _ _ => 0x0⟩,
   ⟨0x700400, 4, 32, 1, 4, 0xFFFFFFFF, 0x0, 0x0, 0x0, 0x0, fun _ _ => 0x0⟩,
   ⟨0x700404, 4, 32, 1, 4, 0xFFFFFFFF, 0x0, 0x0, 0x0, 0x0, fun _ _ => 0x0⟩,
   ⟨0x700408, 4, 32, 1, 4, 0xFFFF, 0x0, 0x0, 0x0, 0x0, fun _ _ => 0x40⟩,
   ⟨0x70040C, 4, 32, 1, 4, 0x0, 0x0, 0x0, 0x0, 0x0, fun _ _ => 0x0⟩]
/-- JOB block registers, part 1. -/
def jobDefs1 : List RegDef :=
  [⟨0x700410, 4, 32, 1, 4, 0xFFFF, 0x0, 0x0, 0x0, 0x0, fun _ _ => 0x0⟩,
   ⟨0x700414, 4, 32, 1, 4, 0x803FFFFF, 0x0, 0x0, 0x0, 0x0, fun _ _ => 0x3E8⟩,
   ⟨0x700418, 4, 32, 1, 4, 0x0, 0x0, 0x0, 0x0, 0x0, fun _ _ => 0x0⟩]
def jobDefs : List RegDef := jobDefs0 ++ jobDefs1
/-- CDC block registers. -/
def cdcDefs : List RegDef :=
  [⟨0x800000, 1, 4, 1, 4, 0x3, 0x0, 0x0, 0x0, 0x0, fun _ _ => 0x3⟩,
   ⟨0x800004, 1, 4, 1, 4, 0x0, 0x0, 0x0, 0x0, 0x0, fun _ _ => 0x0⟩,
   ⟨0x800008, 1, 4, 1, 4, 0x0, 0x0, 0x0, 0x3, 0x0, fun _ _ => 0x0⟩,
   ⟨0x800010, 1, 4, 1, 4, 0x0, 0x0, 0x0, 0xFF00000F, 0x0, fun _ _ => 0x0⟩,
   ⟨0x800014, 1, 4, 1, 4, 0x0, 0x0, 0x0, 0xFFFFFFFF, 0x0, fun _ _ => 0x0⟩,
   ⟨0x800018, 1, 4, 1, 4, 0x0, 0x0, 0x0, 0xFFFFFFFF, 0x0, fun _ _ => 0x0⟩,
   ⟨0x800020, 1, 4, 1, 4, 0x0, 0x0, 0x0, 0xFFFFFFFF, 0x0, fun _ _ => 0x0⟩,
   ⟨0x800024, 1, 4, 1, 4, 0x0, 0x0, 0x0, 0x3FFF, 0x0, fun _ _ => 0x0⟩,
   ⟨0x800028, 1, 4, 1, 4, 0x0, 0x0, 0x0, 0xFFFFFFFF, 0x0, fun _ _ => 0x0⟩,
   ⟨0x80002C, 1, 4, 1, 4, 0x0, 0x0, 0x0, 0x3, 0x0, fun _ _ => 0x0⟩,
   ⟨0x800100, 12, 4, 1, 4, 0x0, 0x0, 0x0, 0xFFFFFFFF, 0x0, fun _ _ => 0x0⟩]
/-- SCR block registers. -/
def scrDefs : List RegDef :=
  [⟨0x900000, 1, 4, 1, 4, 0xF0F, 0x0, 0x0, 0x0, 0x0, fun _ _ => 0x404⟩,
   ⟨0x900004, 1, 4, 1, 4, 0x0, 0x0, 0x0, 0x0, 0x0, fun _ _ => 0x0⟩,
   ⟨0x900008, 1, 4, 1, 4, 0x0, 0x0, 0x0, 0x3, 0x0, fun _ _ => 0x0⟩,
   ⟨0x90000C, 1, 4, 1, 4, 0x10F, 0x0, 0x0, 0x0, 0x0, fun _ _ => 0x0⟩,
   ⟨0x900010, 1, 4, 1, 4, 0xFFFFFFFF, 0x0, 0x0, 0x0, 0x0, fun _ _ => 0x0⟩,
   ⟨0x900014, 1, 4, 1, 4, 0x7, 0x0, 0x0, 0x0, 0x0, fun _ _ => 0x0⟩,
   ⟨0x900100, 12, 64, 1, 4, 0x3B, 0x3B, 0x0, 0x0, 0x0, fun _ _ => 0x0⟩,
   ⟨0x900104, 12, 64, 1, 4, 0x3FF, 0x3FF, 0x0, 0x0, 0x0, fun _ _ => 0x0⟩,
   ⟨0x900108, 12, 64, 1, 4, 0x7F007F, 0x7F007F, 0x0, 0x0, 0x0, fun _ _ => 0x0⟩,
   ⟨0x90010C, 12, 64, 1, 4, 0x1F1F1F1F, 0x1F1F1F1F, 0x0, 0x0, 0x0, fun _ _ => 0x1050307⟩,
   ⟨0x900110, 12, 64, 1, 4, 0x3FFFFFFF, 0x3FFFFFFF, 0x0, 0x0, 0x0, fun _ _ => 0x3FFAA955⟩,
   ⟨0x900114, 12, 64, 1, 4, 0x7FF00FF, 0x7FF00FF, 0x0, 0x0, 0x0, fun _ _ => 0x3FF0010⟩,
   ⟨0x900118, 12, 64, 1, 4, 0x0, 0x0, 0x0, 0x1F0F7F, 0x0, fun _ _ => 0x0⟩,
   ⟨0x90011C, 12, 64, 1, 4, 0x0, 0x0, 0x0, 0xFFFFFFFF, 0x0, fun _ _ => 0x0⟩,
   ⟨0x900120, 12, 64, 1, 4, 0x0, 0x0, 0x0, 0xFFFFFFFF, 0x0, fun _ _ => 0xFFFFFFFF⟩,
   ⟨0x900124, 12, 64, 1, 4, 0x0, 0x0, 0x0, 0xFFFFFFFF, 0x0, fun _ _ => 0x0⟩,
   ⟨0x900128, 12, 64, 1, 4, 0x0, 0x0, 0x0, 0xFFFFFFFF, 0x0, fun _ _ => 0x0⟩,
   ⟨0x90012C, 12, 64, 1, 4, 0x0, 0x0, 0x0, 0xFFFFFFFF, 0x0, fun _ _ => 0x0⟩,
   ⟨0x900130, 12, 64, 1, 4, 0x0, 0x0, 0x0, 0xFFFFFFFF, 0x0, fun _ _ => 0x0⟩,
   ⟨0x901000, 12, 1024, 256, 4, 0x3FF, 0x3FF, 0x0, 0x0, 0x0, fun _ i => (i * 1023 + 127) / 255⟩]
/-- NOZ block registers. -/
def nozDefs : List RegDef :=
  [⟨0xA00000, 1, 4, 1, 4, 0xFFFF, 0x0, 0x0, 0x0, 0x0, fun _ _ => 0x3E8⟩,
   ⟨0xA00004, 1, 4, 1, 4, 0x1, 0x0, 0x0, 0x0, 0x0, fun _ _ => 0x0⟩,
   ⟨0xA00008, 1, 4, 1, 4, 0x0, 0x0, 0x0, 0x0, 0x0, fun _ _ => 0x0⟩,
   ⟨0xA0000C, 1, 4, 1, 4, 0x10F, 0x0, 0x0, 0x0, 0x0, fun _ _ => 0x0⟩,
   ⟨0xA00010, 1, 4, 1, 4, 0x70F, 0x0, 0x0, 0x0, 0x0, fun _ _ => 0x0⟩,
   ⟨0xA00014, 1, 4, 1, 4, 0x3FF, 0x0, 0x0, 0x0, 0x0, fun _ _ => 0x0⟩,
   ⟨0xA00020, 1, 4, 1, 4, 0x0, 0x0, 0x0, 0xFFFFFFFF, 0x0, fun _ _ => 0x0⟩,
   ⟨0xA00024, 1, 4, 1, 4, 0x0, 0x0, 0x0, 0xFFFFFFFF, 0x0, fun _ _ => 0x0⟩,
   ⟨0xA00028, 1, 4, 1, 4, 0x0, 0x0, 0x0, 0xFFFFFFFF, 0x0, fun _ _ => 0x0⟩,
   ⟨0xA0002C, 1, 4, 1, 4, 0x0, 0x0, 0x0, 0xEF01FFFF, 0x0, fun _ _ => 0x0⟩,
   ⟨0xA00030, 1, 4, 1, 4, 0x0, 0x0, 0x0, 0x1FFFF, 0x0, fun _ _ => 0x0⟩,
   ⟨0xA00034, 1, 4, 1, 4, 0x0, 0x0, 0x0, 0xFFFFFFFF, 0x0, fun _ _ => 0x0⟩,
   ⟨0xA00038, 1, 4, 1, 4, 0x0, 0x0, 0x0, 0xFFFF, 0x0, fun _ _ => 0x0⟩,
   ⟨0xA0003C, 1, 4, 1, 4, 0xFFFFFFFF, 0x0, 0x0, 0x0, 0xFFFFFFFF, fun _ _ => 0x0⟩,
   ⟨0xA00040, 1, 4, 1, 4, 0xFFFF, 0x0, 0x0, 0x0, 0xFFFF, fun _ _ => 0x0⟩,
   ⟨0xA00100, 12, 32, 1, 4, 0x3F3F0772, 0x3F3F0772, 0x0, 0x1, 0x0, fun _ _ => 0x20⟩,
   ⟨0xA00104, 12, 32, 1, 4, 0xFFFFFFFF, 0xFFFFFFFF, 0x0, 0x0, 0x0, fun _ _ => 0xFFFEF9E4⟩,
   ⟨0xA00108, 12, 32, 1, 4, 0x1FFF, 0x0, 0x0, 0x0, 0x0, fun _ _ => 0x0⟩,
   ⟨0xA0010C, 12, 32, 1, 4, 0x1FFF, 0x0, 0x0, 0x0, 0x0, fun _ _ => 0x0⟩,
   ⟨0xA00110, 12, 32, 1, 4, 0x0, 0x0, 0x0, 0x3F3F, 0x0, fun _ _ => 0x0⟩,
   ⟨0xA00114, 12, 32, 1, 4, 0x0, 0x0, 0x0, 0x1FFFFF0D, 0x0, fun _ _ => 0x0⟩,
   ⟨0xA00118, 12, 32, 1, 4, 0x0, 0x0, 0x0, 0xFFFFFFFF, 0x0, fun _ _ => 0x0⟩,
   ⟨0xA0011C, 12, 32, 1, 4, 0x0, 0x0, 0x0, 0xFFFFFFFF, 0x0, fun _ _ => 0x0⟩]
/-- ZXL block registers, part 0. -/
def zxlDefs0 : List RegDef :=
  [⟨0xB00000, 1, 4, 1, 4, 0xF, 0x0, 0x0, 0x300, 0x0, fun _ _ => 0x3⟩,
   ⟨0xB00004, 1, 4, 1, 4, 0x0, 0x0, 0x0, 0x3FFFF, 0x0, fun _ _ => 0x0⟩,
   ⟨0xB00008, 1, 4, 1, 4, 0xFFFFFFFF, 0x0, 0x0, 0x0, 0x0, fun _ _ => 0x0⟩,
   ⟨0xB0000C, 1, 4, 1, 4, 0x0, 0x0, 0x0, 0xFFFF, 0x0, fun _ _ => 0x0⟩,
   ⟨0xB00010, 1, 4, 1, 4, 0x0, 0x0, 0x0, 0x3, 0x0, fun _ _ => 0x0⟩,
   ⟨0xB00014, 1, 4, 1, 4, 0x0, 0x0, 0x0, 0xFFF, 0x0, fun _ _ => 0x0⟩,
   ⟨0xB00100, 18, 128, 1, 4, 0x3, 0x0, 0x0, 0x807FFF00, 0x0, fun _ _ => 0x0⟩,
   ⟨0xB00104, 18, 128, 1, 4, 0x0, 0x0, 0x0, 0x0, 0x0, fun _ _ => 0x0⟩,
   ⟨0xB00108, 18, 128, 1, 4, 0x0, 0x0, 0x0, 0xF37FFFF3, 0x0, fun _ _ => 0x0⟩,
   ⟨0xB0010C, 18, 128, 1, 4, 0x0, 0x0, 0x0, 0xFF3F, 0x0, fun _ _ => 0x0⟩,
   ⟨0xB00110, 18, 128, 1, 4, 0x0, 0x0, 0x0, 0xFFFFFFFF, 0x0, fun _ _ => 0x0⟩,
   ⟨0xB00114, 18, 128, 1, 4, 0xC0000F07, 0x0, 0x0, 0x1000, 0x0, fun _ _ => 0x3⟩,
   ⟨0xB00118, 18, 128, 1, 4, 0xFFFFFFFF, 0x0, 0x0, 0x0, 0x0, fun _ _ => 0x0⟩,
   ⟨0xB0011C, 18, 128, 1, 4, 0xFFFFFFFF, 0x0, 0x0, 0x0, 0x0, fun _ _ => 0x0⟩,
   ⟨0xB00120, 18, 128, 1, 4, 0xFFF, 0x0, 0x0, 0x0, 0x0, fun _ _ => 0x0⟩,
   ⟨0xB00124, 18, 128, 1, 4, 0x0, 0x0, 0x0, 0xFFFFFFFF, 0x0, fun _ _ => 0x0⟩,
   ⟨0xB00128, 18, 128, 1, 4, 0x0, 0x0, 0x0, 0x1FFFF, 0x0, fun _ _ => 0x0⟩,
   ⟨0xB00140, 18, 128, 4, 8, 0x0, 0x0, 0x0, 0x8F01FFFF, 0x0, fun _ _ => 0x0⟩,
   ⟨0xB00144, 18, 128, 4, 8, 0x0, 0x0, 0x0, 0x1FFFF, 0x0, fun _ _ => 0x0⟩,
   ⟨0xB01000, 1, 4, 1, 4, 0x0, 0x0, 0x0, 0xFFFF, 0x0, fun _ _ => 0x0⟩,
   ⟨0xB01004, 1, 4, 1, 4, 0xFFF0FFFF, 0x0, 0x0, 0x0, 0x0, fun _ _ => 0x1000020A⟩,
   ⟨0xB01008, 1, 4, 1, 4, 0x0, 0x0, 0x0, 0x0, 0x0, fun _ _ => 0x0⟩,
   ⟨0xB01010, 1, 4, 1, 4, 0xC3FFFFFF, 0x0, 0x0, 0x0, 0x0, fun _ _ => 0x0⟩,
   ⟨0xB01014, 1, 4, 1, 4, 0xFFFFFFFF, 0x0, 0x0, 0x0, 0x0, fun _ _ => 0x0⟩,
   ⟨0xB01018, 1, 4, 1, 4, 0x0, 0x0, 0x0, 0x0, 0x0, fun _ _ => 0x0⟩,
   ⟨0xB01020, 1, 4, 1, 4, 0x7, 0x0, 0x0, 0x0, 0x0, fun _ _ => 0x0⟩,
   ⟨0xB01024, 1, 4, 1, 4, 0x0, 0x0, 0x0, 0xFFFF, 0x0, fun _ _ => 0x0⟩,
   ⟨0xB01200, 12, 32, 1, 4, 0xFFFF0F, 0xFFFF0F, 0x0, 0x0, 0x0, fun _ _ => 0x0⟩,
   ⟨0xB01204, 12, 32, 1, 4, 0x0, 0x0, 0x0, 0xFFFFFFFF, 0x0, fun _ _ => 0x0⟩,
   ⟨0xB01208, 12, 32, 1, 4, 0x0, 0x0, 0x0, 0xC000FFFF, 0x0, fun _ _ => 0x0⟩]
/-- ZXL block registers, part 1. -/
def zxlDefs1 : List RegDef :=
  [⟨0xB0120C, 12, 32, 1, 4, 0x0, 0x0, 0x0, 0xFFFFFFFF, 0x0, fun _ _ => 0x0⟩,
   ⟨0xB01210, 12, 32, 1, 4, 0x0, 0x0, 0x0, 0x7FF, 0x0, fun _ _ => 0x0⟩,
   ⟨0xB02000, 1024, 8, 1, 4, 0x0, 0x0, 0x0, 0xFFFFFFFF, 0x0, fun _ _ => 0x0⟩,
   ⟨0xB02004, 1024, 8, 1, 4, 0x0, 0x0, 0x0, 0xFFFFFFFF, 0x0, fun _ _ => 0x0⟩,
   ⟨0xB04000, 1024, 4, 1, 4, 0x0, 0x0, 0x0, 0xFFFFFFFF, 0x0, fun _ _ => 0x0⟩]
def zxlDefs : List RegDef := zxlDefs0 ++ zxlDefs1
/-- VIS block registers, part 0. -/
def visDefs0 : List RegDef :=
  [⟨0xC00000, 1, 4, 1, 4, 0x1, 0x0, 0x0, 0x0, 0x0, fun _ _ => 0x1⟩,
   ⟨0xC00004, 1, 4, 1, 4, 0x0, 0x0, 0x0, 0xFFFF001F, 0x0, fun _ _ => 0x0⟩,
   ⟨0xC00008, 1, 4, 1, 4, 0x0, 0x0, 0x0, 0x0, 0x0, fun _ _ => 0x0⟩,
   ⟨0xC0000C, 1, 4, 1, 4, 0x307, 0x0, 0x0, 0x0, 0x0, fun _ _ => 0x0⟩,
   ⟨0xC00010, 1, 4, 1, 4, 0xC3330001, 0x0, 0x0, 0x0, 0x0, fun _ _ => 0x10000⟩,
   ⟨0xC00014, 1, 4, 1, 4, 0xFFFFFFFF, 0x0, 0x0, 0x0, 0x0, fun _ _ => 0x0⟩,
   ⟨0xC00040, 16, 8, 1, 4, 0xFFFFFFFF, 0x0, 0x0, 0x0, 0x0, fun _ _ => 0x0⟩,
   ⟨0xC00018, 1, 4, 1, 4, 0xFFFFFFFF, 0x0, 0x0, 0x0, 0x0, fun _ _ => 0x0⟩,
   ⟨0xC00044, 16, 8, 1, 4, 0xFFFFFFFF, 0x0, 0x0, 0x0, 0x0, fun _ _ => 0x0⟩,
   ⟨0xC0001C, 1, 4, 1, 4, 0x8001FFFF, 0x0, 0x0, 0x0, 0x0, fun _ _ => 0x30⟩,
   ⟨0xC00020, 1, 4, 1, 4, 0x0, 0x0, 0x0, 0xFFFFFFFF, 0x0, fun _ _ => 0x0⟩,
   ⟨0xC00100, 4, 128, 1, 4, 0xC0FFFC1F, 0x0, 0x0, 0x20000000, 0x0, fun n _ => 0xF00008 + (if n = 0 then 0 else 0x20000000)⟩,
   ⟨0xC00104, 4, 128, 1, 4, 0x1FFFF, 0x0, 0x0, 0x0, 0x0, fun _ _ => 0x400⟩,
   ⟨0xC00108, 4, 128, 1, 4, 0xFFFFFFFF, 0x0, 0x0, 0x0, 0x0, fun _ _ => 0x1⟩,
   ⟨0xC0010C, 4, 128, 1, 4, 0x80FFFFFF, 0x80FFFFFF, 0x0, 0x0, 0x0, fun _ _ => 0x64⟩,
   ⟨0xC00110, 4, 128, 1, 4, 0xFFFFFFFF, 0xFFFFFFFF, 0x0, 0x0, 0x0, fun _ _ => 0x0⟩,
   ⟨0xC00114, 4, 128, 1, 4, 0xFFFFFFFF, 0xFFFFFFFF, 0x0, 0x0, 0x0, fun _ _ => 0x0⟩,
   ⟨0xC00118, 4, 128, 1, 4, 0xFFFFFFFF, 0xFFFFFFFF, 0x0, 0x0, 0x0, fun _ _ => 0x0⟩,
   ⟨0xC0011C, 4, 128, 1, 4, 0x80000007, 0x80000007, 0x0, 0x0, 0x0, fun _ _ => 0x0⟩,
   ⟨0xC00120, 4, 128, 1, 4, 0x35F, 0x35F, 0x0, 0x0, 0x0, fun _ _ => 0x100⟩,
   ⟨0xC00124, 4, 128, 1, 4, 0x7FF, 0x0, 0x0, 0x0, 0x0, fun _ _ => 0x0⟩,
   ⟨0xC00128, 4, 128, 1, 4, 0xFFFFFFFF, 0x0, 0x0, 0x0, 0x0, fun _ _ => 0x0⟩,
   ⟨0xC0012C, 4, 128, 1, 4, 0x7, 0x0, 0x0, 0x0, 0x0, fun _ _ => 0x0⟩,
   ⟨0xC00130, 4, 128, 1, 4, 0xFFFFFFFF, 0x0, 0x0, 0x0, 0x0, fun _ _ => 0x2000000⟩,
   ⟨0xC00134, 4, 128, 1, 4, 0xCFF0FFFF, 0x0, 0x0, 0x0, 0x0, fun _ _ => 0x0⟩,
   ⟨0xC00138, 4, 128, 1, 4, 0x3FF, 0x0, 0x0, 0x0, 0x0, fun _ _ => 0x100⟩,
   ⟨0xC0013C, 4, 128, 1, 4, 0x0, 0x0, 0x0, 0xFFFFFFFF, 0x0, fun _ _ => 0x0⟩,
   ⟨0xC00140, 4, 128, 1, 4, 0x0, 0x0, 0x0, 0xF800FFFF, 0x0, fun _ _ => 0x0⟩,
   ⟨0xC00144, 4, 128, 1, 4, 0x0, 0x0, 0x0, 0xFFFFFFFF, 0x0, fun _ _ => 0x0⟩,
   ⟨0xC00148, 4, 128, 1, 4, 0x0, 0x0, 0x0, 0xFFFFFFFF, 0x0, fun _ _ => 0x0⟩]
/-- VIS block registers, part 1. -/
def visDefs1 : List RegDef :=
  [⟨0xC0014C, 4, 128, 1, 4, 0x0, 0x0, 0x0, 0xFFFFFFFF, 0x0, fun _ _ => 0x0⟩,
   ⟨0xC00150, 4, 128, 1, 4, 0x0, 0x0, 0x0, 0xFFFFFFFF, 0x0, fun _ _ => 0x0⟩,
   ⟨0xC00154, 4, 128, 1, 4, 0x0, 0x0, 0x0, 0xFFFF, 0x0, fun _ _ => 0x0⟩,
   ⟨0xC00158, 4, 128, 1, 4, 0xFFFFFFFF, 0xFFFFFFFF, 0x0, 0x0, 0x0, fun _ _ => 0x1000⟩,
   ⟨0xC0015C, 4, 128, 1, 4, 0xFFFFFFFF, 0xFFFFFFFF, 0x0, 0x0, 0x0, fun _ _ => 0x0⟩,
   ⟨0xC00160, 4, 128, 1, 4, 0xFFFFFFFF, 0xFFFFFFFF, 0x0, 0x0, 0x0, fun _ _ => 0x1000⟩,
   ⟨0xC00164, 4, 128, 1, 4, 0xFFFFFFFF, 0xFFFFFFFF, 0x0, 0x0, 0x0, fun _ _ => 0x0⟩,
   ⟨0xC00168, 4, 128, 1, 4, 0xFFFF, 0xFFFF, 0x0, 0x0, 0x0, fun _ _ => 0x1000⟩,
   ⟨0xC0016C, 4, 128, 1, 4, 0xFFFFFFFF, 0xFFFFFFFF, 0x0, 0x0, 0x0, fun _ _ => 0xFFFFFFFF⟩,
   ⟨0xC00170, 4, 128, 1, 4, 0x1FFFF, 0x1FFFF, 0x0, 0x0, 0x0, fun _ _ => 0xFFFF⟩,
   ⟨0xC00400, 4, 32, 1, 4, 0xF3000000, 0x0, 0x0, 0x0, 0x0, fun _ _ => 0x0⟩,
   ⟨0xC00404, 4, 32, 1, 4, 0xFFFFFFFF, 0xFFFFFFFF, 0x0, 0x0, 0x0, fun _ _ => 0x0⟩,
   ⟨0xC00408, 4, 32, 1, 4, 0xFFFFFFFF, 0xFFFFFFFF, 0x0, 0x0, 0x0, fun _ _ => 0x0⟩,
   ⟨0xC0040C, 4, 32, 1, 4, 0xFFFFFFFF, 0xFFFFFFFF, 0x0, 0x0, 0x0, fun _ _ => 0x8000800⟩,
   ⟨0xC00410, 4, 32, 1, 4, 0x0, 0x0, 0x0, 0xFFFFFFFF, 0x0, fun _ _ => 0x0⟩,
   ⟨0xC00414, 4, 32, 1, 4, 0x0, 0x0, 0x0, 0xFFFFFFFF, 0x0, fun _ _ => 0x0⟩]
def visDefs : List RegDef := visDefs0 ++ visDefs1
/-- DEN block registers. -/
def denDefs : List RegDef :=
  [⟨0xD00000, 1, 4, 1, 4, 0xCC1F8FFF, 0x0, 0x0, 0x0, 0x0, fun _ _ => 0x0⟩,
   ⟨0xD00004, 1, 4, 1, 4, 0xFFFFFFFF, 0x0, 0x0, 0x0, 0x0, fun _ _ => 0xC350⟩,
   ⟨0xD00008, 1, 4, 1, 4, 0xFFFFFF, 0x0, 0x0, 0x0, 0x0, fun _ _ => 0x100202⟩,
   ⟨0xD0000C, 1, 4, 1, 4, 0xFFFFFFFF, 0x0, 0x0, 0x0, 0x0, fun _ _ => 0x7A120⟩,
   ⟨0xD00010, 1, 4, 1, 4, 0xFFFFFFFF, 0x0, 0x0, 0x0, 0x0, fun _ _ => 0x0⟩,
   ⟨0xD00014, 1, 4, 1, 4, 0xFFFFFFFF, 0x0, 0x0, 0x0, 0x0, fun _ _ => 0xF4240⟩,
   ⟨0xD00018, 1, 4, 1, 4, 0xFFFFFFFF, 0x0, 0x0, 0x0, 0x0, fun _ _ => 0x1E8480⟩,
   ⟨0xD0001C, 1, 4, 1, 4, 0xFFFFFFFF, 0x0, 0x0, 0x0, 0x0, fun _ _ => 0x10000⟩,
   ⟨0xD00020, 1, 4, 1, 4, 0xFFFFFFFF, 0x0, 0x0, 0x0, 0x0, fun _ _ => 0x0⟩,
   ⟨0xD00024, 1, 4, 1, 4, 0x0, 0x0, 0x0, 0x0, 0x0, fun _ _ => 0x0⟩,
   ⟨0xD00028, 1, 4, 1, 4, 0x0, 0x0, 0x0, 0xCFFFF00F, 0x0, fun _ _ => 0x0⟩,
   ⟨0xD00030, 1, 4, 1, 4, 0x0, 0x0, 0x0, 0xFFFFFFFF, 0x0, fun _ _ => 0x0⟩,
   ⟨0xD00034, 1, 4, 1, 4, 0x0, 0x0, 0x0, 0xFFFF, 0x0, fun _ _ => 0x0⟩,
   ⟨0xD00100, 12, 64, 1, 4, 0xF0FFFFFF, 0x0, 0x0, 0x0, 0x0, fun _ _ => 0x1008E020⟩,
   ⟨0xD00104, 12, 64, 1, 4, 0xFFFFFF, 0x0, 0x0, 0x0, 0x0, fun _ _ => 0xC08040⟩,
   ⟨0xD00108, 12, 64, 1, 4, 0xFFF, 0x0, 0x0, 0x0, 0x0, fun _ _ => 0x121⟩,
   ⟨0xD0010C, 12, 64, 1, 4, 0xFFFFFFFF, 0x0, 0x0, 0x0, 0x0, fun _ _ => 0x0⟩,
   ⟨0xD00110, 12, 64, 1, 4, 0xFFFF, 0x0, 0x0, 0x0, 0x0, fun _ _ => 0x0⟩,
   ⟨0xD00114, 12, 64, 1, 4, 0x3FFFF00, 0x0, 0x0, 0x0, 0x0, fun _ _ => 0x400400⟩,
   ⟨0xD00118, 12, 64, 1, 4, 0x3FF03FF, 0x0, 0x0, 0x0, 0x0, fun _ _ => 0x3F03C0⟩,
   ⟨0xD0011C, 12, 64, 1, 4, 0x0, 0x0, 0x0, 0x0, 0x0, fun _ _ => 0x0⟩,
   ⟨0xD00120, 12, 64, 1, 4, 0x0, 0x0, 0x0, 0xE0FFFF00, 0x0, fun _ _ => 0x0⟩,
   ⟨0xD00124, 12, 64, 1, 4, 0x0, 0x0, 0x0, 0xFFFFFFFF, 0x0, fun _ _ => 0x0⟩,
   ⟨0xD00128, 12, 64, 1, 4, 0x0, 0x0, 0x0, 0xFFFF, 0x0, fun _ _ => 0x0⟩,
   ⟨0xD0012C, 12, 64, 1, 4, 0x0, 0x0, 0x0, 0xFFFFFFFF, 0x0, fun _ _ => 0x0⟩,
   ⟨0xD00130, 12, 64, 1, 4, 0x0, 0x0, 0x0, 0x3FF, 0x0, fun _ _ => 0x0⟩,
   ⟨0xD00134, 12, 64, 1, 4, 0x0, 0x0, 0x0, 0xFFFFFFFF, 0x0, fun _ _ => 0x0⟩,
   ⟨0xD00138, 12, 64, 1, 4, 0x0, 0x0, 0x0, 0xFFFF, 0x0, fun _ _ => 0x0⟩,
   ⟨0xD0013C, 12, 64, 1, 4, 0x0, 0x0, 0x0, 0xFFFFFFFF, 0x0, fun _ _ => 0x0⟩]
/-- LMP block registers, part 0. -/
def lmpDefs0 : List RegDef :=
  [⟨0xE00000, 1, 4, 1, 4, 0x801FFFFF, 0x0, 0x0, 0x0, 0x0, fun _ _ => 0x0⟩,
   ⟨0xE00004, 1, 4, 1, 4, 0xFFFFFFF, 0x0, 0x0, 0x0, 0x0, fun _ _ => 0x32803E8⟩,
   ⟨0xE00008, 1, 4, 1, 4, 0xFF00FFFF, 0x0, 0x0, 0x0, 0x0, fun _ _ => 0x32001388⟩,
   ⟨0xE0000C, 1, 4, 1, 4, 0x1, 0x0, 0x0, 0x0, 0x0, fun _ _ => 0x0⟩,
   ⟨0xE00010, 1, 4, 1, 4, 0xFFFFFFFF, 0x0, 0x0, 0x0, 0x0, fun _ _ => 0x989680⟩,
   ⟨0xE00014, 1, 4, 1, 4, 0xFFFFFFFF, 0x0, 0x0, 0x0, 0x0, fun _ _ => 0x0⟩,
   ⟨0xE00018, 1, 4, 1, 4, 0xFFFF, 0x0, 0x0, 0x0, 0x0, fun _ _ => 0x0⟩,
   ⟨0xE0001C, 1, 4, 1, 4, 0x0, 0x0, 0x0, 0x0, 0x0, fun _ _ => 0x0⟩,
   ⟨0xE00020, 1, 4, 1, 4, 0xC0FF00FF, 0x0, 0x0, 0x0, 0x0, fun _ _ => 0x200010⟩,
   ⟨0xE00024, 1, 4, 1, 4, 0xFFF0FFF, 0x0, 0x0, 0x0, 0x0, fun _ _ => 0xFFF0000⟩,
   ⟨0xE00028, 1, 4, 1, 4, 0xFFFFFFFF, 0x0, 0x0, 0x0, 0x0, fun _ _ => 0x12C0320⟩,
   ⟨0xE0002C, 1, 4, 1, 4, 0xFFF, 0x0, 0x0, 0x0, 0x0, fun _ _ => 0x0⟩,
   ⟨0xE00030, 1, 4, 1, 4, 0x0, 0x0, 0x0, 0xFFFF0FFF, 0x0, fun _ _ => 0x0⟩,
   ⟨0xE00034, 1, 4, 1, 4, 0x0, 0x0, 0x0, 0xFFFFFFFF, 0x0, fun _ _ => 0x0⟩,
   ⟨0xE00038, 1, 4, 1, 4, 0x0, 0x0, 0x0, 0xFFFFFFFF, 0x0, fun _ _ => 0x0⟩,
   ⟨0xE0003C, 1, 4, 1, 4, 0xF, 0x0, 0x0, 0x0, 0x0, fun _ _ => 0x0⟩,
   ⟨0xE00040, 1, 4, 1, 4, 0xC00000FF, 0x0, 0x0, 0x0, 0x0, fun _ _ => 0x40000064⟩,
   ⟨0xE00080, 16, 4, 1, 4, 0xFFFFFFFF, 0x0, 0x0, 0x0, 0x0, fun _ _ => 0x0⟩,
   ⟨0xE00100, 16, 64, 1, 4, 0xF3F0003, 0x0, 0x0, 0x0, 0x0, fun _ _ => 0xF200003⟩,
   ⟨0xE00104, 16, 64, 1, 4, 0xFFFFFFFF, 0x0, 0x0, 0x0, 0x0, fun _ _ => 0x0⟩,
   ⟨0xE00108, 16, 64, 1, 4, 0xFFFFFFFF, 0xFFFFFFFF, 0x0, 0x0, 0x0, fun _ _ => 0x0⟩,
   ⟨0xE0010C, 16, 64, 1, 4, 0x8000FFFF, 0x8000FFFF, 0x0, 0x0, 0x0, fun _ _ => 0x0⟩,
   ⟨0xE00110, 16, 64, 1, 4, 0x1FFFF, 0x0, 0x0, 0x0, 0x0, fun _ _ => 0x0⟩,
   ⟨0xE00114, 16, 64, 1, 4, 0x1FFFF, 0x0, 0x0, 0x0, 0x0, fun _ _ => 0xF00⟩,
   ⟨0xE00118, 16, 64, 1, 4, 0x0, 0x0, 0x0, 0xFFFFFFFF, 0x0, fun _ _ => 0x0⟩,
   ⟨0xE0011C, 16, 64, 1, 4, 0x0, 0x0, 0x0, 0xFFFFFFFF, 0x0, fun _ _ => 0x0⟩,
   ⟨0xE00120, 16, 64, 1, 4, 0x0, 0x0, 0x0, 0xFFFFFFFF, 0x0, fun _ _ => 0x0⟩,
   ⟨0xE00124, 16, 64, 1, 4, 0x0, 0x0, 0x0, 0xFFFFFFFF, 0xFFFFFFFF, fun _ _ => 0x0⟩,
   ⟨0xE00128, 16, 64, 1, 4, 0x0, 0x0, 0x0, 0xFFFF, 0xFFFF, fun _ _ => 0x0⟩,
   ⟨0xE0012C, 16, 64, 1, 4, 0x0, 0x0, 0x0, 0xFFFFFFFF, 0xFFFFFFFF, fun _ _ => 0x0⟩]
/-- LMP block registers, part 1. -/
def lmpDefs1 : List RegDef :=
  [⟨0xE00130, 16, 64, 1, 4, 0x0, 0x0, 0x0, 0xFFFFFFFF, 0x0, fun _ _ => 0x0⟩]
def lmpDefs : List RegDef := lmpDefs0 ++ lmpDefs1
/-- DRC block registers. -/
def drcDefs : List RegDef :=
  [⟨0xF00000, 1, 4, 1, 4, 0x0, 0x0, 0x0, 0x30F13, 0x0, fun _ _ => 0x0⟩,
   ⟨0xF00004, 1, 4, 1, 4, 0x0, 0x0, 0x0, 0xF0FF0003, 0x0, fun _ _ => 0x0⟩,
   ⟨0xF00008, 1, 4, 1, 4, 0x1, 0x0, 0x0, 0x0, 0x0, fun _ _ => 0x0⟩,
   ⟨0xF0000C, 1, 4, 1, 4, 0xFFFF, 0x0, 0x0, 0x0, 0x0, fun _ _ => 0x7D00⟩,
   ⟨0xF00010, 1, 4, 1, 4, 0x0, 0x0, 0x0, 0xFFFFFFFF, 0x0, fun _ _ => 0x0⟩,
   ⟨0xF00014, 1, 4, 1, 4, 0x0, 0x0, 0x0, 0x7, 0x0, fun _ _ => 0x0⟩,
   ⟨0xF00018, 1, 4, 1, 4, 0xF, 0x0, 0x0, 0x0, 0x0, fun _ _ => 0x8⟩,
   ⟨0xF0001C, 1, 4, 1, 4, 0xFF, 0x0, 0x0, 0x0, 0x0, fun _ _ => 0x4⟩,
   ⟨0xF00020, 1, 4, 1, 4, 0x1FFFF, 0x0, 0x0, 0x0, 0x0, fun _ _ => 0x10400⟩,
   ⟨0xF00024, 1, 4, 1, 4, 0xFF, 0x0, 0x0, 0x0, 0x0, fun _ _ => 0x14⟩,
   ⟨0xF00028, 1, 4, 1, 4, 0x8000FFFF, 0x0, 0x0, 0x0, 0x0, fun _ _ => 0x80000018⟩,
   ⟨0xF0002C, 1, 4, 1, 4, 0xFFFF00FF, 0x0, 0x0, 0x0, 0x0, fun _ _ => 0x1⟩,
   ⟨0xF00030, 1, 4, 1, 4, 0x100, 0x0, 0x0, 0x0, 0x0, fun _ _ => 0x0⟩,
   ⟨0xF00040, 1, 4, 1, 4, 0x0, 0x0, 0x0, 0xFFFFFFFF, 0x0, fun _ _ => 0x0⟩,
   ⟨0xF00044, 1, 4, 1, 4, 0x0, 0x0, 0x0, 0x80000007, 0x0, fun _ _ => 0x0⟩,
   ⟨0xF00048, 1, 4, 1, 4, 0x0, 0x0, 0x0, 0xFFFFFFFF, 0x0, fun _ _ => 0x0⟩,
   ⟨0xF00100, 2, 64, 1, 4, 0x0, 0x0, 0x0, 0xC1000000, 0xC0000000, fun _ _ => 0x0⟩,
   ⟨0xF00104, 2, 64, 1, 4, 0x0, 0x0, 0x0, 0xFFFFFFFF, 0x0, fun _ _ => 0x0⟩,
   ⟨0xF00108, 2, 64, 1, 4, 0x0, 0x0, 0x0, 0xFFFF, 0x0, fun _ _ => 0x0⟩,
   ⟨0xF0010C, 2, 64, 1, 4, 0x0, 0x0, 0x0, 0xFFFFFF0F, 0x0, fun _ _ => 0x0⟩,
   ⟨0xF00110, 2, 64, 1, 4, 0x0, 0x0, 0x0, 0xFFFFFFFF, 0x0, fun _ _ => 0x0⟩,
   ⟨0xF00114, 2, 64, 1, 4, 0x0, 0x0, 0x0, 0x1F1F1F1F, 0x0, fun _ _ => 0x0⟩,
   ⟨0xF00118, 2, 64, 1, 4, 0x0, 0x0, 0x0, 0xFFFFFFFF, 0x0, fun _ _ => 0x0⟩,
   ⟨0xF0011C, 2, 64, 1, 4, 0x0, 0x0, 0x0, 0xFFFFFFFF, 0x0, fun _ _ => 0x0⟩,
   ⟨0xF00120, 2, 64, 1, 4, 0x0, 0x0, 0x0, 0xFFFF, 0x0, fun _ _ => 0x0⟩]
/-- DPX block registers. -/
def dpxDefs : List RegDef :=
  [⟨0x1000000, 1, 4, 1, 4, 0xFF00F033, 0x0, 0x0, 0x0, 0x0, fun _ _ => 0x64000030⟩,
   ⟨0x1000004, 1, 4, 1, 4, 0x0, 0x0, 0x0, 0x0, 0x0, fun _ _ => 0x0⟩,
   ⟨0x1000008, 1, 4, 1, 4, 0x0, 0x0, 0x0, 0xFCF00FFF, 0x0, fun _ _ => 0x0⟩,
   ⟨0x100000C, 1, 4, 1, 4, 0xFFFF, 0x0, 0x0, 0xFFFF0000, 0x0, fun _ _ => 0x0⟩,
   ⟨0x1000010, 1, 4, 1, 4, 0x0, 0x0, 0x0, 0xFFFFFFFF, 0x0, fun _ _ => 0x0⟩,
   ⟨0x1000014, 1, 4, 1, 4, 0xFFFFFFFF, 0x0, 0x0, 0x0, 0x0, fun _ _ => 0xC350⟩,
   ⟨0x1000018, 1, 4, 1, 4, 0x0, 0x0, 0x0, 0xFFFFFFFF, 0x0, fun _ _ => 0x0⟩,
   ⟨0x100001C, 1, 4, 1, 4, 0x0, 0x0, 0x0, 0xF000FFFF, 0x0, fun _ _ => 0x0⟩,
   ⟨0x1000020, 1, 4, 1, 4, 0x0, 0x0, 0x0, 0xFFFFFFFF, 0x0, fun _ _ => 0x0⟩,
   ⟨0x1000024, 1, 4, 1, 4, 0x0, 0x0, 0x0, 0xFFFF, 0x0, fun _ _ => 0x0⟩,
   ⟨0x1000028, 1, 4, 1, 4, 0x0, 0x0, 0x0, 0xFFFFFF00, 0x0, fun _ _ => 0x0⟩,
   ⟨0x1000100, 12, 16, 1, 4, 0x0, 0x0, 0x0, 0xFFFFFFFF, 0x0, fun _ _ => 0x0⟩,
   ⟨0x1000104, 12, 16, 1, 4, 0x0, 0x0, 0x0, 0xFFFFFF0F, 0x0, fun _ _ => 0x0⟩,
   ⟨0x1000108, 12, 16, 1, 4, 0x0, 0x0, 0x0, 0xFFFFFFFF, 0x0, fun _ _ => 0x0⟩,
   ⟨0x100010C, 12, 16, 1, 4, 0x0, 0x0, 0x0, 0xFFFF, 0x0, fun _ _ => 0x0⟩]
/-- PTP block registers. -/
def ptpDefs : List RegDef :=
  [⟨0x1100000, 1, 4, 1, 4, 0xFC7FFFFF, 0x0, 0x0, 0x0, 0x0, fun _ _ => 0x8080⟩,
   ⟨0x1100004, 1, 4, 1, 4, 0xFFFFFFFF, 0x0, 0x0, 0x0, 0x0, fun _ _ => 0xFC010003⟩,
   ⟨0x1100008, 1, 4, 1, 4, 0xFFFFFFFF, 0x0, 0x0, 0x0, 0x0, fun _ _ => 0x20640840⟩,
   ⟨0x110000C, 1, 4, 1, 4, 0x0, 0x0, 0x0, 0x0, 0x0, fun _ _ => 0x0⟩,
   ⟨0x1100010, 1, 4, 1, 4, 0x0, 0x0, 0x0, 0xFC0FFFFF, 0x0, fun _ _ => 0x0⟩,
   ⟨0x1100014, 1, 4, 1, 4, 0x0, 0x0, 0x0, 0x0, 0x0, fun _ _ => 0x0⟩,
   ⟨0x1100018, 1, 4, 1, 4, 0x0, 0x0, 0x0, 0x0, 0x0, fun _ _ => 0x0⟩,
   ⟨0x110001C, 1, 4, 1, 4, 0x0, 0x0, 0x0, 0x0, 0x0, fun _ _ => 0x0⟩,
   ⟨0x1100020, 1, 4, 1, 4, 0xFFFFFFFF, 0x0, 0x0, 0x0, 0x0, fun _ _ => 0x0⟩,
   ⟨0x1100024, 1, 4, 1, 4, 0xFFFFFFFF, 0x0, 0x0, 0x0, 0x0, fun _ _ => 0x0⟩,
   ⟨0x1100028, 1, 4, 1, 4, 0xFFFFFFFF, 0x0, 0x0, 0x0, 0x0, fun _ _ => 0x0⟩,
   ⟨0x110002C, 1, 4, 1, 4, 0x0, 0x0, 0x0, 0xFFFFFFFF, 0x0, fun _ _ => 0x0⟩,
   ⟨0x1100030, 1, 4, 1, 4, 0x0, 0x0, 0x0, 0xFFFFFFFF, 0x0, fun _ _ => 0x0⟩,
   ⟨0x1100034, 1, 4, 1, 4, 0x0, 0x0, 0x0, 0xFFFFFFFF, 0x0, fun _ _ => 0x0⟩,
   ⟨0x1100038, 1, 4, 1, 4, 0x0, 0x0, 0x0, 0xFFFFFFFF, 0x0, fun _ _ => 0x0⟩,
   ⟨0x110003C, 1, 4, 1, 4, 0x0, 0x0, 0x0, 0xFFFFFFFF, 0x0, fun _ _ => 0x0⟩,
   ⟨0x1100040, 1, 4, 1, 4, 0x0, 0x0, 0x0, 0xFFFFFFFF, 0x0, fun _ _ => 0x0⟩,
   ⟨0x1100044, 1, 4, 1, 4, 0x0, 0x0, 0x0, 0xFFFFFFFF, 0x0, fun _ _ => 0x0⟩,
   ⟨0x1100048, 1, 4, 1, 4, 0x0, 0x0, 0x0, 0xFFFFFFFF, 0x0, fun _ _ => 0x0⟩,
   ⟨0x1100080, 2, 16, 1, 4, 0xFFFFFFFF, 0x0, 0x0, 0x0, 0x0, fun _ _ => 0x0⟩,
   ⟨0x1100084, 2, 16, 1, 4, 0xFFFFFFFF, 0x0, 0x0, 0x0, 0x0, fun _ _ => 0x0⟩,
   ⟨0x1100088, 2, 16, 1, 4, 0xFFFFFFFF, 0x0, 0x0, 0x0, 0x0, fun _ _ => 0x0⟩,
   ⟨0x1100100, 4, 16, 1, 4, 0xFFFFFFFF, 0x0, 0x0, 0x0, 0x0, fun _ _ => 0x0⟩,
   ⟨0x1100104, 4, 16, 1, 4, 0xFFFF, 0x0, 0x0, 0x0, 0x0, fun _ _ => 0x0⟩,
   ⟨0x1100108, 4, 16, 1, 4, 0xFFFFFFFF, 0x0, 0x0, 0x0, 0x0, fun _ _ => 0x0⟩,
   ⟨0x110010C, 4, 16, 1, 4, 0xF, 0x0, 0x0, 0x0, 0x0, fun _ _ => 0x0⟩]
/-- HST block registers. -/
def hstDefs : List RegDef :=
  [⟨0x1200000, 1, 4, 1, 4, 0x0, 0x0, 0x0, 0x0, 0x0, fun _ _ => 0x0⟩,
   ⟨0x1200010, 1, 4, 1, 4, 0xFFF00000, 0x0, 0x0, 0x0, 0x0, fun _ _ => 0x0⟩,
   ⟨0x1200014, 1, 4, 1, 4, 0x7, 0x0, 0x0, 0x0, 0x0, fun _ _ => 0x0⟩,
   ⟨0x1200020, 1, 4, 1, 4, 0x0, 0x0, 0xFFFFFFFF, 0x0, 0x0, fun _ _ => 0x0⟩,
   ⟨0x1200024, 1, 4, 1, 4, 0x0, 0x0, 0xFFFFFFFF, 0x0, 0x0, fun _ _ => 0x0⟩,
   ⟨0x1200028, 1, 4, 1, 4, 0xFFFFFFFF, 0x0, 0x0, 0x0, 0x0, fun _ _ => 0x0⟩,
   ⟨0x120002C, 1, 4, 1, 4, 0xFFFFFFFF, 0x0, 0x0, 0x0, 0x0, fun _ _ => 0x0⟩,
   ⟨0x1200040, 1, 4, 1, 4, 0x8000FFFF, 0x0, 0x0, 0x0, 0x0, fun _ _ => 0xC850⟩,
   ⟨0x1200044, 1, 4, 1, 4, 0xFFFFFFFF, 0x0, 0x0, 0x0, 0x0, fun _ _ => 0x0⟩,
   ⟨0x1200048, 1, 4, 1, 4, 0xFFFFFFFF, 0x0, 0x0, 0x0, 0x0, fun _ _ => 0x0⟩,
   ⟨0x120004C, 1, 4, 1, 4, 0x0, 0x0, 0x0, 0x0, 0x0, fun _ _ => 0x0⟩,
   ⟨0x1200050, 1, 4, 1, 4, 0x0, 0x0, 0x0, 0x0, 0x0, fun _ _ => 0x0⟩,
   ⟨0x1200100, 2, 32, 1, 4, 0xFFFFFFFF, 0x0, 0x0, 0x0, 0x0, fun _ _ => 0x0⟩,
   ⟨0x1200104, 2, 32, 1, 4, 0xFFFFFFFF, 0x0, 0x0, 0x0, 0x0, fun _ _ => 0x0⟩,
   ⟨0x1200108, 2, 32, 1, 4, 0xFFFF, 0x0, 0x0, 0x0, 0x0, fun _ _ => 0x40⟩,
   ⟨0x120010C, 2, 32, 1, 4, 0x0, 0x0, 0x0, 0x0, 0x0, fun _ _ => 0x0⟩,
   ⟨0x1200110, 2, 32, 1, 4, 0xFFFF, 0x0, 0x0, 0x0, 0x0, fun _ _ => 0x0⟩,
   ⟨0x1200114, 2, 32, 1, 4, 0x803F0000, 0x0, 0x0, 0x0, 0x0, fun _ _ => 0x0⟩,
   ⟨0x1200118, 2, 32, 1, 4, 0x0, 0x0, 0x0, 0x0, 0x0, fun _ _ => 0x0⟩,
   ⟨0x120011C, 2, 32, 1, 4, 0x0, 0x0, 0x0, 0x0, 0x0, fun _ _ => 0x0⟩,
   ⟨0x1210000, 64, 16, 1, 4, 0xFFFFFFFF, 0x0, 0x0, 0x0, 0x0, fun _ _ => 0x0⟩,
   ⟨0x1210004, 64, 16, 1, 4, 0xFFFFFFFF, 0x0, 0x0, 0x0, 0x0, fun _ _ => 0x0⟩,
   ⟨0x1210008, 64, 16, 1, 4, 0xFFFFFFFF, 0x0, 0x0, 0x0, 0x0, fun _ _ => 0x0⟩,
   ⟨0x121000C, 64, 16, 1, 4, 0x1, 0x0, 0x0, 0x0, 0x0, fun _ _ => 0x1⟩,
   ⟨0x1211000, 2, 4, 1, 4, 0x0, 0x0, 0x0, 0x0, 0x0, fun _ _ => 0x0⟩]
/-- NET block registers. -/
def netDefs : List RegDef :=
  [⟨0x1300100, 2, 32, 1, 4, 0x0, 0x0, 0x0, 0x0, 0x0, fun _ _ => 0x0⟩,
   ⟨0x1300104, 2, 32, 1, 4, 0x0, 0x0, 0x0, 0x0, 0x0, fun _ _ => 0x0⟩,
   ⟨0x1300108, 2, 32, 1, 4, 0x0, 0x0, 0x0, 0x0, 0x0, fun _ _ => 0x0⟩,
   ⟨0x130010C, 2, 32, 1, 4, 0x0, 0x0, 0x0, 0x0, 0x0, fun _ _ => 0x0⟩]
/-- DBG block registers. -/
def dbgDefs : List RegDef :=
  [⟨0x1400000, 1, 4, 1, 4, 0x0, 0x0, 0x0, 0x0, 0x0, fun _ _ => 0x0⟩,
   ⟨0x1400004, 1, 4, 1, 4, 0x1, 0x0, 0x0, 0x0, 0x0, fun _ _ => 0x0⟩,
   ⟨0x1400008, 1, 4, 1, 4, 0x0, 0x0, 0x0, 0x0, 0x0, fun _ _ => 0x0⟩]
/-- The reset contents of the vision tables (R255, R257): table n mod 8 of unit n div 8, word m. -/
def visTabReset (n m : Nat) : Nat :=
  match n % 8 with
  | 1 | 2 | 3 => if m ≤ 1024 then min 65535 (64 * m) else 0
  | 6 => if m < 128 then (if m % 4 = 1 then (1024 - 32 * (m / 4)) * 2 ^ 16 else if m % 4 = 2 then 32 * (m / 4) else 0) else 0
  | _ => 0

/-- Tables behind windows. -/
def windowDefs : List RegDef :=
  [⟨0x10000000, 24, 131072, 16384, 8, 0xFFF0FFF, 0x0, 0x0, 0x0, 0x0, fun _ _ => 0xFFF0FFF⟩,
   ⟨0x10000004, 24, 131072, 16384, 8, 0xFFF, 0x0, 0x0, 0x0, 0x0, fun _ _ => 0xFFF⟩,
   ⟨0x11000000, 96, 512, 128, 4, 0xFFFFFFFF, 0x0, 0x0, 0x0, 0x0, fun _ _ => 0x0⟩,
   ⟨0x12000000, 24, 16384, 4096, 4, 0xFFFFFFFF, 0x0, 0x0, 0x0, 0x0, fun _ _ => 0x0⟩,
   ⟨0x15000000, 8, 128, 32, 4, 0x0, 0x0, 0xFFFFFFFF, 0xFFFFFFFF, 0x0, fun _ _ => 0x0⟩,
   ⟨0x14000000, 16, 128, 32, 4, 0x80FFFFFF, 0x80FFFFFF, 0x0, 0x0, 0x0, fun _ _ => 0x0⟩,
   ⟨0x13000000, 32, 8192, 2048, 4, 0xFFFFFFFF, 0x0, 0x0, 0x0, 0x0, visTabReset⟩]

/-- The rows of the block that an address lies in: the block index is bits [28:20] of the address. -/
def defsAt (a : Nat) : List RegDef :=
  match a / 0x100000 with
  | 0 => sysDefs
  | 1 => rpcDefs
  | 2 => thmDefs
  | 3 => prsDefs
  | 4 => crcDefs
  | 5 => posDefs
  | 6 => ltcDefs
  | 7 => jobDefs
  | 8 => cdcDefs
  | 9 => scrDefs
  | 10 => nozDefs
  | 11 => zxlDefs
  | 12 => visDefs
  | 13 => denDefs
  | 14 => lmpDefs
  | 15 => drcDefs
  | 16 => dpxDefs
  | 17 => ptpDefs
  | 18 => hstDefs
  | 19 => netDefs
  | 20 => dbgDefs
  | _ => windowDefs

/-- The row and the indices of an address; none where no register is defined (R4). -/
def findIn : List RegDef → Nat → Option (RegDef × Nat × Nat)
  | [], _ => none
  | r :: rs, a =>
    match r.index a with
    | some (i, j) => some (r, i, j)
    | none => findIn rs a

def findReg (a : Nat) : Option (RegDef × Nat × Nat) := findIn (defsAt a) a

/-- The reset word of an address (R5); 0 where no register is defined (R4). -/
def resetWord (a : Nat) : Word :=
  match findReg a with
  | some (r, i, j) => BitVec.ofNat 32 (r.reset i j)
  | none => 0

end Sys2Proof.Machine
end

