-- ==== Sys2Proof/Machine/Events.lean ====
section
/-!
DEFINITION. The events of the chapters' event tables: code and class (R9, R10). The source block of a code is its high
byte: every table of spec/ lists only codes of its own block.
-/
namespace Sys2Proof.Machine

/-- A kind of event record: its code and class (0 INFO, 1 WARN, 2 FAULT, 3 FATAL; R9, R10). -/
structure EvKind where
  code : Nat
  cls : Nat
  deriving DecidableEq, Repr

def Ev.MODE_CHANGE : EvKind := ⟨0x0010, 0⟩
def Ev.MODE_REFUSED : EvKind := ⟨0x0011, 1⟩
def Ev.SAFE_ENTERED : EvKind := ⟨0x0012, 3⟩
def Ev.REG_DOMAIN_OFF : EvKind := ⟨0x0013, 1⟩
def Ev.BOOT_HALTED : EvKind := ⟨0x0014, 3⟩
def Ev.REVERSE : EvKind := ⟨0x0500, 2⟩
def Ev.ENC_FAULT : EvKind := ⟨0x0501, 2⟩
def Ev.ENC_CH_FAULT : EvKind := ⟨0x0502, 1⟩
def Ev.WEB_WRAP : EvKind := ⟨0x0503, 0⟩
def Ev.INDEX_REHOMED : EvKind := ⟨0x0504, 0⟩
def Ev.DIR_CHANGE : EvKind := ⟨0x0505, 0⟩
def Ev.TRIM_DONE : EvKind := ⟨0x0506, 0⟩
def Ev.TRIM_APPLIED : EvKind := ⟨0x0507, 0⟩
def Ev.TRIM_REFUSED : EvKind := ⟨0x0508, 1⟩
def Ev.TRIM_LOAD_BAD : EvKind := ⟨0x0509, 1⟩
def Ev.POS_SET_REFUSED : EvKind := ⟨0x050A, 1⟩
def Ev.REG_FAULT : EvKind := ⟨0x0600, 2⟩
def Ev.REG_WARN : EvKind := ⟨0x0601, 1⟩
def Ev.LINE_OVERRATE : EvKind := ⟨0x0602, 1⟩
def Ev.LINE_GATED : EvKind := ⟨0x0603, 1⟩
def Ev.STROBE_CUT : EvKind := ⟨0x0604, 2⟩
def Ev.STROBE_DERATED : EvKind := ⟨0x0605, 0⟩
def Ev.TURNAROUND_SKIP : EvKind := ⟨0x0606, 1⟩
def Ev.CMP_OVERLAP : EvKind := ⟨0x0607, 1⟩
def Ev.CMP_LIST_DONE : EvKind := ⟨0x0608, 0⟩
def Ev.LTC_SET_REFUSED : EvKind := ⟨0x0609, 1⟩
def Ev.SET_LATE : EvKind := ⟨0x0020, 1⟩
def Ev.SET_REFUSED : EvKind := ⟨0x0021, 1⟩
def Ev.CFG_CONFLICT : EvKind := ⟨0x0022, 1⟩
def Ev.JOB_ENTRY_START : EvKind := ⟨0x0700, 0⟩
def Ev.JOB_ENTRY_DONE : EvKind := ⟨0x0701, 0⟩
def Ev.SCHED_UNDERRUN : EvKind := ⟨0x0702, 1⟩
def Ev.SCHED_ENTRY_BAD : EvKind := ⟨0x0703, 2⟩
def Ev.JOB_TRUNCATED : EvKind := ⟨0x0704, 1⟩
def Ev.JOB_LINES_SKIPPED : EvKind := ⟨0x0705, 1⟩
def Ev.JOB_POISON : EvKind := ⟨0x0706, 2⟩
def Ev.DMA_ERROR : EvKind := ⟨0x0707, 2⟩
def Ev.DMA_TIMEOUT : EvKind := ⟨0x0708, 2⟩
def Ev.CDC_ROW_BAD : EvKind := ⟨0x0800, 2⟩
def Ev.CAROUSEL_STARVED : EvKind := ⟨0x0900, 2⟩
def Ev.SCR_ROLLBACK : EvKind := ⟨0x0901, 0⟩
def Ev.SCR_WRITE_REFUSED : EvKind := ⟨0x0902, 1⟩
def Ev.GAIN_POISON : EvKind := ⟨0x0903, 2⟩
def Ev.MISSING_STRIPE : EvKind := ⟨0x0A00, 2⟩
def Ev.HEAD_OVT : EvKind := ⟨0x0A01, 1⟩
def Ev.HEAD_OVT_HOLD : EvKind := ⟨0x0A02, 2⟩
def Ev.HEAD_OVT_CLEAR : EvKind := ⟨0x0A03, 0⟩
def Ev.SPREAD_LOST : EvKind := ⟨0x0A04, 1⟩
def Ev.NOZ_WRITE_REFUSED : EvKind := ⟨0x0A05, 1⟩
def Ev.HEAD_CHANGED : EvKind := ⟨0x0A06, 0⟩
def Ev.HEAD_LIFE_WARN : EvKind := ⟨0x0A07, 1⟩
def Ev.HEAD_LIFE_END : EvKind := ⟨0x0A08, 1⟩
def Ev.LANE_UP : EvKind := ⟨0x0B00, 0⟩
def Ev.LANE_DOWN : EvKind := ⟨0x0B01, 2⟩
def Ev.LANE_FAILED : EvKind := ⟨0x0B02, 2⟩
def Ev.LANE_RATE_LOW : EvKind := ⟨0x0B03, 1⟩
def Ev.LANE_REQ_REFUSED : EvKind := ⟨0x0B04, 1⟩
def Ev.LANE_EQ_LIMIT : EvKind := ⟨0x0B05, 1⟩
def Ev.EP_RX_CRC : EvKind := ⟨0x0B10, 1⟩
def Ev.EP_FIRE_MISS : EvKind := ⟨0x0B11, 1⟩
def Ev.EP_STROBE_CUT : EvKind := ⟨0x0B12, 2⟩
def Ev.EP_HEAD_FAULT : EvKind := ⟨0x0B13, 2⟩
def Ev.EP_SUPPLY : EvKind := ⟨0x0B14, 2⟩
def Ev.EP_LATE_APPLY : EvKind := ⟨0x0B15, 1⟩
def Ev.EP_STORE : EvKind := ⟨0x0B16, 1⟩
def Ev.EP_FAULT_CLEAR : EvKind := ⟨0x0B17, 0⟩
def Ev.EP_EPOCH_MISMATCH : EvKind := ⟨0x0B18, 2⟩
def Ev.EP_MODE_ABORTED : EvKind := ⟨0x0B19, 1⟩
def Ev.EP_MODE_LATE : EvKind := ⟨0x0B1A, 1⟩
def Ev.EP_PUSH_FAILED : EvKind := ⟨0x0B1B, 2⟩
def Ev.EP_NO_RESPONSE : EvKind := ⟨0x0B1C, 1⟩
def Ev.EP_SLOT_MISSING : EvKind := ⟨0x0B1D, 2⟩
def Ev.EP_DELAY_LIMIT : EvKind := ⟨0x0B1E, 2⟩
def Ev.VIS_VSYNC_TMO : EvKind := ⟨0x0C00, 1⟩
def Ev.VIS_FRAME_BAD : EvKind := ⟨0x0C01, 1⟩
def Ev.VIS_OVERRUN : EvKind := ⟨0x0C02, 1⟩
def Ev.VIS_STREAM_DROP : EvKind := ⟨0x0C03, 1⟩
def Ev.VIS_STAT_LOST : EvKind := ⟨0x0C04, 1⟩
def Ev.VIS_SET_APPLIED : EvKind := ⟨0x0C05, 0⟩
def Ev.VIS_I2C_NACK : EvKind := ⟨0x0C06, 1⟩
def Ev.VIS_WRITE_REFUSED : EvKind := ⟨0x0C07, 1⟩
def Ev.DEN_BAND_DECIDED : EvKind := ⟨0x0D00, 0⟩
def Ev.DEN_BAND_BAD : EvKind := ⟨0x0D01, 1⟩
def Ev.DEN_UPDATE : EvKind := ⟨0x0D02, 0⟩
def Ev.DEN_SKIPPED : EvKind := ⟨0x0D03, 1⟩
def Ev.DEN_RESTORED : EvKind := ⟨0x0D04, 0⟩
def Ev.DEN_REFUSED : EvKind := ⟨0x0D05, 1⟩
def Ev.DEN_GAIN_LIMIT : EvKind := ⟨0x0D06, 1⟩
def Ev.LMP_MODULE_LOST : EvKind := ⟨0x0E00, 2⟩
def Ev.LMP_MODULE_BACK : EvKind := ⟨0x0E01, 0⟩
def Ev.LMP_LATCH_LATE : EvKind := ⟨0x0E02, 1⟩
def Ev.LMP_OPEN : EvKind := ⟨0x0E03, 1⟩
def Ev.LMP_UNVERIFIED : EvKind := ⟨0x0E04, 1⟩
def Ev.LMP_HEADROOM_LOW : EvKind := ⟨0x0E05, 1⟩
def Ev.LMP_COV_LATE : EvKind := ⟨0x0E06, 1⟩
def Ev.LMP_MODULE_CHANGED : EvKind := ⟨0x0E07, 0⟩
def Ev.LMP_LIFE_WARN : EvKind := ⟨0x0E08, 1⟩
def Ev.LMP_LIFE_END : EvKind := ⟨0x0E09, 1⟩
def Ev.DRC_CE : EvKind := ⟨0x0F00, 0⟩
def Ev.DRC_UE : EvKind := ⟨0x0F01, 2⟩
def Ev.DRC_RANK_RETIRED : EvKind := ⟨0x0F02, 2⟩
def Ev.DRC_MIG_DONE : EvKind := ⟨0x0F03, 0⟩
def Ev.DRC_HOT : EvKind := ⟨0x0F04, 1⟩
def Ev.DRC_COOL : EvKind := ⟨0x0F05, 0⟩
def Ev.DRC_TEMP_LIMIT : EvKind := ⟨0x0F06, 2⟩
def Ev.DRC_RH_REFRESH : EvKind := ⟨0x0F07, 0⟩
def Ev.DRC_TRACK_LIMIT : EvKind := ⟨0x0F08, 1⟩
def Ev.DRC_OP_DONE : EvKind := ⟨0x0F09, 0⟩
def Ev.DRC_REQ_REFUSED : EvKind := ⟨0x0F0A, 1⟩
def Ev.DRC_NO_SPARE : EvKind := ⟨0x0F0B, 1⟩
def Ev.DPX_SYNCED : EvKind := ⟨0x1000, 0⟩
def Ev.DPX_SYNC_FAILED : EvKind := ⟨0x1001, 1⟩
def Ev.DPX_MIRROR_DEGRADED : EvKind := ⟨0x1002, 1⟩
def Ev.DPX_PARTNER_LOST : EvKind := ⟨0x1003, 2⟩
def Ev.DPX_LCRC_MISMATCH : EvKind := ⟨0x1004, 1⟩
def Ev.DPX_SELF_FAULT : EvKind := ⟨0x1005, 2⟩
def Ev.DPX_TAKEOVER : EvKind := ⟨0x1006, 2⟩
def Ev.DPX_GAP : EvKind := ⟨0x1007, 2⟩
def Ev.DPX_DEPOSED : EvKind := ⟨0x1008, 3⟩
def Ev.DPX_SET_MISMATCH : EvKind := ⟨0x1009, 1⟩
def Ev.DPX_POS_DIVERGE : EvKind := ⟨0x100A, 1⟩
def Ev.DPX_CLAIM_EXHAUSTED : EvKind := ⟨0x100B, 2⟩
def Ev.DPX_REFUSED : EvKind := ⟨0x100C, 1⟩
def Ev.PTP_LOCKED : EvKind := ⟨0x1100, 0⟩
def Ev.PTP_LIGHTSHIP : EvKind := ⟨0x1101, 1⟩
def Ev.TIME_STEP_PENDING : EvKind := ⟨0x1102, 1⟩
def Ev.TIME_STEPPED : EvKind := ⟨0x1103, 0⟩
def Ev.PTP_STEP_CLEARED : EvKind := ⟨0x1104, 0⟩
def Ev.PTP_ACT_DONE : EvKind := ⟨0x1105, 0⟩
def Ev.PTP_ACT_REFUSED : EvKind := ⟨0x1106, 1⟩
def Ev.PTP_MASTER_CHANGE : EvKind := ⟨0x1107, 0⟩
def Ev.BOOT_DONE : EvKind := ⟨0x0100, 0⟩
def Ev.BOOT_STEP_FAILED : EvKind := ⟨0x0101, 1⟩
def Ev.BOOT_STEP_SKIPPED : EvKind := ⟨0x0102, 1⟩
def Ev.BOOT_LOG_BAD : EvKind := ⟨0x0103, 1⟩
def Ev.BOOT_VIO_MISSING : EvKind := ⟨0x0104, 1⟩
def Ev.RST_REFUSED : EvKind := ⟨0x0105, 1⟩
def Ev.RST_DONE : EvKind := ⟨0x0106, 0⟩
def Ev.DOM_BROWNOUT : EvKind := ⟨0x0107, 2⟩
def Ev.CLK_LOST : EvKind := ⟨0x0108, 2⟩
def Ev.CRIT_ERROR : EvKind := ⟨0x0109, 3⟩
def Ev.THM_WARN : EvKind := ⟨0x0200, 1⟩
def Ev.THM_THROTTLE : EvKind := ⟨0x0201, 1⟩
def Ev.THM_STOP : EvKind := ⟨0x0202, 3⟩
def Ev.THM_CLEAR : EvKind := ⟨0x0203, 0⟩
def Ev.THM_SENSOR_BROKEN : EvKind := ⟨0x0204, 1⟩
def Ev.THM_TRIP_REPORT : EvKind := ⟨0x0205, 1⟩
def Ev.THM_HEAD_HOT : EvKind := ⟨0x0206, 1⟩
def Ev.PRS_REFUSED : EvKind := ⟨0x0300, 1⟩
def Ev.PRS_REMAP : EvKind := ⟨0x0301, 0⟩
def Ev.PRS_SPARES_OUT : EvKind := ⟨0x0302, 1⟩
def Ev.PRS_WRITE_FAIL : EvKind := ⟨0x0303, 2⟩
def Ev.PRS_CE : EvKind := ⟨0x0304, 0⟩
def Ev.PRS_UE : EvKind := ⟨0x0305, 2⟩
def Ev.CRC_MISMATCH : EvKind := ⟨0x0400, 1⟩
def Ev.CRC_ERROR : EvKind := ⟨0x0401, 1⟩
def Ev.FREEZE_REPORT : EvKind := ⟨0x1400, 1⟩
def Ev.EVT_LOST : EvKind := ⟨0x0015, 1⟩
def Ev.HST_LINK_UP : EvKind := ⟨0x1200, 0⟩
def Ev.HST_WIN_RANGE : EvKind := ⟨0x1201, 1⟩
def Ev.HST_EGR_ERROR : EvKind := ⟨0x1202, 2⟩
def Ev.HST_WRITE_REFUSED : EvKind := ⟨0x1203, 1⟩

end Sys2Proof.Machine
end

