-- ==== Sys2Proof/Machine/State.lean ====
section
/-!
DEFINITION. The state of the block: every register word, every FIFO, counter, mode and pin the spec gives it, and the queue
of waiting commands. The default of each field is its reset value; a default the spec does not give is named in the
assumption log (notes/assumptions) and in INVENTORY.md's State lines.
-/
namespace Sys2Proof.Machine

/-- The twelve modes (R18). -/
inductive Mode where
  | sleep | boot | idle | ready | print | hold | shuttle | calibrate | shadow | safe | shutdown | frozen
  deriving DecidableEq, Repr

/-- The mode code of SYS_MODE.MODE (R18). -/
def Mode.code : Mode → Nat
  | .sleep => 0 | .boot => 1 | .idle => 2 | .ready => 3 | .print => 4 | .hold => 5
  | .shuttle => 6 | .calibrate => 7 | .shadow => 8 | .safe => 9 | .shutdown => 10 | .frozen => 11

/-- The mode a code names; the codes above 0xB name none (R18). -/
def Mode.ofCode : Nat → Option Mode
  | 0 => some .sleep | 1 => some .boot | 2 => some .idle | 3 => some .ready | 4 => some .print | 5 => some .hold
  | 6 => some .shuttle | 7 => some .calibrate | 8 => some .shadow | 9 => some .safe | 10 => some .shutdown
  | 11 => some .frozen | _ => none

/-- A network time: seconds, nanoseconds, and 2^-16 ns (spec/00_scope.md, "Numbers and units"). -/
structure Time where
  sec : Nat := 0
  ns : Nat := 0
  frac : Nat := 0
  deriving DecidableEq, Repr

/-- An event record before it is written to the ring (R9); SEQ is given when it is written (R430). -/
structure Event where
  code : Nat
  cls : Nat
  bar : Nat
  ep : Option Nat
  web : Nat
  time : Time
  count : Nat
  detail : List Nat
  deriving DecidableEq, Repr

/-- A transition in progress or held: where it goes, its cause code (R25), whether the host asked for it, and whether the conditions of
R19 are still to be checked, after lanes have left L1 and L2 (R196). `at_` is when it began (R22), `evs` the FATAL records of its trigger,
raised once it is made (R10). -/
structure Trans where
  dest : Mode
  cause : Nat
  host : Bool
  exits : Bool := false
  at_ : Nat := 0
  evs : List Event := []
  stop : Nat := 0
  stopAt : Nat := 0
  deriving DecidableEq, Repr

/-- The mode and what SYS_MODE reports of it (R18 to R26). `holdFrom` is the mode HOLD was entered from, `endReady` says
that READY was entered through SCHEDULE_END, `schedDone` that the schedule is complete on every bar though HOLD won (R22), `causeAt` when
a transition last set CAUSE (R25). -/
structure Sys where
  mode : Mode := .boot
  prev : Mode := .sleep
  cause : Nat := 0
  causeAt : Option Nat := none
  halt : Bool := false
  deposed : Bool := false
  trans : Option Trans := none
  held : List Trans := []
  holdFrom : Mode := .print
  endReady : Bool := false
  schedDone : Bool := false
  deriving DecidableEq, Repr

/-- An open coalescing window: the record of its first occurrence, the key it folds by, when it opened, and the detail
words that add up over the window (word index and sum), and those that are ORed together. -/
structure Coal where
  key : Nat
  start : Nat
  span : Nat
  ev : Event
  sums : List (Nat × Nat)
  ors : List (Nat × Nat) := []
  deriving DecidableEq, Repr


/-- The state of a power domain (R374). -/
inductive DomState where
  | off | reset | pending | releaseWait | run
  deriving DecidableEq, Repr

/-- A power domain: its state, the reset sources that cover it, and those that have since it last ran (R374, R390). -/
structure Dom where
  st : DomState := .off
  src : Nat := 0
  seen : Nat := 0
  waitAt : Nat := 0
  deriving DecidableEq, Repr

/-- One filtered line of an encoder channel: accepted level, time of the last accepted change, last sampled level (R33). -/
structure Line where
  acc : Bool := false
  at_ : Nat := 0
  last : Bool := false
  deriving DecidableEq, Repr

/-- A serial transfer request: since when, and when its transfer started with a falling edge of ENCn_CK (R36, R38). -/
structure SsiReq where
  at_ : Nat
  run : Option Nat := none
  deriving DecidableEq, Repr

/-- Fault counts of the running fault window, one per kind of R52, and whether the window has raised its fault. -/
structure FaultWin where
  ill : Nat := 0
  glitch : Nat := 0
  check : Nat := 0
  timeout : Nat := 0
  jump : Nat := 0
  amp : Nat := 0
  excess : Nat := 0
  raised : Bool := false
  deriving DecidableEq, Repr

/-- An encoder channel beyond its registers. `phase` is the last phase of the untrimmed pair, on which the comparator path counts whole
periods, `fine` what the trimmed pair adds to it (R30); `low`, `high` count consecutive
samples out of range (R31), `back` is the last direction of motion, `moved` the signed motion of the
signal in this speed window, `lag` what the count has yet to follow since AMP_LOW was set or fine interpolation stopped (R31, R54), `since`
when the channel was enabled (R466), `ref` the index reference (R41), `idxDue` an index that waits for the edge of its cycle (R40), `reqAt`
the last request on the grid of PERIOD, `defer` a request that came during a transfer (R38), `word` the last accepted serial word, `silent`
the periods without one (R39). -/
structure PosCh where
  a : Line := {}
  b : Line := {}
  z : Line := {}
  phase : Option Nat := none
  fine : Int := 0
  low : Nat := 0
  high : Nat := 0
  back : Bool := false
  moved : Int := 0
  lag : Int := 0
  since : Nat := 0
  ref : Option Nat := none
  idxRaised : Bool := false
  idxDue : Bool := false
  reqAt : Option Nat := none
  defer : Bool := false
  ssi : Option SsiReq := none
  ssiEnd : Nat := 0
  word : Option Nat := none
  silent : Nat := 0
  win : FaultWin := {}
  deriving DecidableEq, Repr

/-- A trim interruption of the source channel (R54): from when on the coordinate advances at which speed (nm/s), how far it has, and the
motion by counts since, in 2^-24 nm. -/
structure Extrap where
  ch : Nat
  start : Nat
  speed : Int
  moved : Int := 0
  acc : Int := 0
  deriving DecidableEq, Repr

/-- A trim measurement (R53): the motion over which it runs and the motion so far in 1/4,096 period, and the extremes of the trimmed sine,
cosine, sum and difference once a sample has come, in 2^-16 of 0.1 mV. -/
structure Meas where
  need : Nat
  turned : Int := 0
  ext : Option (Vector (Int × Int) 4) := none
  deriving DecidableEq, Repr

/-- The position block. `web` and `hwm` hold 48 integer and 24 fraction bits of nm (R44); `acc` is the motion by source
counts in the running speed window, `accNext` that of the cycle that ends it (R48); `hist` the last 16 windows, newest first; the two
windows in effect and their starts (R466; `speedPrev` the start of the window before). `turned` is set while the inversion of the mark has
not been acted on by the line clocks. `setAt` is when the coordinate was last set (R46), `incAt` and `incs` the cycle in which fault
counters last rose and those that did (R52). `meas` and `applying` are trim measurements and interruptions with their start. -/
structure Pos where
  web : Nat := 0
  hwm : Nat := 0
  markDesc : Bool := false
  acc : Int := 0
  accNext : Int := 0
  setAt : Option Nat := none
  incAt : Nat := 0
  incs : List (Nat × Nat × Nat) := []
  hist : List (Nat × Bool) := []
  speedWin : Nat := 10
  speedStart : Nat := 0
  speedPrev : Nat := 0
  faultWin : Nat := 100
  faultStart : Nat := 0
  ch : Vector PosCh 4 := Vector.replicate 4 {}
  extrap : Option Extrap := none
  turned : Bool := false
  meas : Vector (Option Meas) 2 := Vector.replicate 2 none
  applying : Vector (Option Nat) 2 := Vector.replicate 2 none
  deriving DecidableEq, Repr

/-- A job-table entry as the schedule engine copies it (R93). -/
structure JobDesc where
  cls : Nat
  down : Nat
  across : Nat
  planes : Nat
  pitch : Nat
  lines : Nat
  width : Nat
  ratio : Nat
  stride : Nat
  base : Nat
  tag : Nat
  deriving DecidableEq, Repr

/-- A witness band decided after a copy of an entry (R268 to R270): its copy and bar, its y0 with 8 fraction bits, its N lines and
their three contone values, and the length that its insertion adds to the copies after it (0 in the gutter). -/
structure Band where
  copy : Nat
  bar : Nat
  y0 : Nat
  n : Nat
  levels : List Nat
  ins : Nat
  deriving DecidableEq, Repr

/-- A schedule entry held by the engine, with the job it names (R93, R96). `bands` are the witness bands decided after its copies. `rep` is the copy count, 0 while it repeats until
BREAK; `pitch` is the line pitch P (R69); `j0` is J of copy 0 with 8 fraction bits, once fixed (R97). -/
structure Entry where
  seq : Nat
  last : Bool
  anchor : Nat
  dir : Nat
  job : Nat
  rep : Nat
  gap : Nat
  pos : Nat
  desc : JobDesc
  pitch : Nat
  j0 : Option Nat
  bands : List Band := []
  deriving DecidableEq, Repr

/-- A line of a bar in its printing order: entry, unit, and how many lines of the unit come before it. Unit 2m is copy m of the
entry (or its pass), unit 2m + 1 the witness band that follows copy m on the band's bar (R268). -/
structure LinePos where
  seq : Nat
  copy : Nat
  idx : Nat
  deriving DecidableEq, Repr

/-- A captured settings set that is not yet applied on every bar (R107): its anchor, the staged registers it captured, the
line found for it on each bar, and the bars it has applied on. -/
structure SetRec where
  seq : Nat
  kind : Nat
  anchor : Nat
  fields : List (Nat × Word)
  lines : Vector (Option LinePos) 12 := Vector.replicate 12 none
  applied : Nat := 0
  cmpDone : Bool := false
  modeOn : Nat := 0
  lateBars : Nat := 0
  deriving DecidableEq, Repr

/-- An ingest channel's descriptor in progress (R105): its words, the payload the host holds for it, and when it began; where PD5 has gone
while the channel ran, the host address of the descriptor at HEAD (R130). -/
structure Ing where
  desc : Option (List Nat) := none
  data : List (BitVec 8) := []
  start : Nat := 0
  out : Nat := 0
  bad : Nat := 0
  orphan : Option Nat := none
  deriving DecidableEq, Repr

/-- The schedule engine, the settings sets and the ingest channels. `entries` are the entries copied since the engine started; sequence
numbers count on beyond the 32 bits that registers and records show (R95), `headSeq` that of the entry at HEAD; `used` are entries (number
and job) copied at a check or fetch (R94). `checked` are the jobs of every entry checked or fetched since the
engine started, each once (R114). `final` is the sequence number of the entry after which
the schedule ends, `setSeq` the number of the last captured set, `written` the staged registers written since the last capture, `fieldSeq` the newest set that applied
each field of each bar (R109). `cfgWritten` are the configuration registers written and not committed, `cfgWait` says that
a commit waits on mask patterns (R112, R161), `captured` are sets that ports and lamps have yet to take up. -/
structure JobSt where
  entries : List Entry := []
  checked : List JobDesc := []
  headSeq : Nat := 0
  used : List (Nat × Nat) := []
  nextSeq : Nat := 0
  final : Option Nat := none
  sets : List SetRec := []
  setSeq : Nat := 0
  written : List Nat := []
  fieldSeq : List (Nat × Nat) := []
  cfgWritten : List Nat := []
  cfgWait : Bool := false
  captured : List SetRec := []
  ing : Vector Ing 4 := Vector.replicate 4 {}
  deriving DecidableEq, Repr

/-- A line that has been issued and has not yet counted as fired (R67, R68). `fired` says its fire instant has passed,
`empty` that it starved (R149); `bad`, `placed` and `lost` are its slot's. -/
structure Issued where
  pos : LinePos
  k : Nat
  wire : Nat
  fireAt : Nat
  fired : Bool
  endAt : Nat
  empty : Bool := false
  bad : Nat := 0
  placed : Nat := 0
  lost : Nat := 0
  deriving DecidableEq, Repr

/-- A line of row A that waits for the row B FIRE block (R215). -/
structure RowB where
  wire : Nat
  f : Nat
  fireAt : Nat
  deriving DecidableEq, Repr

/-- A slot of the carousel: an assembled line (R148). `bad` is 1 where poison left it without drops and 2 where its block row failed
(R116, R132); `placed` and `lost` are the dots that spreading moved and could not place (R167). -/
structure Slot where
  pos : LinePos
  levels : List Nat
  committed : Bool
  sent : Bool := false
  bad : Nat := 0
  placed : Nat := 0
  lost : Nat := 0
  deriving DecidableEq, Repr

/-- The error-diffusion parameters a line was screened with (R143). -/
structure EdP where
  l1 : Nat
  l2 : Nat
  l3 : Nat
  wr : Nat
  wdl : Nat
  wd : Nat
  wdr : Nat
  eclamp : Nat
  namp : Nat
  deriving DecidableEq, Repr

/-- What a replay of a line needs (R151): its position, the values it was screened from (none for a line that was not
screened), its parameters, the bar's SCR and NOZ selections for it, and whether it leaves an error row (`ed`) and began from a reset one
(`reset`, R145). -/
structure Kept where
  pos : LinePos
  k : Nat
  x : Option (List Nat)
  p : EdP
  cfg : Word
  noz : Word
  ed : Bool
  reset : Bool
  deriving DecidableEq, Repr

/-- A decoded block row in decode staging: the row and its four lines, or none where it failed or, with `poison`, was poisoned (R116, R132). -/
structure Staged where
  seq : Nat
  copy : Nat
  row : Nat
  lines : Option (List (List Nat))
  poison : Bool := false
  deriving DecidableEq, Repr

/-- A bar's line clock, its lines in flight, and its screening path. `count` is in 2^-32 line, `inc` the increment of a CK9
cycle, `corr` and `corrN` a correction still to spread and the cycles left for it (R61, R63). `cur` is the copy the clock is
in, `next` the printing-order index of the next line to issue,
`firstLine` the first line issued since the last entry to PRINT or SHUTTLE (R108), `limit` where R99 truncates, `skip` the
lines of the copy that R98 skips. `cross` says that the count has crossed a multiple of LTC_BUOY.LINES since the last buoy (R62); `derAt`
are derating steps and the issue counts from which they apply (R74), `epWidth` the strobe width that the endpoints hold (R73). `tl` are the
values that apply from a line on, with the numbers of their sets, in order of lines (R107 to R109). `scrFrom` is the copy screening began in,
`reach` are the sets whose line has yet to fire on the bar, `arrived` those it has fired for (R264, R293), until ports and lamps have taken them up,
`wait` those that have reached their line while a mode change of the bar is outstanding (R227, R445). `scr` the line last screened, `car` the carousel in printing order, `work` and `com` the
error rows (R150), `kept` the lines a replay may need; `lateRes` what the screening of lines that missed their deadline found before their
issue (R149), `gain` the gain table held, by bank, and `gainNext` those of later lines from which a set changes the selection, none while the
load is due (R140). `lastLine` is the line that last passed its issue point, `lastK` the print line index of the last issued (R190). -/
structure BarSt where
  count : Int := 0
  inc : Nat := 0
  corr : Int := 0
  corrN : Nat := 0
  cur : Option (Nat × Nat) := none
  next : Nat := 0
  limit : Option Nat := none
  skip : Option (Nat × Nat) := none
  issued : List Issued := []
  lastLine : Option LinePos := none
  lastK : Nat := 0
  firstLine : Option LinePos := none
  rowB : List RowB := []
  lastBuoy : Nat := 0
  cross : Bool := false
  moved : Bool := false
  heldAt : Option Nat := none
  gatedEvt : Bool := false
  overAt : Option Nat := none
  skips : Nat := 0
  derStep : Nat := 0
  derAt : List (Nat × Nat) := []
  epWidth : Nat := 0
  done : Bool := false
  started : Option (Nat × Nat) := none
  tl : List (LinePos × Nat × Word × Nat) := []
  scrFrom : Option (Nat × Nat) := none
  scr : Option LinePos := none
  car : List Slot := []
  work : List Int := []
  com : List Int := []
  comPos : Option LinePos := none
  wasEd : Bool := false
  paused : Bool := false
  kept : List Kept := []
  replay : List Kept := []
  replaying : Bool := false
  starved : List LinePos := []
  lateRes : List (LinePos × Nat × Nat × Nat) := []
  staging : List Staged := []
  gain : Option (Nat × List Nat) := none
  gainNext : List (LinePos × Option (Nat × List Nat)) := []
  setSeq : Nat := 0
  firedAt : Option Nat := none
  reach : List (Nat × LinePos) := []
  arrived : List Nat := []
  wait : List Nat := []
  deriving DecidableEq, Repr

/-- A direct strobe output: level, when it rose, when it rises after the cycle for which it is low between two strobes, and the line whose
strobe it is (R68, R78, R79). -/
structure Stb where
  high : Bool := false
  rose : Nat := 0
  riseAt : Option Nat := none
  line : Nat := 0
  deriving DecidableEq, Repr

/-- A compare channel: the pass of a repeated list (R83), the coordinate last evaluated, entries crossed on a list that
has since been switched (R82), the end of the running pulse, when CMP_OVERLAP was last raised. -/
structure Cmp where
  pass : Nat := 0
  x : Nat := 0
  owed : Nat := 0
  pulse : Option Nat := none
  overAt : Option Nat := none
  deriving DecidableEq, Repr

/-- A head of the head map with what the device holds of it (R168 to R174). `ctr` is the live count, `saved` the persisted
one, `clearAt` since when its over-temperature bit has read clear; `inhibit` and `forced` what over-temperature handling asks for it, `span`
the span override in effect (0 none, 1 INHIBIT, 2 FORCE) and `spanQ` those sent, with the issue counts from which they apply (R163). -/
structure HeadSt where
  img : HeadImg
  present : Bool := false
  ovt : Bool := false
  inhibit : Bool := false
  forced : Bool := false
  lifeWarn : Bool := false
  lifeEnd : Bool := false
  id : Nat := 0
  model : Nat := 0
  rated : Nat := 0
  ctr : Nat := 0
  saved : Nat := 0
  savedAt : Option Nat := none
  clearAt : Option Nat := none
  span : Nat := 0
  spanQ : List (Nat × Nat) := []
  deriving DecidableEq, Repr

/-- Rows, masks and missing nozzles: the heads, those that became hot in the slot pass under way (R171), and when their counts were last persisted at the 30-minute mark. -/
structure NozSt where
  heads : List HeadSt := []
  newHot : List Nat := []
  lastPersist : Nat := 0
  deriving DecidableEq, Repr

/-- One entry of a MASK frame (R226). -/
structure MaskEntry where
  kind : Nat
  action : Nat
  row : Nat
  first : Nat
  arg : Nat
  deriving DecidableEq, Repr

/-- What the device sends: Zixlink frames (R206 to R230), the lamp bus, the mirror lanes, network messages, host-memory
writes, interrupt messages and flash transfers. The record of them is the model's own field; nothing reads it. -/
inductive Sent where
  | fire (lane bar row wire at_ : Nat) (ext abt : Bool)
  | line (lane bar wire phase first count : Nat) (levels : List Nat)
  | dmark (lane : Nat)
  | beacon (lane claim : Nat) (safe : Bool) (seq sec ns : Nat)
  | status (lane seq n : Nat)
  | mask (lane bar l seq : Nat) (entries : List MaskEntry)
  | cmd (lane : Nat) (bcast : Bool) (target tag op reg l : Nat) (words : List Nat)
  | mode (lane bar kind l epoch : Nat) (abt : Bool)
  | set_ (lane type : Nat) (d : List Nat)
  | lamp (bytes : List Nat)
  | lampBreak
  | mirror (lane type : Nat) (words : List Nat)
  | net (port kind : Nat) (words : List Nat)
  | host (addr : Nat) (bytes : List (BitVec 8))
  | msix (vec : Nat)
  | i2c (port : Nat) (wr : Bool) (dev reg : Nat) (data : Nat) (speed : Nat)
  | spi (rd : Bool) (op addr : Nat) (bytes : List Nat)
  | pin (name index : Nat) (level : Bool)
  | read (addr : Nat) (bytes : List (BitVec 8))
  deriving DecidableEq, Repr

/-- A MASK frame or broadcast that waits for its acknowledgements (R226): its number, the endpoints still to acknowledge,
when it was sent, how often it was resent, and the frame. -/
structure Push where
  seq : Nat
  eps : List Nat
  at_ : Nat
  tries : Nat
  frame : Sent
  deriving DecidableEq, Repr

/-- What a lane's transmitter sends next to one another: at RATES 1 to 3 a block of 8 bytes, control or data (R179), at RATE 0 a character, K or
D, as the one byte. -/
structure Blk where
  ctrl : Bool
  bytes : List Nat
  deriving DecidableEq, Repr

/-- The transmitter of a lane: frames that wait, in the order of R233, priority blocks that wait (R208), the rest of the frame being sent, the
part of a bit time left over (1/16 bits), the scrambler's last 58 bits, whether the running disparity is positive (R179), the next ALIGN
sequence number, the sets or blocks still to send of those that a state begins with (R186, R194, R195), the next character of an ordered
set, and what left the transmitter pin in the last CK9 cycle: 66-bit blocks or 10-bit characters, the bit sent first the least significant. -/
structure Tx where
  queue : List Sent := []
  prio : List Sent := []
  rest : List Blk := []
  credit : Nat := 0
  scr : Nat := 0
  disp : Bool := false
  align : Nat := 0
  count : Nat := 0
  out : List Nat := []
  deriving DecidableEq, Repr

/-- A lane beyond its registers (R182 to R196). `statAt` is when the STATUS frame `statSeq` was sent while it is out, `statOld` the
one before it with its sending time and the time by which it must have returned. `fails` counts consecutive failed bring-ups, `entered` is when its state was
entered, `ready` says EP_STROBE has been written to its endpoints since its last full bring-up (R73), `upRate` is the rate
it last completed a bring-up at, `exit` when a low-power exit began, `wantL1`, `wantL2` an entry that waits on traffic,
`cap` the rate cap of R199, `rateMax` RATE_MAX and `txEq` the transmitter's taps as the bring-up took them (R192, R202); `coefs` are the equaliser's coefficients (EQ, DFE0, DFE1)
of the last 1 ms with the times they were taken, the newest first (R189), `dark2` those kept in L2 (R195), `acc` the taps in 2^-13 code, `lmsAt` when the last
LMS update came and `modeAt` when MODE was last written (R191), `statStart` when the last STATUS frame was sent (R221). -/
structure LaneSt where
  entered : Nat := 0
  nonce : Nat := 0
  fails : Nat := 0
  failAt : Option (Nat × Nat) := none
  upRate : Nat := 0
  wasUp : Bool := false
  ready : Bool := false
  dark : Bool := false
  relock : Option Nat := none
  exit : Option Nat := none
  wake : Bool := false
  idleAt : Nat := 0
  wantL1 : Bool := false
  wantL2 : Bool := false
  eqEvt : Bool := false
  margin : Option Nat := none
  cap : Nat := 3
  rateMax : Nat := 3
  txEq : Word := 0
  coefs : List (Nat × Word × Word × Word) := []
  dark2 : Option (Word × Word × Word) := none
  acc : List Int := []
  lmsAt : Nat := 0
  modeAt : Option Nat := none
  tx : Tx := {}
  pushSeq : Nat := 0
  pushes : List Push := []
  waitQ : List Push := []
  statSeq : Nat := 0
  statAt : Option Nat := none
  statStart : Option Nat := none
  statOld : Option (Nat × Nat × Nat) := none
  beacSeq : Nat := 0
  beacAt : Nat := 0
  dmeas : Option Nat := none
  deriving DecidableEq, Repr

/-- An endpoint command in flight (R224): where it goes, its operation, register, words and wire line, its TAG, and when it was sent how often;
it waits where its lane has to leave L1 or L2 (R196). `bank` is the bar whose pending bank it writes (R228). -/
structure Ecmd where
  lane : Nat
  ep : Nat
  op : Nat
  reg : Nat
  data : Nat
  at_ : Nat
  tries : Nat
  waiting : Bool
  tag : Nat := 0
  words : List Nat := []
  l : Nat := 0
  bank : Option Nat := none
  deriving DecidableEq, Repr

/-- A two-phase mode change of a bar (R227 to R230): its values, target line, epoch, when it was sent, the endpoints that
have acknowledged, and whether it commits by a COMMIT frame; `k` is the line the set names, and `prepared` says that PREPARE has been sent. -/
structure Mchg where
  vals : Word
  l : Nat
  epoch : Nat
  at_ : Nat
  acked : List Nat
  commit : Bool
  aborting : Bool
  set_ : Nat
  k : Nat := 0
  prepared : Bool := true
  deriving DecidableEq, Repr

/-- An endpoint whose span R231 inhibits, its cause (0 epoch, 1 slots missing, 2 push, 3 delay: R216) and the last push sent to it since, with
its sending time, which must be acknowledged before its release. -/
structure EpInh where
  ep : Nat
  cause : Nat
  at_ : Nat
  seq : Option (Nat × Nat) := none
  deriving DecidableEq, Repr

/-- Zixlink above the lanes: the host's command in flight, the device's own, by endpoint when the STATUS frame of its last slot was sent, mode changes by bar, class vectors of this and of the last 1 ms window
(R223) and whether its end waits for frames that return in its cycle, slots missed in a row by endpoint, and inhibited endpoints. -/
structure ZxlSt where
  lanes : Vector LaneSt 18 := Vector.replicate 18 {}
  ecmd : Option Ecmd := none
  cmds : List Ecmd := []
  slotAt : List (Nat × Nat) := []
  tag : Nat := 0
  mchg : Vector (Option Mchg) 12 := Vector.replicate 12 none
  mwait : Vector (List (Nat × Word)) 12 := Vector.replicate 12 []
  epochOld : Vector Nat 12 := Vector.replicate 12 0
  win : Vector Nat 7 := Vector.replicate 7 0
  prevWin : Vector Nat 7 := Vector.replicate 7 0
  winAt : Nat := 0
  winDue : Bool := false
  missed : List (Nat × Nat) := []
  inh : List EpInh := []
  deriving DecidableEq, Repr

/-- A camera line: the web coordinate and the time captured at its start (R242), its transfers made to hold WIDTH pixels, and
whether it broke R240 or R241. -/
structure VLine where
  web : Nat
  time : Time
  at_ : Nat := 0
  xs : List Nat := []
  lineErr : Bool := false
  crcErr : Bool := false
  deriving DecidableEq, Repr

/-- A camera frame: port, number, settings tag, start, lines, flags of R259 (bit 0 SHORT, 1 LONG, 2 CRCERR, 3 LINEERR, 4 LATE),
the raw slot that takes it, the port's camera words in effect for it, and whether it was dropped for want of a slot. -/
structure VFrame where
  port : Nat
  num : Nat
  tag : Nat
  start : Nat
  web : Nat
  time : Time
  lines : List VLine := []
  flags : Nat := 0
  slot : Option Nat := none
  words : List (Nat × Word) := []
  dropped : Bool := false
  deriving DecidableEq, Repr

/-- A settings set on its way to a port (R264): its number, the port's camera fields, whether and when it has reached the port, the sensor
list entries it sends, with REG16 as in effect when the list started, whether they have been sent, and the frames still to start before F,
counted from `at_`. -/
structure VisSet where
  seq : Nat
  fields : List (Nat × Word)
  reached : Bool := false
  came : Nat := 0
  list : Option (List Nat) := none
  wide : Option Bool := none
  sent : Bool := false
  left : Nat := 0
  at_ : Nat := 0
  deriving DecidableEq, Repr

/-- An I²C transaction of a port: read, device, register, data; whether it has started. -/
structure I2c where
  rd : Bool
  dev : Nat
  reg : Nat
  data : Nat
  started : Bool
  deriving DecidableEq, Repr

/-- A camera port (R239 to R249): the frame in progress, the line in progress, the frame that ended last and its excess lines,
a trigger that awaits its frame (FSTART = 1), the start of the VSYNC interval, a timeout that marks the next frame LATE, the end of
the exposure output, the direct I²C transaction, the list transfer in progress, sets on their way, raw slots in use and the next
slot of the plain ring. -/
structure VisPort where
  frame : Option VFrame := none
  line : Option VLine := none
  next : Nat := 0
  ended : Option VFrame := none
  trig : Bool := false
  tmoFrom : Option Nat := none
  late : Bool := false
  exp : Option Nat := none
  i2c : Option I2c := none
  sets : List VisSet := []
  tag : Nat := 0
  slots : List Nat := []
  ring : Nat := 0
  deriving DecidableEq, Repr

/-- An open window of the column accumulators (R261): its port, lines still to take, sums per column and component, what the record carries. -/
structure ColWin where
  port : Nat
  left : Nat
  sums : List (List Nat)
  tag : Nat
  flags : Nat
  num : Nat
  webFirst : Nat
  webLast : Nat
  time : Time
  lines : Nat
  deriving DecidableEq, Repr

/-- The vision block: ports, raw frames that wait for the pipeline and the one in it (R249), the column window and the times
of the camera triggers that may open the next. -/
structure VisSt where
  ports : Vector VisPort 4 := Vector.replicate 4 {}
  waiting : List VFrame := []
  m2m : Option VFrame := none
  col : Option ColWin := none
  colTrigs : List Nat := []
  deriving DecidableEq, Repr

/-- A record that is ready for an egress channel: its source code (R427) and its bytes. -/
structure EgrRec where
  src : Nat
  bytes : List (BitVec 8)
  deriving DecidableEq, Repr

/-- A witness band in flight (R268 to R281): where it was decided, its place and what was sampled at the decision; whether its bar has
fired its first and last line, how many fired as screened, and whether its camera trigger has come; column sums and line counts
of its levels, the settings tag and the frames of the counted lines with their flags and coordinates, the line being judged, whether the
camera has passed it; the reasons against it, whether the host has touched the bar's gains, the gains in effect and the positions
that keep theirs. -/
structure DenBand where
  seq : Nat
  copy : Nat
  bar : Nat
  y0 : Nat
  h : Nat
  skip : Nat
  minl : Nat
  pitch : Nat
  started : Bool := false
  fired : Bool := false
  okLines : Nat := 0
  trig : Bool := false
  sums : List (List Nat) := [[], [], []]
  ns : List Nat := [0, 0, 0]
  tag : Option Nat := none
  frames : List Nat := []
  flags : Nat := 0
  first : Option (Nat × Time) := none
  lastWeb : Nat := 0
  prev : Option (Nat × Time × Nat × Nat × List Nat) := none
  done : Bool := false
  bad : Nat := 0
  host : Bool := false
  gains : List Nat := []
  keep : List Nat := []
  deriving DecidableEq, Repr

/-- An update of the density loop that waits for its bank and its capture (R280): its band's bar, place and pitch, the new gains where it updates them, the new
offset where it updates that, the offset's change, and since when it waits. -/
structure DenUpd where
  bar : Nat
  y0 : Nat
  pitch : Nat
  gains : Option (List Nat)
  tofs : Option Nat
  dT : Int
  host : Bool
  since : Nat
  deriving DecidableEq, Repr

/-- The density loop: the last copy whose boundary has been decided (R269), the bands in flight, oldest first, the updates that wait,
the sets of its own (bar and number) that have not yet applied, the pending rotation request (R272), and when the host last pulsed SET. -/
structure DenSt where
  decided : Option (Nat × Nat) := none
  bands : List DenBand := []
  upds : List DenUpd := []
  ownSets : List (Nat × Nat) := []
  rotReq : Bool := false
  setAt : Option Nat := none
  deriving DecidableEq, Repr

/-- A frame of the lamp bus (R288): address, command and data. -/
structure LampFrame where
  addr : Nat
  cmd : Nat
  data : List Nat
  deriving DecidableEq, Repr

/-- A lamp module (R288 to R299): the levels it holds staged or will by the frames in the queue (none where the device does not know them) and
those last latched, as level window words; the duties coverage gives its segments; the levels held in HOLD, and whether a set has changed its
fields there; consecutive missed polls; the headroom it reported in this round; its on-seconds as persisted. -/
structure LampMod where
  staged : Option (List Nat) := none
  lit : List Nat := []
  cov : List Nat := []
  held : Option (List Nat) := none
  changed : Bool := false
  miss : Nat := 0
  hr : Option Nat := none
  saved : Nat := 0
  deriving DecidableEq, Repr

/-- Lamp fields of a settings set on their way (R294): the set, the module, the fields, and the web coordinate at which they are latched
once it is known; `now` says that they are due at the next LATCH. -/
structure LampSet where
  seq : Nat
  mod : Nat
  fields : List (Nat × Word)
  at_ : Option Nat := none
  now : Bool := false
  deriving DecidableEq, Repr

/-- A fired line kept for coverage: its material point (2^-8 nm) and its levels (R295). -/
structure CovLine where
  x : Nat
  levels : List Nat
  deriving DecidableEq, Repr

/-- The lamp block and the beacon panel. `queue` holds the frames that wait for the bus, `sending` the one on it with the byte in progress and
that byte's end, `restAt` when the next may start, `ask` the module and command that await a response and since when, `respEnd` the end of a
response on the bus. `coords` are the latch coordinates to come, `tick` the number of the next coverage tick, `due` a latch pulse that has
come with its time and `late` that staging was not complete then, `breakEnd` the end of the last LATCH break, `lateAt`, `covLateAt` when those
events were last raised, `pollAt` the start of the poll round, `secAt` the last on-second, `low` the headroom alarm; `row`, `frame`, `cols` the
panel row in turn, the frame count and its lit sinks, `rowAt` when they turn on and `rowNext` when the next switch begins. -/
structure LmpSt where
  mods : Vector LampMod 16 := Vector.replicate 16 {}
  queue : List LampFrame := []
  sending : Option (LampFrame × Nat × Nat) := none
  restAt : Nat := 0
  ask : Option (Nat × Nat × Nat) := none
  respEnd : Nat := 0
  sets : List LampSet := []
  coords : List Nat := []
  tick : Nat := 0
  due : Option Nat := none
  late : Bool := false
  breakEnd : Nat := 0
  lateAt : Option Nat := none
  covLateAt : Vector (Option Nat) 16 := Vector.replicate 16 none
  pollAt : Option Nat := none
  secAt : Nat := 0
  low : Bool := false
  row : Nat := 0
  frame : Nat := 0
  cols : Nat := 0
  rowAt : Nat := 0
  rowNext : Nat := 0
  cov : Vector (List CovLine) 12 := Vector.replicate 12 []
  deriving DecidableEq, Repr

/-- A payment of debt forced by temperature (R319): when its class came, whether the debt had reached the limit then, the class, and the debt
that DRC_HOT carries at its end. -/
structure DebtPay where
  at_ : Nat
  full : Bool
  cls : Nat
  paid : Nat
  deriving DecidableEq, Repr

/-- A request that waits at a memory channel (R314): its requester, the data unit, whether it activates the row, what the ECC finds, and for a
write the place in the unit and the bytes. -/
structure MemReq where
  who : Client
  u : Nat
  act : Bool
  e : Ecc
  wr : Option (Nat × List (BitVec 8)) := none
  deriving DecidableEq, Repr

/-- A memory channel (R314, R315): the work that waits in order of arrival, the end of the burst in progress, the accounting window and the
bytes RT has used in it, the requester of item 5 served last, and the unit written last with the cycle of it. -/
structure MemChan where
  waiting : List MemReq := []
  freeAt : Nat := 0
  win : Nat := 0
  rtUsed : Nat := 0
  turn : Nat := 9
  wrote : Option (Nat × Nat) := none
  deriving DecidableEq, Repr

/-- A channel of a rank of the memory (R316 to R321): refresh debt, the bank pair next in rotation, its temperature class (0 NORMAL to 3
LIMIT), a cooler class the last poll reported, a class that waits for the end of an operating-point change, the start of its tracker
window, whether its drift warning has been raised, and the tracker of each bank: bank, and entries of row and count. `dueAt` is when the
last refresh fell due, `polledAt` when MR4 was read, `must` refreshes that cannot be postponed and have not been issued, `refAt` when the
last refresh was issued, `pay` a payment forced by temperature, `busy` banks under refresh and until when, and `rht` targeted refreshes in
order, by bank and row (R321). -/
structure ChanRank where
  debt : Nat := 0
  pair : Nat := 0
  cls : Nat := 0
  cool : Option Nat := none
  late : Option Nat := none
  winAt : Nat := 0
  driftEvt : Bool := false
  track : List (Nat × List (Nat × Nat)) := []
  dueAt : Nat := 0
  polledAt : Nat := 0
  must : Nat := 0
  refAt : Option Nat := none
  pay : Option DebtPay := none
  busy : List (Nat × Nat) := []
  rht : List (Nat × Nat) := []
  deriving DecidableEq, Repr

/-- The memory controller beyond its registers. Channel-ranks are numbered 4i + 2c + r as in DRC_STATUS.HOT. `fcAt` is the start of an
operating-point change, `ce` the times of the corrected errors of the last hour on the active rank of an interface, `migBad` units
poisoned by the migration, `ueRank` uncorrectable errors on the active rank since boot, `noSpare` says that DRC_NO_SPARE has been raised,
`unret` that the retirement is cleared from the next boot (R328); `scrubAt` is the next unit of the patrol scrub and `scrubFrom` when its
pass began, `selfRef` that the memory is in self-refresh. `ch` are the four channels, 2i + c; `mgmtWin` and `mgmtUsed` account for MGMT
across the device (R314); `wckAt` is when the drift was measured (R325); `migAt` is when a migration began, `migLeft` how many channels
still owe the copy at M, `migLate` that it has fallen behind. -/
structure DrcSt where
  cr : Vector ChanRank 8 := Vector.replicate 8 {}
  fcAt : Option Nat := none
  ce : Vector (List Nat) 2 := Vector.replicate 2 []
  migBad : Vector Nat 2 := Vector.replicate 2 0
  ueRank : Vector Nat 2 := Vector.replicate 2 0
  noSpare : Vector Bool 2 := Vector.replicate 2 false
  unret : Vector Bool 2 := Vector.replicate 2 false
  scrubAt : Nat := 0
  scrubFrom : Nat := 0
  selfRef : Bool := false
  ch : Vector MemChan 4 := Vector.replicate 4 {}
  mgmtWin : Nat := 0
  mgmtUsed : Nat := 0
  wckAt : Nat := 0
  migAt : Vector Nat 2 := Vector.replicate 2 0
  migLeft : Vector Nat 2 := Vector.replicate 2 0
  migLate : Vector Bool 2 := Vector.replicate 2 false
  deriving DecidableEq, Repr



/-- A bar of a duplex pair (R339 to R347): own line check values by issue count, records of the partner that wait for them, mismatches that
wait for a recompute (issue count, own value, the partner's), lines that have passed their issue point in SHADOW or in a gap (issue
count and fire position), and until when a gap is open after a take-over. -/
structure DpxBar where
  own : List (Nat × Nat) := []
  recs : List (Nat × Nat) := []
  mism : List (Nat × Nat × Nat) := []
  passed : List (Nat × Nat) := []
  gap : Option Nat := none
  deriving DecidableEq, Repr

/-- A held set of the safety net (R343), with its digest and its capture time. -/
structure HeldSet where
  set_ : SetRec
  digest : Nat
  at_ : Nat
  deriving DecidableEq, Repr

/-- A SETREC record that waits for its held set. -/
structure SetRx where
  seq : Nat
  digest : Nat
  atCapture : Bool
  lines : List (Option LinePos)
  at_ : Nat
  deriving DecidableEq, Repr

/-- Duplex operation beyond its registers: the next record number and the numbers lately accepted (R335), the times of the last
HEARTBEAT and POS sent and whether a POS is due, when the last heartbeat came, the partner's ROLE and what it had fired, what this
device has fired, held sets and records, the time of a SYNC_REQ, whether PARTNER_LOST has been raised, when POS_DIVERGE was, and the time of
the last take-over. -/
structure DpxSt where
  txSeq : Nat := 0
  seen : List Nat := []
  hbTx : Option Nat := none
  posTx : Option Nat := none
  hbAt : Option Nat := none
  pRole : Nat := 0
  pFired : List Nat := []
  fired : Vector Nat 12 := Vector.replicate 12 0
  bars : Vector DpxBar 12 := Vector.replicate 12 {}
  held : List HeldSet := []
  recs : List SetRx := []
  syncAt : Option Nat := none
  lost : Bool := false
  divAt : Option Nat := none
  takeAt : Option Nat := none
  passValid : Nat := 0
  passOther : Nat := 0
  deriving DecidableEq, Repr


/-- A master heard of: its port identity, the key of the data set comparison, its grandmaster, and when its last Announce came. -/
structure Foreign where
  src : Nat
  key : Nat
  gm : Nat
  at_ : Nat
  deriving DecidableEq, Repr

/-- The time block beyond its registers (R353 to R362). `r` and `s` are the terms of the servo in 2^-24 ppb, `rLock` the value r had at
the last measurement while LOCKED; `run` counts Syncs in a row within LOCK_NS, `big` those beyond 1 µs of one sign (`ahead`). Times of
messages are in 2^-16 ns: the last Sync (its ingress time, and its origin plus corrections), a two-step Sync that waits for its
Follow_Up, the request that waits for its response, the mean path delay, and the pending step. `act` is the slot whose request is in
progress, with its lateness in ns, and `firedAt` when one last fired; `idleStep` says that the pending step is to be made once the Syncs of
this cycle are in (R359). -/
structure Ptp where
  r : Int := 0
  s : Int := 0
  rLock : Int := 0
  run : Nat := 0
  big : Nat := 0
  ahead : Bool := false
  foreign : List Foreign := []
  master : Option Nat := none
  annAt : Nat := 0
  syncAt : Nat := 0
  last : Option (Int × Int) := none
  wait : Option (Nat × Int × Int) := none
  req : Option (Nat × Int) := none
  delay : Int := 0
  step : Int := 0
  holdAt : Nat := 0
  txSync : Option Nat := none
  txAnn : Option Nat := none
  txReq : Option Nat := none
  seqSync : Nat := 0
  seqAnn : Nat := 0
  seqReq : Nat := 0
  act : Option (Nat × Nat) := none
  firedAt : Option Nat := none
  idleStep : Bool := false
  deriving DecidableEq, Repr


/-- A reset source that is asserted (R371): its RPC_CAUSE bit, the domains its reach covers, the block target of a BLOCK reset, and when
it releases by itself. -/
structure Src where
  bit : Nat
  mask : Nat
  block : Option Nat := none
  until_ : Option Nat := none
  deriving DecidableEq, Repr

/-- A freeze being entered (R415): what the AON latches captured at step 1, the source (1 DBG_FREEZE), RAW, and whether PD1 ran. -/
structure Frz where
  web : Nat
  mode : Nat
  src : Nat
  raw : Bool
  deriving DecidableEq, Repr

/-- Power, reset and boot beyond the registers (R367 to R388). `por` says that power-on reset is asserted, `perst` and `rstn` that those
balls are low. `step` is the boot step in progress, 0 before the first and 11 once booted, `at_` when it began, `failed` that it has failed
and waits for its retry from `retryAt` on; `last` the last step completed, `attempt` the map and cap of step 7 (R199), `copyB` the image copy;
`caps` are the rates at which lanes failed in STEP or ALIGN in the last failed step 7. `crit` is the class of a critical-state error that
reset the device, `wake` a WAKEn that fell during entry to SLEEP, `released` that step 10 has released the balls, `slow` that MACHINE_SLOW
is driven, `lampOff` that step 10 was skipped; `laneLog` what the boot log holds of the lanes, with their states, failure codes and rates (R199);
`spi` a flash transfer in progress (true for a read) with its length. -/
structure Boot where
  por : Bool := true
  perst : Bool := true
  rstn : Bool := false
  srcs : List Src := []
  step : Nat := 0
  at_ : Nat := 0
  failed : Bool := false
  retryAt : Nat := 0
  last : Nat := 0
  attempt : Nat := 0
  copyB : Bool := false
  caps : List (Nat × Nat) := []
  crit : Nat := 0
  wake : Bool := false
  released : Bool := false
  slow : Bool := false
  lampOff : Bool := false
  laneLog : List (Nat × Nat × Nat × Nat) := []
  spi : Option (Bool × Nat) := none
  critAt : Option (Nat × Nat) := none
  wideAt : Option (Nat × Frz × Bool) := none
  dogAt : Nat := 0
  deriving DecidableEq, Repr

/-- The thermal logic in PD0 (R391 to R401): when the next sample is due, whether the exclusion mask has been loaded since power-on or a
DEVICE reset, samples below 93 °C in a row, TMAX of the last fast samples, newest first, samples on which every included sensor read
validly at or below 95 °C in a row, whether a trip holds the device, whether one awaits its report, whether head-hot has been raised. -/
structure Thm where
  nextAt : Nat := 0
  exclKnown : Bool := false
  below : Nat := 0
  fast : List Int := []
  cool : Nat := 0
  tripped : Bool := false
  report : Bool := false
  hot : Bool := false
  at_ : Option Nat := none
  told : Nat := 0
  deriving DecidableEq, Repr


/-- What the JTAG instructions select as data register (R418). -/
inductive JtagDr where
  | idcode | boundary | bypass | scanSel | scan (k : Nat) | sramAddr | sram | rstReq
  deriving DecidableEq, Repr

/-- The TAP: the instruction in effect, the data register, the word last captured into it, SCANSEL and SRAMADDR, and a RSTREQ that acts
at the next instruction (1 DEVICE). `drives` says that EXTEST, CLAMP or HIGHZ has taken effect: the balls are the boundary register's. -/
structure Jtag where
  ir : Nat := 0x01
  dr : JtagDr := .idcode
  cap : Nat := 0
  scanSel : Nat := 0
  sramMem : Nat := 0
  sramAddr : Nat := 0
  rstReq : Option Bool := none
  drives : Nat := 0
  deriving DecidableEq, Repr


/-- The management queue and the event ring's writer (R429, R430): records that wait, those lost since the last EVT_LOST, the next SEQ,
when the ring's vector was last signalled, and whether HEAD has advanced since within CFG.MOD. -/
structure EvQ where
  q : List Event := []
  lost : Nat := 0
  seq : Nat := 0
  sigAt : Option Nat := none
  due : Bool := false
  deriving DecidableEq, Repr

/-- The snapshot (R436): when the pending one was requested, the last fired line of the reference bar then, whether one has fired since as
the present CK9 cycle began, and when the automatic timer last requested one. -/
structure Snap where
  at_ : Nat := 0
  base : Nat := 0
  ready : Bool := false
  autoAt : Nat := 0
  deriving DecidableEq, Repr

/-- An egress channel: the number of its next record (R427). -/
structure Egr where
  rseq : Nat := 0
  deriving DecidableEq, Repr

/-- The PCIe function: messages held back (R431), the vectors signalled in the cycle of a time, the function mask. -/
structure Hst where
  held : List Nat := []
  cycle : Nat × List Nat := (0, [])
  fmask : Bool := false
  deriving DecidableEq, Repr

/-- A source of register-transport requests: its last SEQ and the words of the response to it (R433). -/
structure RtSrc where
  port : Nat
  src : Nat
  seq : Nat
  resp : List Nat
  deriving DecidableEq, Repr

/-- The register transport (R433, R434): requests that wait, oldest first, until when the data of the last one moves, the sources remembered,
most recent last, the source of the last valid request, when the last NOTIFY left, and whether an enabled bit has newly set since. -/
structure Rt where
  queue : List RtMsg := []
  busy : Nat := 0
  srcs : List RtSrc := []
  last : Option (Nat × Nat) := none
  notifyAt : Option Nat := none
  fresh : Bool := false
  deriving DecidableEq, Repr

/-- What the units showed of their work as the present CK9 cycle began, beside the registers (the model's own record; R378): the values in
effect, CDC_STATUS, VIS_STATUS, and whether the west and east screening halves ran. -/
structure Work where
  eff : List (Nat × Word) := []
  cdc : Word := 0
  vis : Word := 0
  west : Bool := false
  east : Bool := false
  deriving DecidableEq, Repr

/-- The block without its queue: registers and the state of each unit. -/
structure Dev where
  /-- Every register word that differs from its reset word, by address. -/
  regs : List (Nat × Word) := []
  /-- The register words as the present CK9 cycle began (the model's own field: what a clear of the same cycle leaves; R2). -/
  was : List (Nat × Word) := []
  shown : Work := {}
  /-- The snapshot shadows (R436): words that differ from the reset word. -/
  shadow : List (Nat × Word) := []
  /-- Staged and configuration values in effect (R2, R109, R112), by address or by a bar's own place. -/
  eff : List (Nat × Word) := []
  /-- Nanoseconds since State.reset. -/
  now : Nat := 0
  /-- How many open values have been taken (the model's own field; Config.freeValue). -/
  fresh : Nat := 0
  sys : Sys := {}
  /-- Records raised and not yet in the management queue, oldest first. -/
  raised : List Event := []
  /-- Open coalescing windows. -/
  coal : List Coal := []
  /-- The disciplined device time (R353 to R360), and the part of it below 2^-16 ns, in 2^-48 ns. -/
  time : Time := {}
  timeSub : Nat := 0
  /-- Device writes of persistent words that wait for the write engine (word, value; R410). -/
  prsQ : List (Nat × Word) := []
  /-- PD0 to PD11; at power-on reset PD0 alone runs (R368). -/
  doms : Vector Dom 12 := (Vector.replicate 12 {}).set 0 { st := .run }
  pos : Pos := {}
  /-- The Criow image in use, once boot step 2 has read it. -/
  image : Option Image := none
  job : JobSt := {}
  bars : Vector BarSt 12 := Vector.replicate 12 {}
  stb : Vector Stb 8 := Vector.replicate 8 {}
  cmp : Vector Cmp 32 := Vector.replicate 32 {}
  noz : NozSt := {}
  zxl : ZxlSt := {}
  /-- Everything the device has sent, oldest first (the model's own record). -/
  sent : List Sent := []
  vis : VisSt := {}
  /-- Records that wait for egress channels 0 and 1 (R427). -/
  egress : Vector (List EgrRec) 2 := Vector.replicate 2 []
  den : DenSt := {}
  lmp : LmpSt := {}
  /-- The job store: bytes that differ from 0, by address (R308); poisoned units by index (R311). -/
  store : List Host.Cell := []
  poison : List Nat := []
  drc : DrcSt := {}
  dpx : DpxSt := {}
  ptp : Ptp := {}
  boot : Boot := {}
  thm : Thm := {}
  frz : Option Frz := none
  jtag : Jtag := {}
  /-- Persistent words that hold no value any more (R412). -/
  prsFailed : List Nat := []
  /-- Interrupt vectors signalled and not yet taken, oldest first (R431). -/
  sigs : List Nat := []
  evq : EvQ := {}
  snap : Snap := {}
  egr : Vector Egr 2 := Vector.replicate 2 {}
  /-- When each check-value unit last started (R405). -/
  crcAt : Vector Nat 8 := Vector.replicate 8 0
  hst : Hst := {}
  rt : Rt := {}
  deriving DecidableEq, Repr

/-- The machine: the commands that wait, first in, first out, and the block. -/
structure State where
  pending : List Instr := []
  dev : Dev := {}
  deriving DecidableEq, Repr

/-- No command of the model stops with a fault: errors of the block are events, status fields and interrupt bits. The one
constructor is raised by nothing. -/
inductive Fault where
  /-- Raised by no meaning (safe). -/
  | none_
  deriving DecidableEq, Repr

/-- Reasons for which a command has no meaning. -/
inductive Refusal where
  /-- Raised by an arm of `exec` whose command has no meaning yet (safe). -/
  | notModelled (mnemonic : String)
  deriving DecidableEq, Repr

/-- The machine right after power-on reset: PD0 alone runs, the mode is BOOT, every register holds its reset word, the job
store lists nothing, no command waits. -/
def State.reset : State := { pending := [], dev := {} }

end Sys2Proof.Machine
end

