-- ==== Sys2Proof/Machine/Ops.lean ====
section
/-!
DEFINITION. The operations every meaning is written with: the sparse files (registers, bytes), fields, domains, modes and
transitions, events and coalescing, open values.
-/
namespace Sys2Proof.Machine

/-! ### Sparse files: keys rising, no entry equal to the default of its key -/

/-- What a key reads as. -/
def Sparse.get {α : Type} (dflt : Nat → α) : List (Nat × α) → Nat → α
  | [], a => dflt a
  | (k, v) :: r, a => if k = a then v else Sparse.get dflt r a

/-- Insert or replace an entry at its place. -/
def Sparse.insert {α : Type} : List (Nat × α) → Nat → α → List (Nat × α)
  | [], a, v => [(a, v)]
  | (k, w) :: r, a, v =>
    if a < k then (a, v) :: (k, w) :: r
    else if a = k then (a, v) :: r
    else (k, w) :: Sparse.insert r a v

/-- Take an entry away. -/
def Sparse.erase {α : Type} (l : List (Nat × α)) (a : Nat) : List (Nat × α) := l.filter fun p => p.1 ≠ a

/-- Store a value; the default of the key is stored by listing nothing. -/
def Sparse.put {α : Type} [DecidableEq α] (dflt : Nat → α) (l : List (Nat × α)) (a : Nat) (v : α) : List (Nat × α) :=
  match l with
  | [] => if v = dflt a then [] else [(a, v)]
  | p :: r => if v = dflt a then Sparse.erase (p :: r) a else Sparse.insert (p :: r) a v

/-- The canonical form: keys strictly rising and no entry equal to its default. -/
def Sparse.wf {α : Type} [DecidableEq α] (dflt : Nat → α) : List (Nat × α) → Bool
  | [] => true
  | [(k, v)] => v ≠ dflt k
  | (k, v) :: (k', v') :: r => decide (v ≠ dflt k) && decide (k < k') && Sparse.wf dflt ((k', v') :: r)

/-! ### Bits and signed numbers -/

/-- Bits [lo + w - 1 : lo] of a number. -/
def bits (n lo w : Nat) : Nat := n / 2 ^ lo % 2 ^ w

/-- A w-bit two's-complement number. -/
def sext (w n : Nat) : Int := let m := n % 2 ^ w; if m < 2 ^ (w - 1) then (m : Int) else (m : Int) - 2 ^ w

/-- The w-bit two's-complement code of an integer. -/
def unsext (w : Nat) (i : Int) : Nat := (i % (2 ^ w : Nat)).toNat

/-- An integer held within limits. -/
def clampI (lo hi i : Int) : Int := if i < lo then lo else if hi < i then hi else i

def clampN (lo hi n : Nat) : Nat := if n < lo then lo else if hi < n then hi else n

/-- The quotient rounded half away from zero. -/
def roundDiv (a : Int) (b : Nat) : Int :=
  if b = 0 then 0 else if 0 ≤ a then (2 * a + b) / (2 * b) else -((2 * (-a) + b) / (2 * b))

/-- The quotient of naturals rounded half up. -/
def roundDivN (a b : Nat) : Nat := (2 * a + b) / (2 * b)

/-- The difference a - b of 48-bit positions, signed, an exact half counting as before (R45). -/
def webDiff (a b : Nat) : Int :=
  let x := (a % webMod + webMod - b % webMod) % webMod
  if x < 2 ^ 47 then (x : Int) else (x : Int) - webMod

/-- Position a is after position b (R45). -/
def webAfter (a b : Nat) : Bool := decide (0 < webDiff a b)

/-- The next place of a vector, changed. -/
def upd {α : Type} {n : Nat} (v : Vector α n) (i : Fin n) (f : α → α) : Vector α n := v.set i (f v[i])

/-- The same change at every place. -/
def updAll {α : Type} {n : Nat} (v : Vector α n) (f : Fin n → α → α) : Vector α n := Vector.ofFn fun i => f i v[i]

/-! ### Registers -/

/-- The live word at a register address. -/
def Dev.rd (d : Dev) (a : Nat) : Word := Sparse.get resetWord d.regs a

def Dev.wr (d : Dev) (a : Nat) (v : Word) : Dev := { d with regs := Sparse.put resetWord d.regs a v }

/-- A field of a word. -/
def Fld.of (f : Fld) (w : Word) : Nat := w.toNat / 2 ^ f.lo % 2 ^ f.w

/-- A word with a field replaced (the value is reduced to the field's width). -/
def Fld.into (f : Fld) (w : Word) (v : Nat) : Word :=
  BitVec.ofNat 32 (w.toNat - (w.toNat / 2 ^ f.lo % 2 ^ f.w) * 2 ^ f.lo + (v % 2 ^ f.w) * 2 ^ f.lo)

def Dev.get (d : Dev) (f : Fld) : Nat := f.of (d.rd f.reg)

def Dev.bit (d : Dev) (f : Fld) : Bool := d.get f ≠ 0

/-- A signed field. -/
def Dev.getI (d : Dev) (f : Fld) : Int := sext f.w (d.get f)

def Dev.set (d : Dev) (f : Fld) (v : Nat) : Dev := d.wr f.reg (f.into (d.rd f.reg) v)

def Dev.setB (d : Dev) (f : Fld) (b : Bool) : Dev := d.set f b.toNat

def Dev.setI (d : Dev) (f : Fld) (i : Int) : Dev := d.set f (unsext f.w i)

/-- Add to a wrapping counter. -/
def Dev.add (d : Dev) (f : Fld) (n : Nat) : Dev := d.set f (d.get f + n)

/-- Add to a saturating counter. -/
def Dev.addSat (d : Dev) (f : Fld) (n : Nat) : Dev := d.set f (min (2 ^ f.w - 1) (d.get f + n))

/-- A field as this cycle began. -/
def Dev.began (d : Dev) (f : Fld) : Nat := f.of (Sparse.get resetWord d.was f.reg)

/-- A host's clear of wrapping or saturating counters: an increment of the same cycle stands. -/
def Dev.zeroCounts (d : Dev) (fs : List Fld) : Dev :=
  fs.foldl (fun (d : Dev) f => d.set f ((d.get f + 2 ^ f.w - d.began f) % 2 ^ f.w)) d

/-- A host's clear of a value that the device keeps: a new value of the same cycle stands. -/
def Dev.clearKept (d : Dev) (a : Nat) : Dev := if d.rd a = Sparse.get resetWord d.was a then d.wr a 0 else d

/-- What a W1C write clears: a bit that the device set in the same cycle stays set (R2). -/
def Dev.clears (d : Dev) (a : Nat) (m : Word) : Word := m &&& ~~~(d.rd a &&& ~~~(Sparse.get resetWord d.was a))

/-- A pair of registers as one number (R6). -/
def Dev.pair (d : Dev) (lo hi : Nat) : Nat := (d.rd lo).toNat + (d.rd hi).toNat * 2 ^ 32

def Dev.wrPair (d : Dev) (lo hi : Nat) (v : Nat) : Dev :=
  (d.wr lo (BitVec.ofNat 32 v)).wr hi (BitVec.ofNat 32 (v / 2 ^ 32))

/-- The value in effect of a staged or configuration register (R2, R109, R112). -/
def Dev.effRd (d : Dev) (a : Nat) : Word := Sparse.get resetWord d.eff a

def Dev.effWr (d : Dev) (a : Nat) (v : Word) : Dev := { d with eff := Sparse.put resetWord d.eff a v }

def Dev.effGet (d : Dev) (f : Fld) : Nat := f.of (d.effRd f.reg)

def Dev.effGetI (d : Dev) (f : Fld) : Int := sext f.w (d.effGet f)

/-- A register pair in effect: it acts when its high word is written (R6). -/
def Dev.effPair (d : Dev) (lo hi : Nat) : Nat := (d.effRd lo).toNat + (d.effRd hi).toNat * 2 ^ 32

def Dev.effBit (d : Dev) (f : Fld) : Bool := d.effGet f ≠ 0

/-- Apply a change when a condition holds. -/
def Dev.cond (d : Dev) (c : Bool) (f : Dev → Dev) : Dev := if c then f d else d

/-! ### Domains (R15) -/

/-- The power domain of a register block, by block index (R15). -/
def domOf (blk : Nat) : Fin 12 :=
  match blk with
  | 0 => 1 | 1 => 0 | 2 => 0 | 3 => 0 | 4 => 1 | 5 => 10 | 6 => 10 | 7 => 5 | 8 => 5 | 9 => 6 | 10 => 6
  | 11 => 8 | 12 => 11 | 13 => 11 | 14 => 10 | 15 => 4 | 16 => 8 | 17 => 3 | 18 => 2 | 19 => 3 | _ => 1

/-- A domain runs. -/
def Dev.runs (d : Dev) (p : Fin 12) : Bool := d.doms[p].st = .run

/-- The monitored clocks a domain uses (R15, R370); the AON oscillator always runs. -/
def clocksOf (p : Fin 12) : List Nat :=
  match p.val with
  | 0 => [] | 1 => [1] | 2 => [4, 1] | 3 => [5, 6] | 4 => [3] | 8 | 9 => [7, 2] | 10 => [9] | _ => [2]

def Dev.clkGood (d : Dev) (k : Nat) : Bool := k = 0 || Nat.testBit (d.get F.RPC_CLK_GOOD) k

/-- A freeze has not stopped the clocks of a domain (R376, R415); PD0 runs on CK0 in every mode. -/
def Dev.ticking (d : Dev) (p : Fin 12) : Bool :=
  p.val = 0 || (d.sys.mode != .frozen && (d.frz.isNone || p.val = 1 || p.val = 10))

/-- The clocks of a domain are good and run (R370, R376). -/
def Dev.clocked (d : Dev) (p : Fin 12) : Bool := d.ticking p && (clocksOf p).all d.clkGood

/-- A domain works: it is released and its clocks run (R18, R370, R415). -/
def Dev.live (d : Dev) (p : Fin 12) : Bool := d.runs p && d.clocked p

/-- A BLOCK reset holds a unit, by its code (R371, R377). -/
def Dev.unitHeld (d : Dev) (code : Nat) : Bool := d.boot.srcs.any fun s => s.block = some code

/-- A register block answers: its domain works, and in BOOT_HALT it is one of those that then respond (R16, R386). -/
def Dev.on (d : Dev) (blk : Nat) : Bool :=
  d.live (domOf blk) && (!d.sys.halt || blk = 0 || blk = 1 || blk = 3 || blk = 20 || blk = 18)


/-! ### Events (R9, R10) -/

/-- A record of the moment: the web coordinate and the device time of the occurrence stamp it. -/
def Dev.event (d : Dev) (k : EvKind) (bar : Nat) (ep : Option Nat) (detail : List Nat) : Event :=
  { code := k.code, cls := k.cls, bar := bar, ep := ep, web := d.pos.web / 2 ^ 24, time := d.time, count := 1, detail := detail }

/-- Raise a record; EVENT_RAISE takes it into the management queue. Bar 15: no bar applies. -/
def Dev.raise (d : Dev) (k : EvKind) (bar : Nat) (ep : Option Nat) (detail : List Nat) : Dev :=
  { d with raised := d.raised ++ [d.event k bar ep detail] }

/-- Fold an occurrence into an open window: COUNT saturates, the summed words add up. -/
def Coal.fold (c : Coal) (n : Nat) (sums ors : List (Nat × Nat)) : Coal :=
  { c with ev := { c.ev with count := min 0xFFFFFFFF (c.ev.count + n) },
           sums := c.sums.map fun p => (p.1, p.2 + ((sums.find? fun q => q.1 = p.1).map (·.2)).getD 0),
           ors := c.ors.map fun p => (p.1, p.2 ||| ((ors.find? fun q => q.1 = p.1).map (·.2)).getD 0) }

/-- Fold into the window of a key, or open it. -/
def Coal.into (c : Coal) (n : Nat) : List Coal → List Coal
  | [] => [{ c with ev := { c.ev with count := n } }]
  | w :: ws => if w.key = c.key then w.fold n c.sums c.ors :: ws else w :: Coal.into c n ws

/-- A coalesced occurrence of `n` (R9): the first opens a window of 1 ms under a key, later ones fold into it. The detail
is the first occurrence's, but for the words listed in `sums` (index in the detail, addend), which add up. -/
def Dev.raiseC (d : Dev) (k : EvKind) (key bar : Nat) (ep : Option Nat) (detail : List Nat) (n : Nat)
    (sums : List (Nat × Nat)) : Dev :=
  { d with coal := Coal.into { key := k.code * 2 ^ 24 + key, start := d.now, span := 1000000,
                               ev := d.event k bar ep detail, sums := sums } n d.coal }

/-- As `raiseC`, with detail words that are ORed together over the window. -/
def Dev.raiseO (d : Dev) (k : EvKind) (key bar : Nat) (detail : List Nat) (sums ors : List (Nat × Nat)) : Dev :=
  { d with coal := Coal.into { key := k.code * 2 ^ 24 + key, start := d.now, span := 1000000,
                               ev := d.event k bar none detail, sums := sums, ors := ors } 1 d.coal }

/-- The record of a window at its end. -/
def Coal.close (c : Coal) : Event :=
  { c.ev with detail := c.ev.detail.mapIdx fun i x => (((c.sums ++ c.ors).find? fun p => p.1 = i).map (·.2)).getD x }

/-- End every window whose time has passed: its record is raised. -/
def Dev.closeWindows (d : Dev) : Dev :=
  { d with raised := d.raised ++ (d.coal.filter fun c => c.start + c.span ≤ d.now).map Coal.close,
           coal := d.coal.filter fun c => ¬ (c.start + c.span ≤ d.now) }

/-! ### Modes and transitions (R18 to R22) -/

def Dev.mode (d : Dev) : Mode := d.sys.mode

/-- The mode is one of those listed. -/
def Dev.modeIn (d : Dev) (l : List Mode) : Bool := l.contains d.sys.mode

/-- PRINT or SHUTTLE. -/
def Dev.printing (d : Dev) : Bool := d.modeIn [.print, .shuttle]

/-- The detail word of the mode events: the mode, the mode before, the cause or the refusal reason (R27). -/
def modeWord (new prev code : Nat) : Nat := new + prev * 2 ^ 8 + code * 2 ^ 16

/-- The source modes from which R19 lets the device itself go to a mode. -/
def devSource (dest : Mode) (m : Mode) : Bool :=
  match dest with
  | .hold => m = .print || m = .shuttle
  | .ready => m = .print || m = .shuttle
  | .safe => 2 ≤ m.code && m.code ≤ 8
  | .shutdown => m != .sleep && m != .frozen
  | .frozen => true
  | .print | .shuttle => m = .shadow
  | _ => false

/-- A signed number of ns as two words, the low one first. -/
def nsWords (i : Int) : List Nat := [unsext 64 i % 2 ^ 32, unsext 64 i / 2 ^ 32]

/-- MODE_REFUSED (R27). -/
def Dev.modeRefusedEvt (d : Dev) (reason : Nat) : Dev :=
  d.raise Ev.MODE_REFUSED 15 none [modeWord d.sys.mode.code d.sys.mode.code reason]

/-- PTP_ACT_REFUSED: slot, lateness, reason (R361). -/
def Dev.actRefusedEvt (d : Dev) (a late reason : Nat) : Dev := d.raise Ev.PTP_ACT_REFUSED 15 none ([a] ++ nsWords late ++ [reason])

/-- The request of an action slot was refused (R361). -/
def Dev.actRefused (d : Dev) (a late reason : Nat) : Dev :=
  let d := ((d.set (F.PTP_ACT_CTL_STATE a) 3).set (F.PTP_ACT_CTL_REASON a) reason).actRefusedEvt a late reason
  { d with ptp := { d.ptp with act := none } }

/-- The host request is refused: RESULT 3 with its reason, MODE_REFUSED (R26, R27); an action slot that made it is REFUSED (R361). -/
def Dev.refuseMode (d : Dev) (reason : Nat) : Dev :=
  let d := ((d.set F.SYS_MODE_REQ_RESULT 3).set F.SYS_MODE_REQ_REASON reason).modeRefusedEvt reason
  match d.ptp.act with
  | some (a, late) => d.actRefused a late reason
  | none => d

/-- The order in which transitions of the device's own win over one another (R22). -/
def transRank : Mode → Nat
  | .frozen => 4
  | .shutdown => 3
  | .safe => 2
  | .hold => 1
  | _ => 0

/-- Records made earlier are raised. -/
def Dev.raiseAll (d : Dev) (evs : List Event) : Dev := { d with raised := d.raised ++ evs }

/-- A transition in progress gives way to one of the device's own; a host request so overtaken is refused with SUPERSEDED (R22). -/
def Dev.transOver (d : Dev) (cur t : Trans) : Dev :=
  let d := if cur.host then d.refuseMode 3 else d
  { d with sys := { d.sys with trans := some { t with evs := cur.evs ++ t.evs } } }

/-- A group of shared balls is held high-impedance: in SHADOW, and in SAFE once deposed (R333). Groups 0 strobes, 1 CMPOUT, 2 lamp, 3 camera. -/
def Dev.shareZ (d : Dev) (g : Nat) : Bool :=
  Nat.testBit (d.effGet F.DPX_CFG_SHARE) g && (d.sys.mode = .shadow || (d.sys.mode = .safe && d.sys.deposed))

/-- Every direct strobe output is low. -/
def Dev.stbLow (d : Dev) : Dev := { d with stb := updAll d.stb fun _ s => { s with high := false, riseAt := none } }

/-- The device goes to SAFE or is in it: strobe outputs stay low (R77). -/
def Dev.toSafe (d : Dev) : Bool := d.sys.mode = .safe || (match d.sys.trans with | some t => t.dest = .safe | none => false)

/-- The orderly stop has begun (R399). -/
def Dev.stopping (d : Dev) : Bool := match d.sys.trans with | some t => t.dest = .shutdown | none => false

/-- On the way to SAFE strobe outputs are low at once (R77); with the start of the orderly stop HRC takes its level of SAFE (R297, R399). -/
def Dev.safeLow (d : Dev) : Dev :=
  let d := if d.toSafe then d.stbLow else d
  if d.stopping then d.set F.LMP_HRC_STATUS_CODE (d.get F.LMP_HRC_SAFE_CODE) else d

/-- A lane is in L1 or L2, or leaving it. -/
def Dev.lowPowerAny (d : Dev) : Bool :=
  (List.range 18).any fun n => d.get (F.ZXL_LANE_STATUS_STATE n) = 8 || d.get (F.ZXL_LANE_STATUS_STATE n) = 9

/-- A transition from this mode first takes every lane out of L1 and L2 (R196). -/
def Dev.lowFirst (d : Dev) (dest : Mode) : Bool := d.sys.mode = .idle && dest != .sleep && dest != .frozen && d.lowPowerAny

/-- Detail words of a lane event: the lane, its state and a code or reason (R203). -/
def Dev.laneDetail (d : Dev) (n : Fin 18) (code : Nat) : List Nat := [n.val, d.get (F.ZXL_LANE_STATUS_STATE n) + code * 2 ^ 8]

/-- A request is refused: 1 MODE, 2 CAP, 3 STATE (R203). -/
def Dev.laneRefused (d : Dev) (n : Fin 18) (reason : Nat) : Dev := d.raise Ev.LANE_REQ_REFUSED 15 none (d.laneDetail n reason)

/-- A transition out of IDLE to any mode but SLEEP first ends low-power states: pending entries are refused, exits start (R196). -/
def Dev.lowPowerOut (d : Dev) : Dev :=
  (List.finRange 18).foldl (fun (d : Dev) (n : Fin 18) =>
    let l := d.zxl.lanes[n]
    let low := d.get (F.ZXL_LANE_STATUS_STATE n) = 8 || d.get (F.ZXL_LANE_STATUS_STATE n) = 9
    if l.wantL1 || l.wantL2 || (low && l.exit.isNone) then
      let d : Dev := { d with zxl := { d.zxl with lanes := upd d.zxl.lanes n fun l =>
        { l with wantL1 := false, wantL2 := false, exit := if low then some (l.exit.getD d.now) else l.exit } } }
      if l.wantL1 || l.wantL2 then d.laneRefused n 1 else d
    else d) d

/-- A transition of the device's own, with the FATAL records of its trigger, which are raised when it is made (R10). SHUTDOWN, SAFE and
FROZEN pre-empt a transition in progress (R21). HOLD and READY wait for it, unless both began in this cycle: then a host request loses, and
of two of the device's own the first in the order of R22 wins. Of two causes of HOLD in one cycle REVERSE wins over an encoder fault and a
registration fault (R51, R64). From a mode that is no source, nothing but the records. -/
def Dev.devTransTo (d : Dev) (dest : Mode) (cause : Nat) (evs : List Event) : Dev :=
  let low := devSource dest d.sys.mode && d.lowFirst dest
  let t : Trans := { dest := dest, cause := cause, host := false, exits := low, at_ := d.now, evs := evs }
  let d := if low then d.lowPowerOut else d
  match d.sys.trans with
  | none => if devSource dest d.sys.mode then { d with sys := { d.sys with trans := some t } } else d.raiseAll evs
  | some cur =>
    let wins := devSource dest d.sys.mode && (cur.host || transRank cur.dest < transRank dest)
    match dest with
    | .hold | .ready =>
      if cur.at_ = d.now && wins then d.transOver cur t
      else if cur.at_ = d.now && cur.dest = dest && (cur.cause = 0x02 || cur.cause = 0x04) && cause = 0x01 then
        { d with sys := { d.sys with trans := some { cur with cause := cause } } }
      else { d with sys := { d.sys with held := d.sys.held ++ [t] } }
    | _ =>
      if wins then d.transOver cur t
      else if evs.isEmpty then d
      else { d with sys := { d.sys with trans := some { cur with evs := cur.evs ++ evs } } }

/-- As `devTransTo`, with the strobe outputs low on the way to SAFE. -/
def Dev.devTransWith (d : Dev) (dest : Mode) (cause : Nat) (evs : List Event) : Dev := (d.devTransTo dest cause evs).safeLow

/-- A transition of the device's own whose trigger raises no FATAL record. -/
def Dev.devTrans (d : Dev) (dest : Mode) (cause : Nat) : Dev := d.devTransWith dest cause []

/-! ### Where a command acts -/

/-- An occurrence in a domain: nothing where the domain does not run. -/
def Dev.hw (d : Dev) (p : Fin 12) (f : Dev → Dev) : Dev := if d.live p then f d else d

/-- An access to a block that does not answer is reported, coalesced per domain (R16). -/
def Dev.domainOff (d : Dev) (blk : Nat) : Dev :=
  d.raiseC Ev.REG_DOMAIN_OFF (domOf blk).val 15 none [modeWord d.sys.mode.code d.sys.prev.code d.sys.cause] 1 []

/-- A host access of a register block: discarded and reported where the block does not answer (R16), nothing while the register
fabric in PD1 does not work or a freeze has begun (R415). -/
def Dev.host (d : Dev) (blk : Nat) (f : Dev → Dev) : Dev :=
  if !d.live 1 || d.frz.isSome then d else if d.on blk then f d else d.domainOff blk

/-! ### Open values -/

/-- Take the next open value, reduced to a width. -/
def Dev.free (d : Dev) (w : Nat) : Nat := Config.freeValue d.fresh % 2 ^ w

def Dev.took (d : Dev) : Dev := { d with fresh := d.fresh + 1 }

/-! ### Interrupts -/

/-- Signal an interrupt vector; INTERRUPT_SIGNAL takes it (R431). -/
def Dev.signal (d : Dev) (vec : Nat) : Dev := { d with sigs := d.sigs ++ [vec] }

/-! ### Outcomes -/

/-- The outcome of a meaning that changes the block and nothing of the queue. -/
def State.dest (s : State) (d : Dev) : Host.Outcome State Fault Refusal := .next { s with dev := d }

end Sys2Proof.Machine
end

