-- ==== Sys2Proof/Machine/Codec.lean ====
section
/-!
DEFINITION. Scephor block code (spec/05_block_code.md, R119 to R133): the encoder of R128 and R129 and the decoder of R131.
Bytes are taken most significant bit first (R119).
-/
namespace Sys2Proof.Machine

/-- Block size of a ratio, bytes. -/
def blockBytes : Nat → Nat
  | 0 => 32
  | 1 => 24
  | 2 => 16
  | _ => 12

/-- Blocks of a block row W pixels wide (R120). -/
def blocksOf (w : Nat) : Nat := (w + 7) / 8

/-- The guaranteed maximum size of a block row (R127). -/
def maxRowBytes (blocks ratio : Nat) : Nat := 4 * ((blocks + 8190) / 8191) + blocks * blockBytes ratio

/-- The reconstructed value of index n at width k (R125). -/
def rebuild (k mn mx n : Nat) : Nat :=
  if mx = mn then mn else mn + (2 * n * (mx - mn) + (2 ^ k - 1)) / (2 * (2 ^ k - 1))

/-- The index of a sample at width k (R128 step 4). -/
def quantise (k mn mx v : Nat) : Nat :=
  if mx ≤ mn then 0 else (2 * (v - mn) * (2 ^ k - 1) + (mx - mn)) / (2 * (mx - mn))

/-- The half of a split block that holds sample i: pixels 0 to 3 or 4 to 7 of its line (R124). -/
def halfOf (i : Nat) : Nat := i % 8 / 4

/-- A bit string as bytes, most significant bit first. -/
def toBytes : List Bool → List (BitVec 8)
  | [] => []
  | b0 :: b1 :: b2 :: b3 :: b4 :: b5 :: b6 :: b7 :: r => BitVec.ofNat 8 (ofBitsMsb [b0, b1, b2, b3, b4, b5, b6, b7]) :: toBytes r
  | l => [BitVec.ofNat 8 (ofBitsMsb (l ++ List.replicate (8 - l.length) false))]

/-! ### Encoding -/

def minOf (l : List Nat) : Nat := l.foldl min 255
def maxOf (l : List Nat) : Nat := l.foldl max 0

/-- A plain block of index width k behind a nibble (R124). -/
def encPlain (nib k pad : Nat) (s : List Nat) : List Bool :=
  let mn := minOf s
  let mx := maxOf s
  bitsMsb 4 nib ++ bitsMsb 8 mn ++ bitsMsb 8 mx ++ s.flatMap (fun v => bitsMsb k (quantise k mn mx v)) ++ List.replicate pad false

/-- The samples of a half of a block. -/
def halfSamples (h : Nat) (s : List Nat) : List Nat := ((s.zipIdx).filter fun p => halfOf p.2 = h).map (·.1)

/-- The split block (R124). -/
def encSplit (s : List Nat) : List Bool :=
  let s0 := halfSamples 0 s
  let s1 := halfSamples 1 s
  bitsMsb 4 3 ++ bitsMsb 8 (minOf s0) ++ bitsMsb 8 (maxOf s0) ++ bitsMsb 8 (minOf s1) ++ bitsMsb 8 (maxOf s1)
    ++ (s.zipIdx).flatMap (fun p => if halfOf p.2 = 0 then bitsMsb 2 (quantise 2 (minOf s0) (maxOf s0) p.1)
                                    else bitsMsb 2 (quantise 2 (minOf s1) (maxOf s1) p.1)) ++ List.replicate 28 false

/-- What a block decodes to in the plain form of width k. -/
def rebuiltPlain (k : Nat) (s : List Nat) : List Nat := s.map fun v => rebuild k (minOf s) (maxOf s) (quantise k (minOf s) (maxOf s) v)

/-- What a block decodes to in the split form. -/
def rebuiltSplit (s : List Nat) : List Nat :=
  let s0 := halfSamples 0 s
  let s1 := halfSamples 1 s
  (s.zipIdx).map fun p => if halfOf p.2 = 0 then rebuild 2 (minOf s0) (maxOf s0) (quantise 2 (minOf s0) (maxOf s0) p.1)
    else rebuild 2 (minOf s1) (maxOf s1) (quantise 2 (minOf s1) (maxOf s1) p.1)

/-- The sum of squared differences (R128 step 5). -/
def sqErr (a b : List Nat) : Nat := ((a.zip b).map fun p => (p.1 - p.2 + (p.2 - p.1)) ^ 2).foldl (· + ·) 0

/-- A block in the form of its ratio, and the samples it decodes to (R128 steps 4 and 5). -/
def encBlock (ratio : Nat) (split : Bool) (s : List Nat) : List (BitVec 8) × List Nat :=
  match ratio with
  | 0 => (s.map (BitVec.ofNat 8), s)
  | 1 => (toBytes (encPlain 1 5 12 s), rebuiltPlain 5 s)
  | 2 =>
    if split && sqErr s (rebuiltSplit s) < sqErr s (rebuiltPlain 3 s) then (toBytes (encSplit s), rebuiltSplit s)
    else (toBytes (encPlain 2 3 12 s), rebuiltPlain 3 s)
  | _ => (toBytes (encPlain 4 2 12 s), rebuiltPlain 2 s)

/-- An element of a segment: its bytes, the blocks it stands for, and the fill value after it. -/
structure Elem where
  bytes : List (BitVec 8)
  blocks : Nat
  fill : Nat

/-- How many of the first blocks are uniform at a value. -/
def uniformRun (fill : Nat) : List (List Nat) → Nat
  | [] => 0
  | s :: r => if s.all (· = fill) then uniformRun fill r + 1 else 0

/-- The next element of a segment that may still take `room` blocks (R128 steps 3 to 5). -/
def nextElem (ratio : Nat) (fillEn split : Bool) (fill room : Nat) (blocks : List (List Nat)) : Elem :=
  let run := min room (uniformRun fill blocks)
  if ratio ≠ 0 && fillEn && run ≠ 0 then ⟨toBytes (bitsMsb 4 15 ++ bitsMsb 20 run), run, fill⟩
  else
    let (bs, out) := encBlock ratio split (blocks.headD [])
    ⟨bs, 1, out.getD 31 0⟩

/-- Pad to a multiple of 4 (R128 step 6). -/
def padTo4 (bs : List (BitVec 8)) : List (BitVec 8) := bs ++ List.replicate ((4 - bs.length % 4) % 4) 0

/-- A segment header (R122). -/
def segHeader (cont : Bool) (ratio count len : Nat) : List (BitVec 8) :=
  toBytes (bitsMsb 1 cont.toNat ++ bitsMsb 2 ratio ++ bitsMsb 13 count ++ bitsMsb 16 len)

/-- The payload of a segment within `space` bytes: its bytes, its blocks, the fill value, and whether it closed for want of
space (R129). -/
def encPayload (ratio : Nat) (fillEn split : Bool) (space : Nat) :
    Nat → Nat → Nat → List (List Nat) → List (BitVec 8) → List (BitVec 8) × Nat × Nat × Bool
  | 0, done, fill, _, acc => (acc, done, fill, false)
  | _, done, fill, [], acc => (acc, done, fill, false)
  | fuel + 1, done, fill, blocks, acc =>
    if 8191 ≤ done then (acc, done, fill, false)
    else
      let e := nextElem ratio fillEn split fill (8191 - done) blocks
      if space < (padTo4 (acc ++ e.bytes)).length then (acc, done, fill, true)
      else encPayload ratio fillEn split space fuel (done + e.blocks) e.fill (blocks.drop e.blocks) (acc ++ e.bytes)

/-- The result of encoding a block row: its bytes, the blocks consumed, and whether every block was written. -/
structure EncRow where
  bytes : List (BitVec 8)
  blocks : Nat
  whole : Bool
  deriving DecidableEq, Repr

/-- Encode a block row into a slot of `space` bytes (R128, R129). -/
def encSegs (ratio : Nat) (fillEn split : Bool) : Nat → Bool → Nat → Nat → List (List Nat) → Nat → List (BitVec 8) → EncRow
  | 0, _, _, _, blocks, done, acc => ⟨acc, done, blocks.isEmpty⟩
  | fuel + 1, cont, space, fill, blocks, done, acc =>
    if blocks.isEmpty then ⟨acc, done, true⟩
    else
      let (pl, n, fill', full) := encPayload ratio fillEn split (space - acc.length - 4) 8192 0 fill blocks []
      if n = 0 then ⟨acc, done, false⟩
      else
        let pl := padTo4 pl
        let acc := acc ++ segHeader cont ratio n (pl.length / 4) ++ pl
        if full then ⟨acc, done + n, false⟩
        else encSegs ratio fillEn split fuel true space fill' (blocks.drop n) (done + n) acc

/-- A source line padded across to whole blocks (R128 step 1). -/
def padLine (w : Nat) (l : List Nat) : List Nat :=
  (l.take w) ++ List.replicate (8 * blocksOf w - w) ((l.take w).getD (w - 1) 0)

/-- The blocks of four source lines W pixels wide (R120). -/
def rowBlocks (w : Nat) (lines : List (List Nat)) : List (List Nat) :=
  (List.range (blocksOf w)).map fun j => lines.flatMap fun l => (padLine w l).drop (8 * j) |>.take 8

/-- Encode four source lines as one block row (R128). -/
def encRow (ratio : Nat) (fillEn split : Bool) (w space : Nat) (lines : List (List Nat)) : EncRow :=
  encSegs ratio fillEn split (blocksOf w + 1) false space 0 (rowBlocks w lines) 0 []

/-! ### Decoding -/

/-- A field of a byte list: `w` bits from bit `at_`, most significant bit first (R119). -/
def streamBits (bs : List (BitVec 8)) (at_ w : Nat) : Nat :=
  ofBitsMsb ((List.range w).map fun i =>
    let p := at_ + i
    Nat.testBit (bs.getD (p / 8) 0).toNat (7 - p % 8))

/-- Bytes of an element by its nibble (R124). -/
def elemBytes : Nat → Nat
  | 1 => 24
  | 2 => 16
  | 3 => 16
  | 4 => 12
  | _ => 3

/-- The nibbles a ratio allows (R123). -/
def nibbleOk (ratio nib : Nat) : Bool :=
  nib = 15 || (ratio = 1 && nib = 1) || (ratio = 2 && (nib = 2 || nib = 3)) || (ratio = 3 && nib = 4)

/-- The 32 samples of a plain block at byte p. -/
def decPlain (bs : List (BitVec 8)) (p k : Nat) : List Nat :=
  let mn := streamBits bs (8 * p + 4) 8
  let mx := streamBits bs (8 * p + 12) 8
  (List.range 32).map fun i => rebuild k mn mx (streamBits bs (8 * p + 20 + k * i) k)

/-- The 32 samples of a split block at byte p. -/
def decSplit (bs : List (BitVec 8)) (p : Nat) : List Nat :=
  (List.range 32).map fun i =>
    let h := halfOf i
    rebuild 2 (streamBits bs (8 * p + 4 + 16 * h) 8) (streamBits bs (8 * p + 12 + 16 * h) 8) (streamBits bs (8 * p + 36 + 2 * i) 2)

/-- The bounds of a block are in order (R131, 0x06). -/
def boundsOk (bs : List (BitVec 8)) (p nib : Nat) : Bool :=
  decide (streamBits bs (8 * p + 4) 8 ≤ streamBits bs (8 * p + 12) 8) &&
  (nib ≠ 3 || decide (streamBits bs (8 * p + 20) 8 ≤ streamBits bs (8 * p + 28) 8))

/-- The samples of a block element. -/
def decElem (bs : List (BitVec 8)) (p nib : Nat) : List Nat :=
  match nib with
  | 1 => decPlain bs p 5
  | 2 => decPlain bs p 3
  | 3 => decSplit bs p
  | _ => decPlain bs p 2

/-- The elements of one segment: blocks decoded, fill value and the end of the last element, or a failure code (R131). -/
def decElems (bs : List (BitVec 8)) (ratio end_ : Nat) :
    Nat → Nat → Nat → Nat → List (List Nat) → Except Nat (List (List Nat) × Nat × Nat)
  | 0, p, _, fill, acc => .ok (acc, fill, p)
  | fuel + 1, p, left, fill, acc =>
    if left = 0 then .ok (acc, fill, p)
    else if end_ ≤ p then .error 7
    else if ratio = 0 then
      if end_ < p + 32 then .error 7
      else
        let s := (List.range 32).map fun i => (bs.getD (p + i) 0).toNat
        decElems bs ratio end_ fuel (p + 32) (left - 1) (s.getD 31 0) (acc ++ [s])
    else
      let nib := streamBits bs (8 * p) 4
      if !nibbleOk ratio nib then .error 5
      else if end_ < p + elemBytes nib then .error 7
      else if nib = 15 then
        let run := streamBits bs (8 * p + 4) 20
        if run = 0 ∨ left < run then .error 4
        else decElems bs ratio end_ fuel (p + 3) (left - run) fill (acc ++ List.replicate run (List.replicate 32 fill))
      else if !boundsOk bs p nib then .error 6
      else
        let s := decElem bs p nib
        decElems bs ratio end_ fuel (p + elemBytes nib) (left - 1) (s.getD 31 0) (acc ++ [s])

/-- The segments of a slot (R131): the blocks of the row, or the code of the first check that fails. -/
def decSegs (bs : List (BitVec 8)) (stride b : Nat) : Nat → Nat → Nat → Bool → Nat → List (List Nat) → Except Nat (List (List Nat))
  | 0, _, _, _, _, acc => .ok acc
  | fuel + 1, at_, fill, first, rr, acc =>
    if b ≤ acc.length then .ok acc
    else if stride < at_ + 4 then .error 8
    else
      let cont := streamBits bs (8 * at_) 1
      let ratio := streamBits bs (8 * at_ + 1) 2
      let count := streamBits bs (8 * at_ + 3) 13
      let len := streamBits bs (8 * at_ + 16) 16
      if decide (cont = 1) == first then .error 1
      else if !first && ratio ≠ rr then .error 2
      else if count = 0 ∨ b < acc.length + count then .error 3
      else if stride < at_ + 4 + 4 * len then .error 8
      else
        match decElems bs ratio (at_ + 4 + 4 * len) (count + 1) (at_ + 4) count fill [] with
        | .error e => .error e
        | .ok (blks, fill', p) =>
          if p + 3 < at_ + 4 + 4 * len then .error 7
          else decSegs bs stride b fuel (at_ + 4 + 4 * len) fill' false ratio (acc ++ blks)

/-- How far into a slot a reader goes: the end of the last segment of the row, as the headers give it (R131). -/
def rowExtent (bs : List (BitVec 8)) (stride b : Nat) : Nat → Nat → Nat → Nat
  | 0, at_, _ => min stride at_
  | fuel + 1, at_, done =>
    if b ≤ done ∨ stride < at_ + 4 then min stride at_
    else rowExtent bs stride b fuel (at_ + 4 + 4 * streamBits bs (8 * at_ + 16) 16) (done + max 1 (streamBits bs (8 * at_ + 3) 13))

/-- Decode a block row W pixels wide from its slot: its blocks, or a failure code (R131). -/
def decRow (slot : List (BitVec 8)) (stride w : Nat) : Except Nat (List (List Nat)) :=
  decSegs slot stride (blocksOf w) (blocksOf w + 1) 0 0 true 0 []

/-- The four source lines of a decoded row (R120); samples beyond W are discarded. -/
def blockLines (w : Nat) (blks : List (List Nat)) : List (List Nat) :=
  (List.range 4).map fun l => (blks.flatMap fun s => (s.drop (8 * l)).take 8).take w

end Sys2Proof.Machine
end

