-- ==== Sys2Proof/Machine/Sines.lean ====
section
/-!
DEFINITION. The tables the interpolator and the trim arithmetic rest on: sines at steps of 1/4,096 turn, and at odd
multiples of half a phase code (0.025 degree), each rounded to 48 fraction bits. They are the sine function's own values.
-/
namespace Sys2Proof.Machine

def sinRow0 : List Nat := [0, 431777037209, 863553058405, 1295327047577, 1727097988720, 2158864865834, 2590626662931, 3022382364033, 3454130953177, 3885871414417, 4317602731827, 4749323889500, 5181033871556, 5612731662138, 6044416245421, 6476086605608, 6907741726938, 7339380593684, 7771002190159, 8202605500715, 8634189509748, 9065753201699, 9497295561057, 9928815572361, 10360312220203, 10791784489229, 11223231364145, 11654651829712, 12086044870759, 12517409472174, 12948744618915, 13380049296010, 13811322488556, 14242563181726, 14673770360770, 15104943011014, 15536080117868, 15967180666825, 16398243643463, 16829268033451, 17260252822544, 17691196996596, 18122099541552, 18552959443458, 18983775688458, 19414547262800, 19845273152836, 20275952345028, 20706583825946, 21137166582272, 21567699600803, 21998181868453, 22428612372257, 22858990099369, 23289314037069, 23719583172764, 24149796493988, 24579952988408, 25010051643825, 25440091448174, 25870071389531, 26299990456111, 26729847636273, 27159641918521]
def sinRow1 : List Nat := [27589372291508, 28019037744037, 28448637265064, 28878169843700, 29307634469212, 29737030131029, 30166355818742, 30595610522106, 31024793231043, 31453902935644, 31882938626174, 32311899293069, 32740783926944, 33169591518591, 33598321058986, 34026971539286, 34455541950835, 34884031285166, 35312438534001, 35740762689257, 36169002743046, 36597157687678, 37025226515663, 37453208219713, 37881101792747, 38308906227889, 38736620518474, 39164243658049, 39591774640376, 40019212459432, 40446556109416, 40873804584746, 41300956880066, 41728011990245, 42154968910381, 42581826635803, 43008584162074, 43435240484992, 43861794600593, 44288245505155, 44714592195197, 45140833667484, 45566968919029, 45992996947095, 46418916749196, 46844727323102, 47270427666840, 47696016778695, 48121493657216, 48546857301213, 48972106709766, 49397240882221, 49822258818197, 50247159517586, 50671941980554, 51096605207548, 51521148199294, 51945569956802, 52369869481366, 52794045774569, 53218097838282, 53642024674670, 54065825286192, 54489498675605]
def sinRow2 : List Nat := [54913043845964, 55336459800627, 55759745543254, 56182900077814, 56605922408583, 57028811540148, 57451566477412, 57874186225589, 58296669790217, 58719016177149, 59141224392563, 59563293442964, 59985222335182, 60407010076378, 60828655674043, 61250158136006, 61671516470431, 62092729685820, 62513796791018, 62934716795213, 63355488707941, 63776111539084, 64196584298876, 64616905997904, 65037075647110, 65457092257795, 65876954841619, 66296662410605, 66716213977140, 67135608553979, 67554845154247, 67973922791438, 68392840479422, 68811597232447, 69230192065136, 69648623992496, 70066892029916, 70484995193171, 70902932498423, 71320702962227, 71738305601527, 72155739433664, 72573003476376, 72990096747801, 73407018266478, 73823767051350, 74240342121767, 74656742497488, 75072967198682, 75489015245932, 75904885660238, 76320577463015, 76736089676102, 77151421321757, 77566571422665, 77981539001938, 78396323083117, 78810922690175, 79225336847519, 79639564579993, 80053604912878, 80467456871898, 80881119483219, 81294591773453]
def sinRow3 : List Nat := [81707872769660, 82120961499350, 82533856990485, 82946558271481, 83359064371214, 83771374319016, 84183487144683, 84595401878472, 85007117551109, 85418633193787, 85829947838171, 86241060516396, 86651970261075, 87062676105298, 87473177082634, 87883472227135, 88293560573336, 88703441156261, 89113113011420, 89522575174816, 89931826682945, 90340866572799, 90749693881868, 91158307648140, 91566706910110, 91974890706773, 92382858077633, 92790608062705, 93198139702513, 93605452038095, 94012544111007, 94419414963321, 94826063637631, 95232489177054, 95638690625231, 96044667026330, 96450417425050, 96855940866622, 97261236396808, 97666303061910, 98071139908767, 98475745984758, 98880120337807, 99284262016381, 99688170069496, 100091843546718, 100495281498163, 100898482974503, 101301447026966, 101704172707340, 102106659067970, 102508905161769, 102910910042212, 103312672763343, 103714192379775, 104115467946694, 104516498519860, 104917283155609, 105317820910856, 105718110843097, 106118152010411, 106517943471463, 106917484285505, 107316773512378]
def sinRow4 : List Nat := [107715810212518, 108114593446950, 108513122277301, 108911395765793, 109309412975251, 109707172969101, 110104674811375, 110501917566714, 110898900300367, 111295622078196, 111692081966674, 112088279032895, 112484212344568, 112879880970024, 113275283978216, 113670420438723, 114065289421750, 114459889998133, 114854221239339, 115248282217468, 115642072005256, 116035589676078, 116428834303948, 116821804963526, 117214500730111, 117606920679654, 117999063888752, 118390929434655, 118782516395264, 119173823849139, 119564850875494, 119955596554205, 120346059965811, 120736240191513, 121126136313178, 121515747413345, 121905072575220, 122294110882684, 122682861420291, 123071323273275, 123459495527548, 123847377269701, 124234967587013, 124622265567445, 125009270299648, 125395980872963, 125782396377422, 126168515903752, 126554338543377, 126939863388419, 127325089531701, 127710016066747, 128094642087789, 128478966689766, 128862988968322, 129246708019819, 129630122941326, 130013232830633, 130396036786243, 130778533907384, 131160723294001, 131542604046767, 131924175267079, 132305436057064]
def sinRow5 : List Nat := [132686385519577, 133067022758208, 133447346877281, 133827356981856, 134207052177732, 134586431571451, 134965494270297, 135344239382296, 135722666016227, 136100773281615, 136478560288736, 136856026148621, 137233169973058, 137609990874589, 137986487966519, 138362660362913, 138738507178603, 139114027529184, 139489220531019, 139864085301245, 140238620957768, 140612826619269, 140986701405207, 141360244435817, 141733454832118, 142106331715908, 142478874209773, 142851081437083, 143222952522001, 143594486589476, 143965682765254, 144336540175873, 144707057948671, 145077235211784, 145447071094148, 145816564725505, 146185715236399, 146554521758184, 146922983423023, 147291099363890, 147658868714572, 148026290609673, 148393364184614, 148760088575634, 149126462919796, 149492486354986, 149858158019915, 150223477054122, 150588442597977, 150953053792680, 151317309780266, 151681209703606, 152044752706407, 152407937933219, 152770764529430, 153133231641275, 153495338415834, 153857084001035, 154218467545655, 154579488199324, 154940145112526, 155300437436599, 155660364323742, 156019924927011]
def sinRow6 : List Nat := [156379118400326, 156737943898470, 157096400577092, 157454487592708, 157812204102705, 158169549265342, 158526522239751, 158883122185940, 159239348264795, 159595199638081, 159950675468447, 160305774919423, 160660497155425, 161014841341758, 161368806644617, 161722392231085, 162075597269143, 162428420927665, 162780862376422, 163132920786086, 163484595328229, 163835885175328, 164186789500763, 164537307478822, 164887438284703, 165237181094515, 165586535085278, 165935499434929, 166284073322321, 166632255927226, 166980046430337, 167327444013269, 167674447858562, 168021057149682, 168367271071025, 168713088807915, 169058509546611, 169403532474303, 169748156779119, 170092381650125, 170436206277328, 170779629851673, 171122651565052, 171465270610303, 171807486181209, 172149297472504, 172490703679873, 172831703999955, 173172297630342, 173512483769585, 173852261617193, 174191630373636, 174530589240346, 174869137419721, 175207274115124, 175544998530887, 175882309872311, 176219207345670, 176555690158212, 176891757518161, 177227408634718, 177562642718062, 177897458979356, 178231856630745]
def sinRow7 : List Nat := [178565834885359, 178899392957314, 179232530061717, 179565245414664, 179897538233242, 180229407735536, 180560853140624, 180891873668583, 181222468540490, 181552636978423, 181882378205464, 182211691445699, 182540575924224, 182869030867141, 183197055501564, 183524649055619, 183851810758447, 184178539840205, 184504835532068, 184830697066231, 185156123675909, 185481114595343, 185805669059797, 186129786305564, 186453465569965, 186776706091350, 187099507109104, 187421867863644, 187743787596426, 188065265549939, 188386300967717, 188706893094331, 189027041175397, 189346744457576, 189666002188575, 189984813617150, 190303177993107, 190621094567303, 190938562591650, 191255581319116, 191572150003724, 191888267900559, 192203934265763, 192519148356544, 192833909431172, 193148216748984, 193462069570384, 193775467156848, 194088408770919, 194400893676216, 194712921137432, 195024490420336, 195335600791775, 195646251519677, 195956441873051, 196266171121988, 196575438537666, 196884243392349, 197192584959388, 197500462513227, 197807875329401, 198114822684535, 198421303856356, 198727318123681]
def sinRow8 : List Nat := [199032864766430, 199337943065623, 199642552303381, 199946691762928, 200250360728596, 200553558485821, 200856284321150, 201158537522241, 201460317377861, 201761623177895, 202062454213340, 202362809776311, 202662689160044, 202962091658892, 203261016568334, 203559463184969, 203857430806525, 204154918731854, 204451926260938, 204748452694891, 205044497335956, 205340059487513, 205635138454075, 205929733541293, 206223844055955, 206517469305992, 206810608600475, 207103261249619, 207395426564783, 207687103858475, 207978292444351, 208268991637214, 208559200753021, 208848919108884, 209138146023066, 209426880814988, 209715122805230, 210002871315530, 210290125668788, 210576885189068, 210863149201596, 211148917032765, 211434188010136, 211718961462439, 212003236719574, 212287013112615, 212570289973808, 212853066636575, 213135342435515, 213417116706407, 213698388786208, 213979158013057, 214259423726278, 214539185266379, 214818441975053, 215097193195182, 215375438270838, 215653176547283, 215930407370973, 216207130089556, 216483344051877, 216759048607979, 217034243109100, 217308926907683]
def sinRow9 : List Nat := [217583099357370, 217856759813006, 218129907630643, 218402542167536, 218674662782150, 218946268834160, 219217359684450, 219487934695117, 219757993229472, 220027534652042, 220296558328568, 220565063626013, 220833049912557, 221100516557603, 221367462931777, 221633888406926, 221899792356128, 222165174153683, 222430033175123, 222694368797210, 222958180397935, 223221467356524, 223484229053439, 223746464870375, 224008174190266, 224269356397285, 224530010876845, 224790137015600, 225049734201449, 225308801823535, 225567339272246, 225825345939218, 226082821217338, 226339764500741, 226596175184814, 226852052666199, 227107396342791, 227362205613741, 227616479879460, 227870218541614, 228123421003133, 228376086668206, 228628214942287, 228879805232094, 229130856945610, 229381369492086, 229631342282043, 229880774727270, 230129666240828, 230378016237052, 230625824131550, 230873089341207, 231119811284182, 231365989379917, 231611623049129, 231856711713820, 232101254797271, 232345251724050, 232588701920008, 232831604812283, 233073959829301, 233315766400778, 233557023957719, 233797731932421]
def sinRow10 : List Nat := [234037889758477, 234277496870771, 234516552705484, 234755056700096, 234993008293383, 235230406925421, 235467252037590, 235703543072570, 235939279474345, 236174460688204, 236409086160743, 236643155339867, 236876667674788, 237109622616028, 237342019615422, 237573858126117, 237805137602576, 238035857500575, 238266017277208, 238495616390886, 238724654301342, 238953130469626, 239181044358112, 239408395430496, 239635183151801, 239861406988371, 240087066407881, 240312160879333, 240536689873056, 240760652860714, 240984049315298, 241206878711137, 241429140523890, 241650834230554, 241871959309463, 242092515240288, 242312501504039, 242531917583068, 242750762961067, 242969037123072, 243186739555463, 243403869745964, 243620427183648, 243836411358935, 244051821763591, 244266657890737, 244480919234841, 244694605291727, 244907715558569, 245120249533900, 245332206717606, 245543586610931, 245754388716479, 245964612538211, 246174257581450, 246383323352882, 246591809360554, 246799715113879, 247007040123635, 247213783901965, 247419945962381, 247625525819765, 247830522990368, 248034936991810]
def sinRow11 : List Nat := [248238767343086, 248442013564563, 248644675177984, 248846751706466, 249048242674504, 249249147607970, 249449466034115, 249649197481570, 249848341480349, 250046897561846, 250244865258839, 250442244105491, 250639033637352, 250835233391355, 251030842905825, 251225861720472, 251420289376400, 251614125416100, 251807369383458, 252000020823753, 252192079283656, 252383544311236, 252574415455957, 252764692268680, 252954374301667, 253143461108576, 253331952244469, 253519847265807, 253707145730456, 253893847197683, 254079951228163, 254265457383974, 254450365228604, 254634674326944, 254818384245300, 255001494551383, 255184004814317, 255365914604637, 255547223494294, 255727931056648, 255908036866479, 256087540499979, 256266441534759, 256444739549848, 256622434125693, 256799524844162, 256976011288543, 257151893043546, 257327169695306, 257501840831378, 257675906040745, 257849364913815, 258022217042422, 258194462019828, 258366099440724, 258537128901231, 258707549998900, 258877362332714, 259046565503088, 259215159111870, 259383142762344, 259550516059227, 259717278608674, 259883430018278]
def sinRow12 : List Nat := [260048969897066, 260213897855509, 260378213505514, 260541916460432, 260705006335052, 260867482745610, 261029345309782, 261190593646690, 261351227376901, 261511246122428, 261670649506733, 261829437154723, 261987608692755, 262145163748637, 262302101951627, 262458422932433, 262614126323218, 262769211757596, 262923678870636, 263077527298862, 263230756680255, 263383366654250, 263535356861741, 263686726945081, 263837476548081, 263987605316014, 264137112895611, 264285998935066, 264434263084037, 264581904993644, 264728924316471, 264875320706567, 265021093819447, 265166243312094, 265310768842956, 265454670071951, 265597946660465, 265740598271355, 265882624568948, 266024025219042, 266164799888908, 266304948247289, 266444469964403, 266583364711941, 266721632163072, 266859271992438, 266996283876159, 267132667491833, 267268422518537, 267403548636825, 267538045528733, 267671912877777, 267805150368954, 267937757688743, 268069734525107, 268201080567490, 268331795506824, 268461879035524, 268591330847489, 268720150638108, 268848338104256, 268975892944294, 269102814858074, 269229103546936]
def sinRow13 : List Nat := [269354758713711, 269479780062720, 269604167299776, 269727920132184, 269851038268740, 269973521419738, 270095369296961, 270216581613689, 270337158084700, 270457098426263, 270576402356150, 270695069593624, 270813099859452, 270930492875897, 271047248366720, 271163366057187, 271278845674059, 271393686945603, 271507889601587, 271621453373279, 271734377993454, 271846663196389, 271958308717866, 272069314295173, 272179679667102, 272289404573954, 272398488757534, 272506931961158, 272614733929647, 272721894409335, 272828413148060, 272934289895176, 273039524401543, 273144116419534, 273248065703035, 273351372007442, 273454035089667, 273556054708132, 273657430622776, 273758162595052, 273858250387927, 273957693765885, 274056492494926, 274154646342568, 274252155077845, 274349018471309, 274445236295032, 274540808322603, 274635734329132, 274730014091250, 274823647387107, 274916633996375, 275008973700247, 275100666281439, 275191711524190, 275282109214261, 275371859138937, 275460961087030, 275549414848872, 275637220216325, 275724376982772, 275810884943127, 275896743893827, 275981953632838]
def sinRow14 : List Nat := [276066513959654, 276150424675295, 276233685582311, 276316296484783, 276398257188318, 276479567500054, 276560227228662, 276640236184340, 276719594178820, 276798301025365, 276876356538769, 276953760535362, 277030512833003, 277106613251088, 277182061610544, 277256857733835, 277331001444957, 277404492569444, 277477330934364, 277549516368320, 277621048701455, 277691927765445, 277762153393504, 277831725420386, 277900643682381, 277968908017317, 278036518264561, 278103474265021, 278169775861142, 278235422896911, 278300415217853, 278364752671035, 278428435105065, 278491462370092, 278553834317807, 278615550801442, 278676611675774, 278737016797119, 278796766023338, 278855859213837, 278914296229562, 278972076933006, 279029201188206, 279085668860742, 279141479817740, 279196633927873, 279251131061356, 279304971089954, 279358153886975, 279410679327274, 279462547287256, 279513757644868, 279564310279609, 279614205072523, 279663441906203, 279712020664789, 279759941233972, 279807203500989, 279853807354628, 279899752685226, 279945039384668, 279989667346391, 280033636465381, 280076946638174]
def sinRow15 : List Nat := [280119597762857, 280161589739068, 280202922467996, 280243595852381, 280283609796515, 280322964206240, 280361658988952, 280399694053599, 280437069310680, 280473784672248, 280509840051908, 280545235364818, 280579970527690, 280614045458788, 280647460077931, 280680214306491, 280712308067394, 280743741285120, 280774513885704, 280804625796736, 280834076947358, 280862867268270, 280890996691725, 280918465151531, 280945272583053, 280971418923211, 280996904110479, 281021728084889, 281045890788027, 281069392163036, 281092232154615, 281114410709019, 281135927774060, 281156783299106, 281176977235083, 281196509534472, 281215380151311, 281233589041196, 281251136161281, 281268021470274, 281284244928443, 281299806497613, 281314706141165, 281328943824041, 281342519512736, 281355433175306, 281367684781364, 281379274302080, 281390201710184, 281400466979963, 281410070087260, 281419011009479, 281427289725581, 281434906216086, 281441860463071, 281448152450171, 281453782162583, 281458749587057, 281463054711906, 281466697526999, 281469678023765, 281471996195188, 281473652035816, 281474645541751]
def sinRow16 : List Nat := [281474976710656]
def sinRows : List (List Nat) := [sinRow0, sinRow1, sinRow2, sinRow3, sinRow4, sinRow5, sinRow6, sinRow7, sinRow8, sinRow9, sinRow10, sinRow11, sinRow12, sinRow13, sinRow14, sinRow15, sinRow16]
/-- 2^48 sin(2 pi k / 4096), for k up to 1024. -/
def sinQ (k : Nat) : Nat := (sinRows.getD (k / 64) []).getD (k % 64) 0

def asinRow0 : List Nat := [122816623742, 368449777697, 614082651061, 859715056774, 1105346807776, 1350977717010, 1596607597414, 1842236261933, 2087863523509, 2333489195085, 2579113089609, 2824735020025, 3070354799283, 3315972240332, 3561587156124, 3807199359612, 4052808663752, 4298414881503, 4544017825823, 4789617309676, 5035213146028, 5280805147845, 5526393128100, 5771976899765, 6017556275820, 6263131069243, 6508701093020, 6754266160137, 6999826083587, 7245380676365, 7490929751471, 7736473121908, 7982010600683, 8227542000811, 8473067135307, 8718585817194, 8964097859499, 9209603075253, 9455101277494, 9700592279264, 9946075893611, 10191551933589, 10437020212256, 10682480542679, 10927932737928, 11173376611080, 11418811975221, 11664238643439, 11909656428832, 12155065144504, 12400464603565, 12645854619132, 12891235004332, 13136605572295, 13381966136161, 13627316509078, 13872656504201, 14117985934692, 14363304613723, 14608612354472, 14853908970128, 15099194273886, 15344468078951, 15589730198536]
def asinRow1 : List Nat := [15834980445863, 16080218634163, 16325444576678, 16570658086656, 16815858977357, 17061047062051, 17306222154014, 17551384066537, 17796532612917, 18041667606464, 18286788860496, 18531896188342, 18776989403344, 19022068318851, 19267132748226, 19512182504841, 19757217402080, 20002237253338, 20247241872023, 20492231071553, 20737204665357, 20982162466877, 21227104289568, 21472029946896, 21716939252339, 21961832019388, 22206708061547, 22451567192331, 22696409225270, 22941233973907, 23186041251795, 23430830872505, 23675602649618, 23920356396729, 24165091927448, 24409809055399, 24654507594218, 24899187357557, 25143848159082, 25388489812473, 25633112131424, 25877714929645, 26122298020861, 26366861218810, 26611404337248, 26855927189944, 27100429590682, 27344911353265, 27589372291508, 27833812219244, 28078230950321, 28322628298604, 28567004077974, 28811358102327, 29055690185577, 29300000141656, 29544287784510, 29788552928103, 30032795386418, 30277014973452, 30521211503223, 30765384789763, 31009534647124, 31253660889376]
def asinRow2 : List Nat := [31497763330605, 31741841784918, 31985896066437, 32229925989305, 32473931367682, 32717912015748, 32961867747700, 33205798377756, 33449703720153, 33693583589145, 33937437799007, 34181266164034, 34425068498540, 34668844616859, 34912594333344, 35156317462371, 35400013818332, 35643683215642, 35887325468737, 36130940392073, 36374527800126, 36618087507394, 36861619328395, 37105123077670, 37348598569779, 37592045619305, 37835464040854, 38078853649051, 38322214258544, 38565545684004, 38808847740124, 39052120241617, 39295363003223, 39538575839700, 39781758565831, 40024910996423, 40268032946304, 40511124230326, 40754184663365, 40997214060319, 41240212236111, 41483179005688, 41726114184020, 41969017586100, 42211889026947, 42454728321605, 42697535285141, 42940309732646, 43183051479237, 43425760340056, 43668436130269, 43911078665069, 44153687759672, 44396263229321, 44638804889284, 44881312554856, 45123786041356, 45366225164129, 45608629738549, 45850999580013, 46093334503947, 46335634325801, 46577898861053, 46820127925210]
def asinRow3 : List Nat := [47062321333803, 47304478902390, 47546600446559, 47788685781924, 48030734724125, 48272747088833, 48514722691744, 48756661348583, 48998562875103, 49240427087086, 49482253800342, 49724042830710, 49965793994055, 50207507106275, 50449181983294, 50690818441067, 50932416295576, 51173975362834, 51415495458884, 51656976399798, 51898418001677, 52139820080653, 52381182452888, 52622504934574, 52863787341933, 53105029491218, 53346231198714, 53587392280733, 53828512553623, 54069591833758, 54310629937548, 54551626681429, 54792581881875, 55033495355385, 55274366918495, 55515196387770, 55755983579808, 55996728311239, 56237430398725, 56478089658962, 56718705908676, 56959278964629, 57199808643613, 57440294762455, 57680737138013, 57921135587181, 58161489926884, 58401799974083, 58642065545770, 58882286458974, 59122462530755, 59362593578209, 59602679418465, 59842719868689, 60082714746078, 60322663867866, 60562567051321, 60802424113747, 61042234872482, 61281999144900, 61521716748410, 61761387500456, 62001011218518, 62240587720114]
/-- 2^48 sin((k + 1/2) 0.05 degree), rising with k. -/
def asinBounds : List Nat := asinRow0 ++ asinRow1 ++ asinRow2 ++ asinRow3

end Sys2Proof.Machine
end

