-- ==== Sys2Proof/Machine/Pos.lean ====
section
/-!
DEFINITION. Web position and speed (spec/02_web_position.md, R28 to R59, R466): counts, the web coordinate, the high-water
mark, faults, the serial word and the interpolator. The commands are in PosCmd.lean and ExecPos.lean.
-/
namespace Sys2Proof.Machine

/-- 2^72: the web accumulator has 48 integer and 24 fraction bits (R44). -/
abbrev webFull : Nat := 2 ^ 72

/-- The web coordinate POS_WEB. -/
def Dev.web (d : Dev) : Nat := d.pos.web / 2 ^ 24

/-- The source channel (R28). -/
def Dev.src (d : Dev) : Fin 4 := ⟨d.get F.POS_CFG_SRC % 4, Nat.mod_lt _ (by decide)⟩

def Dev.chEn (d : Dev) (ch : Fin 4) : Bool := Nat.testBit (d.get F.POS_CFG_CH_EN) ch

/-- An enabled channel counts, but for one that a BLOCK reset holds (R377). -/
def Dev.chRuns (d : Dev) (ch : Fin 4) : Bool := d.chEn ch && !d.unitHeld (0x50 + ch.val)

/-- POS_SCALE in effect, 2^-24 nm per count (R6, R44). -/
def Dev.scale (d : Dev) : Nat :=
  (d.effRd Reg.POS_SCALE_LO).toNat + (d.effRd Reg.POS_SCALE_HI).toNat % 2 ^ 8 * 2 ^ 32

def Dev.posCh (d : Dev) (ch : Fin 4) (f : PosCh → PosCh) : Dev := { d with pos := { d.pos with ch := upd d.pos.ch ch f } }

/-- Signed difference of two accumulator values, modulo 2^72, an exact half counting as before (R45). -/
def diff72 (a b : Nat) : Int :=
  let x := (a % webFull + webFull - b % webFull) % webFull
  if x < 2 ^ 71 then (x : Int) else (x : Int) - webFull

/-- The backlash window in 2^-24 nm: POS_BACKLASH counts at the scale. -/
def Dev.backlash (d : Dev) : Nat := d.get F.POS_BACKLASH_COUNTS * d.scale

/-- How far the web is beyond the mark in the mark's direction, 2^-24 nm; negative behind it. DESIGN CHOICE (log 61): the 24 fraction bits
are kept and compared with it. -/
def Pos.ahead (p : Pos) (web : Nat) : Int := if p.markDesc then diff72 p.hwm web else diff72 web p.hwm

/-- The web is behind the mark by more than the backlash window (R50). -/
def Dev.ranBack (d : Dev) : Bool := decide (d.pos.ahead d.pos.web < -(d.backlash : Int))

/-- A record goes before the ENC_FAULT and REG_FAULT records of its cycle. -/
def beforeFaults (r : Event) (l : List Event) : List Event :=
  let later (e : Event) : Bool := (e.code = Ev.ENC_FAULT.code || e.code = Ev.REG_FAULT.code) && e.time = r.time
  (l.takeWhile fun e => !later e) ++ [r] ++ l.dropWhile fun e => !later e

/-- A record raised before an ENC_FAULT or REG_FAULT of the same cycle, whose HOLD has just begun (R51, R64). -/
def Dev.raiseFirst (d : Dev) (k : EvKind) (detail : List Nat) : Dev :=
  match d.sys.trans with
  | some t =>
    if t.dest = .hold && t.at_ = d.now then { d with raised := beforeFaults (d.event k 15 none detail) d.raised }
    else d.raise k 15 none detail
  | none => d.raise k 15 none detail

/-- REVERSE, and HOLD (R50, R51, R64). -/
def Dev.reverse (d : Dev) : Dev :=
  (d.raiseFirst Ev.REVERSE [d.src.val, (-(d.pos.ahead d.pos.web)).toNat / 2 ^ 24]).devTrans .hold 0x01

/-- DIR_CHANGE: the mark turns and restarts at the web coordinate (R50). -/
def Dev.dirChange (d : Dev) : Dev :=
  { d.raise Ev.DIR_CHANGE 15 none [d.src.val] with
    pos := { d.pos with hwm := d.pos.web, markDesc := !d.pos.markDesc, turned := true } }

/-- The mark after the web has moved from `old` (R50), by the rule of the current mode. REVERSE is raised when the web
passes out of the backlash window, and where it is out already and nothing is on its way to another mode. -/
def Dev.mark (d : Dev) (old : Nat) : Dev :=
  let wasOut := decide (d.pos.ahead old < -(d.backlash : Int))
  let forward := decide (0 < d.pos.ahead d.pos.web)
  let moved : Dev := { d with pos := { d.pos with hwm := d.pos.web } }
  match d.sys.mode with
  | .print =>
    if forward then moved
    else if d.ranBack && (!wasOut || d.sys.trans.isNone) then d.reverse
    else d
  | .hold => if forward then moved else d
  | .shuttle => if forward then moved else if d.ranBack then d.dirChange else d
  | .shadow =>
    if forward then moved
    else if d.ranBack && d.bit F.JOB_SCHED_CFG_MODE then
      { d with pos := { d.pos with hwm := d.pos.web, markDesc := !d.pos.markDesc, turned := true } }
    else d
  | .frozen => d
  | _ => moved

/-- The mark as a mode is entered: that of PRINT ascends; outside PRINT, HOLD, SHUTTLE, SHADOW and FROZEN it equals the web coordinate
(R50). -/
def Dev.markMode (d : Dev) (dest : Mode) : Dev :=
  match dest with
  | .print => { d with pos := { d.pos with markDesc := false } }
  | .hold | .shuttle | .shadow | .frozen => d
  | _ => { d with pos := { d.pos with hwm := d.pos.web } }

/-- The backlash comparison as PRINT or SHUTTLE begins, with the web behind the kept mark (R50, R51). -/
def Dev.markEntered (d : Dev) : Dev :=
  if d.mode = .print && d.ranBack then d.reverse
  else if d.mode = .shuttle && d.ranBack then d.dirChange
  else d

/-- Move the web coordinate by a signed amount of 2^-24 nm, raising WEB_WRAP where it wraps (R44). -/
def Dev.webShift (d : Dev) (nm : Int) : Dev :=
  let v : Int := (d.pos.web : Int) + nm
  let d := if v < 0 then d.raise Ev.WEB_WRAP 15 none [d.src.val + 2 ^ 8]
           else if (webFull : Int) ≤ v then d.raise Ev.WEB_WRAP 15 none [d.src.val] else d
  { d with pos := { d.pos with web := (v % (webFull : Int)).toNat } }

/-- A window length of POS_SPEED_WIN, ns: 5 to 650 units of 10 µs. -/
def speedWinNs (win : Nat) : Nat := clampN 5 650 win * 10000

/-- Motion by source counts enters the running speed window, or the next one in the cycle that ends it (R48). -/
def Dev.speedAcc (d : Dev) (nm : Int) : Dev :=
  if d.pos.speedStart + speedWinNs d.pos.speedWin ≤ d.now then { d with pos := { d.pos with accNext := d.pos.accNext + nm } }
  else { d with pos := { d.pos with acc := d.pos.acc + nm } }

/-- The web moves by source counts (R44): the motion of the speed window (R48), the accumulator, and the mark (R50). A count that coincides
with a set of the coordinate is lost (R46). While a trim interruption runs, the motion is kept beside the coordinate (R54). -/
def Dev.webMove (d : Dev) (ch : Fin 4) (nm : Int) : Dev :=
  if d.pos.setAt = some d.now then d
  else
  let d := d.speedAcc nm
  match d.pos.extrap with
  | some e =>
    if e.ch = ch.val then { d with pos := { d.pos with extrap := some { e with acc := e.acc + nm } } }
    else (d.webShift nm).mark d.pos.web
  | none => (d.webShift nm).mark d.pos.web

/-- A channel's count moves by a signed number of counts in its forward sense; INVERT exchanges the senses (R29). -/
def Dev.count (d : Dev) (ch : Fin 4) (n : Int) : Dev :=
  let n := if d.bit (F.POS_CH_CFG_INVERT ch) then -n else n
  if n = 0 then d
  else
    let d := d.wr (Reg.POS_CH_RAW ch) (BitVec.ofInt 32 ((d.rd (Reg.POS_CH_RAW ch)).toNat + n))
    let d := d.posCh ch fun c => { c with back := decide (n < 0) }
    if d.src = ch then d.webMove ch (n * d.scale) else d

/-! ### Faults (R52) -/

/-- A fault kind of R52, in the order of its cause bits. -/
inductive FaultKind where
  | ill | glitch | check | timeout | jump | amp | excess
  deriving DecidableEq, Repr

def FaultWin.bump (w : FaultWin) : FaultKind → FaultWin
  | .ill => { w with ill := w.ill + 1 }
  | .glitch => { w with glitch := w.glitch + 1 }
  | .check => { w with check := w.check + 1 }
  | .timeout => { w with timeout := w.timeout + 1 }
  | .jump => { w with jump := w.jump + 1 }
  | .amp => { w with amp := w.amp + 1 }
  | .excess => { w with excess := w.excess + 1 }

/-- The count of the window that a kind counts toward. -/
def FaultWin.group (w : FaultWin) : FaultKind → Nat
  | .ill => w.ill
  | .glitch => w.glitch
  | .check | .timeout | .jump => w.check + w.timeout + w.jump
  | .amp | .excess => w.amp + w.excess

/-- The cause bits of the kinds that have counted toward the limit of a kind (R59, word 0x20 [15:8]). -/
def FaultWin.causes (w : FaultWin) : FaultKind → Nat
  | .ill => 2 ^ 8
  | .glitch => 2 ^ 9
  | .check | .timeout | .jump =>
    (if w.check = 0 then 0 else 2 ^ 10) + (if w.timeout = 0 then 0 else 2 ^ 11) + (if w.jump = 0 then 0 else 2 ^ 12)
  | .amp | .excess => (if w.amp = 0 then 0 else 2 ^ 13) + (if w.excess = 0 then 0 else 2 ^ 14)

/-- The limit field a kind counts against. -/
def FaultKind.limit : FaultKind → Fld
  | .ill => F.POS_FLT_LIMIT_ILL
  | .glitch => F.POS_FLT_LIMIT_GLITCH
  | .check | .timeout | .jump => F.POS_FLT_LIMIT_SSI
  | .amp | .excess => F.POS_FLT_LIMIT_ANALOG

/-- The cumulative counter of a kind on a channel. -/
def FaultKind.counter (k : FaultKind) (ch : Fin 4) : Fld :=
  match k with
  | .ill => if ch = 3 then F.POS_ILLEGAL_ENC3 else F.POS_ILLEGAL_ENC2
  | .glitch => if ch = 3 then F.POS_GLITCH_ENC3 else F.POS_GLITCH_ENC2
  | .check => F.POS_CH_SSI_ERR_CHECK ch
  | .timeout => F.POS_CH_SSI_ERR_TIMEOUT ch
  | .jump => F.POS_CH_SSI_JUMP_JUMP ch
  | .amp => F.POS_CH_ANA_ERR_AMP ch
  | .excess => F.POS_CH_ANA_ERR_OVERSPEED ch

/-- An encoder fault is raised: ENC_FAULT for the source, which enters HOLD from a printing mode, else ENC_CH_FAULT. -/
def Dev.encFault (d : Dev) (ch : Fin 4) (causes count : Nat) : Dev :=
  if d.src = ch then
    let d := d.raise Ev.ENC_FAULT 15 none [ch.val + causes, count]
    if d.printing then d.devTrans .hold 0x04 else d
  else d.raise Ev.ENC_CH_FAULT 15 none [ch.val + causes, count]

/-- A cumulative counter rises; one that rises in the cycle of a clear is not lost (R52). -/
def Dev.counted (d : Dev) (f : Fld) : Dev :=
  let d := d.addSat f 1
  { d with pos := { d.pos with incAt := d.now, incs := (f.reg, f.lo, f.w) :: (if d.pos.incAt = d.now then d.pos.incs else []) } }

/-- Count a fault: the cumulative counter, the window, and the limit; at most one record per channel and window (R52). -/
def Dev.fault (d : Dev) (ch : Fin 4) (k : FaultKind) : Dev :=
  let d := d.counted (k.counter ch)
  let d := d.posCh ch fun c => { c with win := c.win.bump k }
  let w := d.pos.ch[ch].win
  let lim := d.get k.limit
  if lim ≠ 0 ∧ lim ≤ w.group k ∧ !w.raised then
    (d.posCh ch fun c => { c with win := { c.win with raised := true } }).encFault ch (w.causes k) (w.group k)
  else d

/-! ### The filter of R33 -/

/-- A sampled level against the filter: the line after it, whether the change is accepted, whether a spacing fault counts. -/
def Line.sample (l : Line) (minsp now : Nat) (lvl : Bool) : Line × Bool × Bool :=
  if lvl = l.acc then ({ l with last := lvl }, false, false)
  else if minsp = 0 ∨ l.at_ + minsp * 10 ≤ now then ({ acc := lvl, at_ := now, last := lvl }, true, false)
  else ({ l with last := lvl }, false, decide (l.last = l.acc))

/-- The direction of one accepted change of A or B: A leading B is forward (R29). -/
def quadDir (a b : Bool) (changedA : Bool) : Int := if changedA then (if a != b then 1 else -1) else (if a == b then 1 else -1)

/-- Decode the accepted changes of one evaluation cycle: one change counts, two are illegal (R32, R34). -/
def Dev.quadDecode (d : Dev) (ch : Fin 4) (chA chB : Bool) : Dev :=
  let c := d.pos.ch[ch]
  if chA && chB then d.fault ch .ill
  else if chA then d.count ch (quadDir c.a.acc c.b.acc true)
  else if chB then d.count ch (quadDir c.a.acc c.b.acc false)
  else d

/-! ### Serial words (R36 to R39) -/

/-- The position bits of a channel: 8 to 48, other values clamp. -/
def Dev.ssiBits (d : Dev) (ch : Fin 4) : Nat := clampN 8 48 (d.get (F.POS_CH_SSI_BITS ch))

/-- The check bits of a channel (R37). -/
def Dev.ssiChkLen (d : Dev) (ch : Fin 4) : Nat :=
  match d.get (F.POS_CH_SSI_CHK_TYPE ch) with
  | 0 => 0
  | 3 => clampN 1 8 (d.get (F.POS_CH_SSI_CHK_LEN ch))
  | _ => 1

/-- One clock period of a channel, ns (R36). -/
def Dev.ssiClk (d : Dev) (ch : Fin 4) : Nat := 20 * (max 4 (d.get (F.POS_CH_SSI_CLKDIV ch)) + 1)

/-- LATENCY of a channel, ns (R47). -/
def Dev.latency (d : Dev) (ch : Fin 4) : Nat :=
  if ch.val < 2 then 600
  else if d.get (F.POS_CH_CFG_MODE ch) = 1 then
    (d.get (F.POS_CH_SSI_LEAD ch) + d.ssiBits ch + d.ssiChkLen ch + 1) * d.ssiClk ch + 100
  else 40

/-- The bits of a transfer: LEAD, position and check bits (R36). -/
def Dev.ssiLen (d : Dev) (ch : Fin 4) : Nat := d.get (F.POS_CH_SSI_LEAD ch) + d.ssiBits ch + d.ssiChkLen ch

/-- ENCn_CK: high while no transfer runs; a transfer starts with a falling edge, and the clock returns high after its last bit (R36). -/
def Dev.encCk (d : Dev) (ch : Fin 4) : Bool :=
  match d.pos.ch[ch].ssi with
  | some { run := some t, .. } =>
    let half := d.ssiClk ch / 2
    let k := (d.now - t) / half
    decide (2 * d.ssiLen ch ≤ k) || k % 2 = 1
  | _ => true

/-- The check of a word over its position bits as received (R37). -/
def Dev.ssiCheck (d : Dev) (ch : Fin 4) (pos chk : Nat) : Bool :=
  let n := d.ssiChkLen ch
  let c := if d.bit (F.POS_CH_SSI_CHK_INV ch) then 2 ^ n - 1 - chk % 2 ^ n else chk % 2 ^ n
  let bs := bitsMsb (d.ssiBits ch) pos
  let ones := (bs.filter id).length
  match d.get (F.POS_CH_SSI_CHK_TYPE ch) with
  | 0 => true
  | 1 => ones % 2 = c
  | 2 => (ones + 1) % 2 = c
  | _ => crcBits n (d.get (F.POS_CH_SSI_POLY ch)) 0 bs = c

/-- Gray code to binary: each bit is the exclusive or of the bits above and of its own (R36). -/
def grayToBin (n g : Nat) : Nat :=
  ofBitsMsb ((bitsMsb n g).foldl (fun (acc : List Bool × Bool) b => let x := acc.2 != b; (acc.1 ++ [x], x)) ([], false)).1

/-- The signed difference of two words modulo 2^n by the half-range rule (R39). -/
def halfRange (n a b : Nat) : Int := sext n (a % 2 ^ n + 2 ^ n - b % 2 ^ n)

/-! ### The interpolator (R30) -/

/-- The signed pair turned into its quadrant: the quadrant and the pair within it. -/
def quadrant (s c : Int) : Nat × Nat × Nat :=
  if 0 ≤ s ∧ 0 < c then (0, c.toNat, s.toNat)
  else if 0 < s ∧ c ≤ 0 then (1, s.toNat, (-c).toNat)
  else if s ≤ 0 ∧ c < 0 then (2, (-c).toNat, (-s).toNat)
  else (3, (-s).toNat, c.toNat)

/-- The phase of a pair in 1/4,096 turn, truncated toward the lower step: sin = sin θ, cos = cos θ (R29, R30). -/
def phaseOf (s c : Int) : Nat :=
  let (q, x, y) := quadrant s c
  let k := [512, 256, 128, 64, 32, 16, 8, 4, 2, 1].foldl
    (fun k b => if x * sinQ (k + b) ≤ y * sinQ (1024 - (k + b)) then k + b else k) 0
  q * 1024 + k

/-- The motion from one phase to the next, less than half a period either way. -/
def phaseStep (old new : Nat) : Int := sext 12 (new + 4096 - old)

/-! ### Trimming (R53, R54) -/

/-- A trim code as a register field: the four codes OFS_S, OFS_C, GAIN, PHASE. -/
def trimWord (ofsS ofsC gain phase : Int) : Word :=
  BitVec.ofNat 32 (unsext 8 ofsS + unsext 8 ofsC * 2 ^ 8 + unsext 8 gain * 2 ^ 16 + unsext 8 phase * 2 ^ 24)

/-- The codes of a word, OFS_S first. -/
def trimOf (w : Word) (i : Nat) : Int := sext 8 (w.toNat / 2 ^ (8 * i))

/-- Sine and cosine of p steps of 0.05 degree, in 2^-48 (p up to 127 either way). -/
def trimSin (p : Int) : Int := let x := p * 245633247691; x - x ^ 3 / (6 * 2 ^ 96) + x ^ 5 / (120 * 2 ^ 192)
def trimCos (p : Int) : Int := let x := p * 245633247691; 2 ^ 48 - x ^ 2 / (2 * 2 ^ 48) + x ^ 4 / (24 * 2 ^ 144)

/-- The trimmed pair of a sample in 0.1 mV, in 2^-16 of that: offsets of 0.5 mV, the cosine gain of 0.1 %, and the cosine turned by the phase
code (DEDUCED, log 61: the table of the codes gives element, step and range). -/
def trimmed (w : Word) (s c : Int) : Int × Int :=
  let s1 := s + 5 * trimOf w 0
  let c1 := (c + 5 * trimOf w 1) * (1000 + trimOf w 2)
  (s1 * 2 ^ 16, (c1 * 2 ^ 48 + 1000 * s1 * trimSin (trimOf w 3)) * 2 ^ 16 / (1000 * trimCos (trimOf w 3)))

/-- The phase error in codes of 0.05 degree, rounded half away from zero: asin((P² - M²)/(P² + M²)). -/
def phaseCode (p m : Nat) : Int :=
  let den := p * p + m * m
  let num : Nat := if m ≤ p then p * p - m * m else m * m - p * p
  let n := (asinBounds.filter fun t => t * den ≤ num * 2 ^ 48).length
  if den = 0 then 0 else if m ≤ p then n else -(n : Int)

/-- A sample joins the extremes of a measurement. -/
def Meas.sample (m : Meas) (t : Int × Int) : Meas :=
  let v : Vector Int 4 := #v[t.1, t.2, t.1 + t.2, t.1 - t.2]
  { m with ext := some (match m.ext with
    | none => v.map fun x => (x, x)
    | some e => Vector.ofFn fun i => (max e[i].1 v[i], min e[i].2 v[i])) }

/-- Twice the amplitude of a track, its peak freed of its offset. -/
def peakOf (e : Int × Int) : Nat := (e.1 - e.2).toNat

/-- The offset code that corrects a track. -/
def offsetCode (e : Int × Int) : Int := -(roundDiv (e.1 + e.2) (10 * 2 ^ 16))

/-- The gain code; the spec states none for a sine of amplitude 0, where the value is `open_`. -/
def gainCode (s c : Nat) (open_ : Nat) : Int := if s = 0 then sext 8 open_ else -(roundDiv (((c : Int) - s) * 1000) s)

/-- The corrective codes of a measurement, before they are added to the codes in effect (R53). -/
def trimCodes (e : Vector (Int × Int) 4) (open_ : Nat) : Int × Int × Int × Int :=
  (offsetCode e[0], offsetCode e[1], gainCode (peakOf e[0]) (peakOf e[1]) open_, -(phaseCode (peakOf e[2]) (peakOf e[3])))

/-! ### Speed (R48, R49) -/

/-- A fault window of POS_FLT_WIN, ns: 1 to 1,000 ms. -/
def faultWinNs (ms : Nat) : Nat := clampN 1 1000 ms * 1000000

/-- The speed of a window, nm/s, rounded half up, signed (R48). -/
def speedOf (acc : Int) (ns : Nat) : Int := (2 * acc * 1000000000 + (ns * 2 ^ 24 : Nat)) / ((2 * (ns * 2 ^ 24) : Nat) : Int)

/-- STABLE over the last 16 windows (R49). -/
def stable (hist : List (Nat × Bool)) (tol : Nat) : Bool :=
  let sp := hist.map (·.1)
  let mx := sp.foldl max 0
  let mn := sp.foldl min mx
  let sum := sp.foldl (· + ·) 0
  hist.length = 16 && (hist.all (fun p => p.2) || hist.all fun p => !p.2) && decide ((mx - mn) * 10000 * 16 ≤ tol * sum)

/-- The speed the block last reported, signed. -/
def Dev.speedI (d : Dev) : Int :=
  if d.bit F.POS_STATUS_DIR then -(d.get F.POS_SPEED_SPEED : Int) else d.get F.POS_SPEED_SPEED

/-- POS_STATUS.CH_OK: a channel enabled with no limit reached in the window, no AMP_LOW and no NO_WORD. -/
def Dev.chOk (d : Dev) (ch : Fin 4) : Bool :=
  d.chEn ch && !d.pos.ch[ch].win.raised && !d.bit (F.POS_CH_STATUS_AMP_LOW ch) && !d.bit (F.POS_CH_STATUS_NO_WORD ch)

/-- POS_STATUS with CH_OK and MARK_DIR as they stand. -/
def Dev.posStatus (d : Dev) : Word :=
  let oks := ((List.finRange 4).filter d.chOk).foldl (fun (a : Nat) (ch : Fin 4) => a + 2 ^ ch.val) 0
  F.POS_STATUS_CH_OK.into (F.POS_STATUS_MARK_DIR.into (d.rd Reg.POS_STATUS) d.pos.markDesc.toNat) oks

end Sys2Proof.Machine
end

