-- ==== Sys2Proof/Machine/Store.lean ====
section
/-!
DEFINITION. The job store as memory (R305, R308, R311): bytes, little-endian words, poisoned 64-byte units, and the usable
capacity. An unlisted byte reads 0. The controller that serves it is in Drc.lean.
-/
namespace Sys2Proof.Machine

/-- What an unlisted byte of the job store reads as. -/
def storeDefault (_ : Nat) : BitVec 8 := 0

/-- The canonical form of a memory: addresses strictly rising, no byte listed that reads as it would unlisted. -/
def Memory.wf (m : List Host.Cell) : Bool := Sparse.wf storeDefault m

def Dev.byte (d : Dev) (a : Nat) : BitVec 8 := Sparse.get storeDefault d.store a

def Dev.putByte (d : Dev) (a : Nat) (b : BitVec 8) : Dev := { d with store := Sparse.put storeDefault d.store a b }

def Dev.bytes (d : Dev) (a n : Nat) : List (BitVec 8) := (List.range n).map fun i => d.byte (a + i)

def Dev.putBytes (d : Dev) : Nat → List (BitVec 8) → Dev
  | _, [] => d
  | a, b :: r => (d.putByte a b).putBytes (a + 1) r

/-- A 32-bit little-endian word of the job store (R7). -/
def Dev.word32 (d : Dev) (a : Nat) : Nat := ofBytesLE (d.bytes a 4)

/-- The usable capacity, DRC_CAP. -/
def Dev.cap (d : Dev) : Nat := d.pair Reg.DRC_CAP_LO Reg.DRC_CAP_HI

/-- A unit of 64 bytes reads as poisoned (R311). -/
def Dev.poisonedAt (d : Dev) (a : Nat) : Bool := d.poison.contains (a / 64)

/-- Some unit of a range reads as poisoned. -/
def Dev.poisonedIn (d : Dev) (a n : Nat) : Bool := d.poison.any fun u => a / 64 ≤ u && u ≤ (a + n - 1) / 64

/-- A range lies within the usable store and reads whole. -/
def Dev.readable (d : Dev) (a n : Nat) : Bool := decide (a + n ≤ d.cap) && !d.poisonedIn a n

/-- Data replaces a range: its whole units lose their poison (R311). -/
def Dev.storeData (d : Dev) (a : Nat) (bs : List (BitVec 8)) : Dev :=
  let d := d.putBytes a bs
  { d with poison := d.poison.filter fun u => ¬ (a ≤ u * 64 ∧ u * 64 + 64 ≤ a + bs.length) }

/-- A ring size register's value as the device uses it: the largest power of two not above it, within the range (R95). -/
def ringSize (lo hi v : Nat) : Nat := clampN lo hi (2 ^ (Nat.log2 v))

/-- Host address of the descriptor at HEAD of an ingest channel (R105). -/
def Dev.ingAddr (d : Dev) (c : Fin 4) : Nat :=
  let base := (d.effRd (Reg.JOB_ING_BASE_LO c)).toNat + (d.effRd (Reg.JOB_ING_BASE_HI c)).toNat * 2 ^ 32
  base + 64 * (d.get (F.JOB_ING_HEAD_INDEX c) % ringSize 4 32768 (d.get (F.JOB_ING_SIZE_ENTRIES c)))

end Sys2Proof.Machine
end

