-- ==== Sys2Proof/Machine/Bars.lean ====
section
/-!
DEFINITION. Bars, entries and lines: which copies a bar prints, where line k of a copy lies on the web (R60, R75, R97), the
order of lines, and the value of a staged field for a line (R107 to R109).
-/
namespace Sys2Proof.Machine

/-- The bar a lane piece or an operand names. -/
def barOf (n : Nat) : Fin 12 := ⟨n % 12, Nat.mod_lt _ (by decide)⟩

def laneOf (n : Nat) : Fin 18 := ⟨n % 18, Nat.mod_lt _ (by decide)⟩

def Dev.bar (d : Dev) (b : Fin 12) : BarSt := d.bars[b]

def Dev.modBar (d : Dev) (b : Fin 12) (f : BarSt → BarSt) : Dev := { d with bars := upd d.bars b f }

/-- Every bar, in order. -/
def allBars : List (Fin 12) := List.finRange 12

/-- The bars the image configures and the map in use carries (R199). -/
def Dev.barsOn (d : Dev) : List (Fin 12) := allBars.filter fun b => Nat.testBit (d.get F.ZXL_BAR_AVAIL_BARS) b

def Dev.img (d : Dev) : Image := d.image.getD {}

/-- The nozzle count of a bar (image). -/
def Dev.nozzles (d : Dev) (b : Fin 12) : Nat := d.img.nozzles.getD b 0

/-- The halves of the screening array that a bar's lines need: PD6 alone up to 61,440 positions (R13). -/
def Dev.halves (d : Dev) (b : Fin 12) : List (Fin 12) := if d.nozzles b ≤ 61440 then [6] else [6, 7]

/-- A bar has a row B (R159). -/
def Dev.dual (d : Dev) (b : Fin 12) : Bool := d.bit (F.NOZ_BAR_CFG_DUAL b)

/-! ### Entries and copies -/

/-- The held entry of a sequence number. -/
def Dev.entry (d : Dev) (seq : Nat) : Option Entry := d.job.entries.find? fun e => e.seq = seq

/-- The sequence number nearest to another whose low 32 bits are given (R95). -/
def seqNear (ref n : Nat) : Nat := ((ref : Int) + sext 32 (n % 2 ^ 32 + 2 ^ 32 - ref % 2 ^ 32)).toNat

def Dev.modEntry (d : Dev) (seq : Nat) (f : Entry → Entry) : Dev :=
  { d with job := { d.job with entries := d.job.entries.map fun e => if e.seq = seq then f e else e } }

/-- The plane of a bar is present in a job (R92). -/
def JobDesc.has (j : JobDesc) (b : Fin 12) : Bool := Nat.testBit j.planes b

/-- A copy m exists in an entry: fewer than REPEAT, or any while it repeats until BREAK. -/
def Entry.hasCopy (e : Entry) (m : Nat) : Bool := e.rep = 0 || m < e.rep

/-- The band of a unit, where the unit is one (R268). -/
def Entry.band (e : Entry) (u : Nat) : Option Band := if u % 2 = 1 then e.bands.find? fun x => x.copy = u / 2 else none

/-- Lines of a unit. -/
def Entry.lines (e : Entry) (u : Nat) : Nat := if u % 2 = 1 then ((e.band u).map (·.n)).getD 0 else e.desc.lines

/-- A bar prints lines in a unit: its plane is present (R92), or the band is its own. -/
def Entry.has (e : Entry) (b : Fin 12) (u : Nat) : Bool :=
  if u % 2 = 1 then (match e.band u with | some x => x.bar = b.val | none => false) else e.desc.has b

/-- Down-web length of a copy in 2^-8 nm: LINES × P + GAP (R97). -/
def Entry.copyLen (e : Entry) : Nat := e.desc.lines * e.pitch + e.gap * 2 ^ 8

abbrev fireMod : Nat := 2 ^ 56

/-- What inserted bands add before copy m (R270). -/
def Entry.insBefore (e : Entry) (m : Nat) : Nat := (e.bands.filter fun x => decide (x.copy < m)).foldl (fun a x => a + x.ins) 0

/-- J of a unit, with 8 fraction bits, modulo 2^48 nm: of copy m (R97, R270), or y0 of a band. -/
def Entry.j (e : Entry) (u : Nat) : Option Nat :=
  if u % 2 = 1 then (e.band u).map (·.y0)
  else e.j0.map fun j => (j + u / 2 * e.copyLen + e.insBefore (u / 2)) % fireMod

/-- J of the copy that follows the last copy of an entry (R97). -/
def Entry.jAfter (e : Entry) : Option Nat := if e.rep = 0 then none else e.j (2 * e.rep)

/-- Fix J of entries that follow an entry whose J is known (ANCHOR = 0). -/
def fixAnchors : Option Nat → List Entry → List Entry
  | _, [] => []
  | prev, e :: r =>
    let e := { e with j0 := if e.anchor = 1 then some (e.pos * 2 ^ 8 % fireMod) else match e.j0 with
                                                                       | some j => some j
                                                                       | none => prev }
    e :: fixAnchors e.jAfter r

def Dev.fixJ (d : Dev) (first : Option Nat) : Dev :=
  { d with job := { d.job with entries := fixAnchors first d.job.entries } }

/-- The unit after a unit of a bar: the band decided for it after a copy, the next copy of the entry, or copy 0 of the next entry
held; none at the end of the schedule or while the next entry is not yet held. -/
def Dev.nextCopy (d : Dev) (b : Fin 12) (seq u : Nat) : Option (Nat × Nat) :=
  match d.entry seq with
  | none => none
  | some e =>
    if u % 2 = 0 && e.has b (u + 1) then some (seq, u + 1)
    else if e.hasCopy (u / 2 + 1) then some (seq, 2 * (u / 2 + 1))
    else if d.job.final = some seq then none
    else (d.entry (seq + 1)).map fun n => (n.seq, 0)

/-- A unit is the bar's last of the schedule. -/
def Dev.isLastCopy (d : Dev) (b : Fin 12) (seq u : Nat) : Bool :=
  match d.entry seq with
  | none => true
  | some e => !(u % 2 = 0 && e.has b (u + 1)) && !e.hasCopy (u / 2 + 1) && d.job.final = some seq

/-! ### Lines -/

def LinePos.lt (a b : LinePos) : Bool :=
  decide (a.seq < b.seq) || (a.seq == b.seq && (decide (a.copy < b.copy) || (a.copy == b.copy && decide (a.idx < b.idx))))

def LinePos.le (a b : LinePos) : Bool := a.lt b || a = b

/-- The printing direction of an entry: descending in a descending shuttle pass (R102). -/
def Entry.desc_ (e : Entry) : Bool := e.dir = 1

/-- The print line index k of a line: descending passes print from LINES - 1 down (R102). -/
def Entry.k (e : Entry) (idx : Nat) : Nat := if e.desc_ then e.desc.lines - 1 - idx else idx

/-- The next line of a bar in its printing order, within what the engine holds; copies without its plane have no lines. -/
def Dev.nextLineFrom (d : Dev) (b : Fin 12) : Nat → Option (Nat × Nat) → Option LinePos
  | 0, _ => none
  | _, none => none
  | n + 1, some (s, c) =>
    match d.entry s with
    | none => none
    | some e =>
      if e.has b c then some ⟨s, c, 0⟩
      else if e.desc.has b then d.nextLineFrom b n (d.nextCopy b s c)
      else
        match e.bands.find? fun x => x.bar = b.val && decide (c ≤ 2 * x.copy) with
        | some x => some ⟨s, 2 * x.copy + 1, 0⟩
        | none => if e.rep = 0 ∨ d.job.final = some s then none else d.nextLineFrom b n ((d.entry (s + 1)).map fun y => (y.seq, 0))

def Dev.nextLine (d : Dev) (b : Fin 12) (p : LinePos) : Option LinePos :=
  match d.entry p.seq with
  | none => none
  | some e =>
    if p.idx + 1 < e.lines p.copy then some { p with idx := p.idx + 1 }
    else d.nextLineFrom b (d.job.entries.length + 2) (d.nextCopy b p.seq p.copy)

/-- Lines of a bar in an entry before a unit. -/
def Entry.linesBefore (e : Entry) (b : Fin 12) (u : Nat) : Nat :=
  (if e.desc.has b then (u + 1) / 2 * e.desc.lines else 0)
    + (e.bands.filter fun x => x.bar = b.val && decide (2 * x.copy + 1 < u)).foldl (fun a x => a + x.n) 0

/-- How many lines of the bar lie from a line up to, not including, another. -/
def Dev.linesBetween (d : Dev) (b : Fin 12) (p q : LinePos) : Nat :=
  let at_ (x : LinePos) : Nat := ((d.entry x.seq).map fun e => e.linesBefore b x.copy + x.idx).getD x.idx
  let all (e : Entry) : Nat := e.linesBefore b (2 * e.rep)
  if q.le p then 0
  else
    ((d.job.entries.filter fun e => decide (p.seq ≤ e.seq) && decide (e.seq < q.seq)).foldl (fun a e => a + all e) 0)
      + at_ q - at_ p

/-! ### Values in effect for a line -/

/-- The value in effect of a staged register for a line of a bar: the last change at or before it, else the value in effect
before any pending change (R107 to R109). -/
def Dev.valAt (d : Dev) (b : Fin 12) (a : Nat) (p : LinePos) : Word :=
  match ((d.bar b).tl.filter fun t => t.2.1 = a && t.1.le p).getLast? with
  | some t => t.2.2.1
  | none => d.effRd a

def Dev.getAt (d : Dev) (b : Fin 12) (f : Fld) (p : LinePos) : Nat := f.of (d.valAt b f.reg p)

/-- Where LTC_SHU_ALIGN in effect on a bar is kept: it belongs to every bar apart (R72). -/
def alignAt (b : Fin 12) : Nat := 0x17000000 + 4 * b.val

/-- No set with a higher number has applied the field already (R109). -/
def Dev.newest (d : Dev) (a seq : Nat) : Bool :=
  match d.job.fieldSeq.find? fun f => f.1 = a with
  | some f => decide (f.2 ≤ seq)
  | none => true

def Dev.noteField (d : Dev) (a seq : Nat) : Dev :=
  { d with job := { d.job with fieldSeq := Sparse.insert d.job.fieldSeq a seq } }

/-- A field of a set applies from a line on a bar, unless a set with a higher number applies it there already: it gives way to none before
it, and what lower numbers would apply at or after the line falls away (R109). -/
def Dev.addTl (d : Dev) (b : Fin 12) (p : LinePos) (a : Nat) (v : Word) (seq : Nat) : Dev :=
  if !d.newest a seq || (d.bar b).tl.any fun t => t.2.1 = a && t.1.le p && decide (seq < t.2.2.2) then d
  else
    d.modBar b fun s =>
      let l := s.tl.filter fun t => !(t.2.1 = a && p.le t.1 && decide (t.2.2.2 < seq))
      let before (t : LinePos × Nat × Word × Nat) : Bool := t.1.lt p || (t.1 = p && decide (t.2.2.2 ≤ seq))
      { s with tl := l.filter before ++ [(p, a, v, seq)] ++ l.filter fun t => !before t }

/-- Fold the changes that lie at or before a line into the values in effect. -/
def Dev.foldTl (d : Dev) (b : Fin 12) (p : LinePos) : Dev :=
  let now_ := (d.bar b).tl.filter fun t => t.1.le p
  let d := now_.foldl (fun d t => (d.effWr t.2.1 t.2.2.1).noteField t.2.1 t.2.2.2) d
  d.modBar b fun s => { s with tl := s.tl.filter fun t => ¬ t.1.le p }

/-! ### Strobe width (R73, R74) -/

/-- TEMP and FACT of derating step i. -/
def Dev.derStep (d : Dev) (b : Fin 12) (i : Nat) : Nat × Nat :=
  let w := (if i < 2 then d.rd (Reg.LTC_BAR_DERATE0 b) else d.rd (Reg.LTC_BAR_DERATE1 b)).toNat / 2 ^ (16 * (i % 2))
  (w % 2 ^ 8, w / 2 ^ 8 % 2 ^ 8)

/-- The width in effect under a step: floor(WIDTH × FACT / 256), at least 1. -/
def Dev.derWidth (d : Dev) (b : Fin 12) (step width : Nat) : Nat :=
  if step = 0 then width else max 1 (width * (d.derStep b (step - 1)).2 / 256)

/-- The staged width in effect, as derated now. -/
def Dev.widthNow (d : Dev) (b : Fin 12) : Nat := d.derWidth b (d.bar b).derStep (d.effGet (F.LTC_BAR_STROBE_WIDTH b))

/-! ### Positions (R60, R75) -/

/-- SYS_MODE is SHUTTLE, or SHADOW on a mirrored shuttle schedule. -/
def Dev.shuttling (d : Dev) : Bool :=
  d.sys.mode = .shuttle || (d.sys.mode = .shadow && d.bit F.JOB_SCHED_CFG_MODE)

/-- The pass runs in the descending direction. -/
def Dev.descending (d : Dev) : Bool := d.shuttling && d.pos.markDesc

/-- F(b, k) with 8 fraction bits, modulo 2^48 nm, for a line of a copy (R60, R75). -/
def Dev.firePos (d : Dev) (b : Fin 12) (e : Entry) (p : LinePos) : Option Nat :=
  (e.j p.copy).map fun j =>
    let ph := d.getAt b (F.LTC_BAR_PHASE_PHASE b) p
    let al := (d.valAt b (alignAt b) p).toNat
    let sh := d.bit F.JOB_SCHED_CFG_MODE
    let ofs := if sh && e.desc_ then (d.rd (Reg.LTC_BAR_OFFSET_D b)).toNat else (d.rd (Reg.LTC_BAR_OFFSET b)).toNat
    let adj : Int := if sh then (if e.desc_ then sext 8 (al / 2 ^ 8) else sext 8 al) else 0
    let x : Int := (j : Int) + ofs * 2 ^ 8 + e.k p.idx * e.pitch + (((ph : Int) + adj) * e.pitch) / 64
    (x % (fireMod : Int)).toNat

/-- Signed difference of positions with 8 fraction bits (R45). -/
def diff56 (a b : Nat) : Int :=
  let x := (a % fireMod + fireMod - b % fireMod) % fireMod
  if x < 2 ^ 55 then (x : Int) else (x : Int) - fireMod

/-- The web coordinate with 8 fraction bits. -/
def Dev.web8 (d : Dev) : Nat := d.pos.web / 2 ^ 16

def Dev.hwm8 (d : Dev) : Nat := d.pos.hwm / 2 ^ 16

/-- Speed × time, in 2^-8 nm: nm/s × ns. -/
def travel8 (speed : Int) (ns : Nat) : Int := speed * ns * 2 ^ 8 / 1000000000

/-- The true position: the web coordinate plus speed × the source channel's latency (R47, R60). -/
def Dev.truePos (d : Dev) : Nat :=
  (((d.web8 : Int) + travel8 d.speedI (d.latency d.src)) % (fireMod : Int)).toNat

/-- The encoder line position of a bar in a copy, with 16 fraction bits (R63): lines from line 0. -/
def Dev.encLine (d : Dev) (b : Fin 12) (e : Entry) (copy : Nat) : Option Int :=
  let zero : LinePos := ⟨e.seq, copy, if e.desc_ then e.lines copy - 1 else 0⟩
  (d.firePos b e zero).map fun f0 => diff56 d.truePos f0 * 2 ^ 16 / e.pitch

/-- POS_SPEED in the printing direction of a bar: 0 while the web moves the other way (R61). -/
def Dev.printSpeed (d : Dev) : Nat :=
  if d.bit F.POS_STATUS_DIR = d.descending then d.get F.POS_SPEED_SPEED else 0

/-- The line rate of a pitch at a speed, as the increment of the count in one CK9 cycle: rate × 10 ns × 2^32, rounded (R61). -/
def rateInc (speed pitch : Nat) : Nat := if pitch = 0 then 0 else roundDivN (speed * 2 ^ 8 * 2 ^ 32) (pitch * 100000000)

/-- The increment of a rate in lines per second. -/
def hzInc (hz : Nat) : Nat := roundDivN (hz * 2 ^ 32) 100000000

/-- The line rate of a pitch at a speed, lines per second. -/
def rateHz (speed pitch : Nat) : Nat := if pitch = 0 then 0 else speed * 2 ^ 8 / pitch

/-! ### What leaves the device, and the tightrope (R335, R336) -/

/-- Note something sent. -/
def Dev.emit (d : Dev) (x : Sent) : Dev := { d with sent := d.sent ++ [x] }

/-- FIRE and DMARK blocks are priority blocks: they go between any two blocks (R208). -/
def Sent.isPrio : Sent → Bool
  | .fire .. | .dmark _ => true
  | _ => false

/-- The place of a frame in the order of R233. -/
def Sent.prioOf : Sent → Nat
  | .fire .. => 1
  | .mask .. => 2
  | .beacon .. => 3
  | .status .. => 4
  | .mode .. => 5
  | .line .. | .mirror .. => 6
  | _ => 7

/-- A frame takes its place in a lane's queue: ahead of every frame of lower priority that has not begun (R233). -/
def Tx.put (t : Tx) (x : Sent) : Tx :=
  if x.isPrio then { t with prio := t.prio ++ [x] }
  else { t with queue := (t.queue.filter fun y => decide (y.prioOf ≤ x.prioOf)) ++ [x] ++ t.queue.filter fun y => decide (x.prioOf < y.prioOf) }

/-- CMD traffic, which brings a lane out of L1 and L2 (R196). -/
def Sent.isCmd : Sent → Bool
  | .cmd .. => true
  | _ => false

/-- Send a frame on a lane. In L1 and L2 it waits for ACTIVE, and CMD traffic starts the exit; a lane in any other state carries nothing
(R190, R196). -/
def Dev.emitOn (d : Dev) (n : Fin 18) (x : Sent) : Dev :=
  let st := d.get (F.ZXL_LANE_STATUS_STATE n)
  if st ≠ 6 ∧ st ≠ 8 ∧ st ≠ 9 then d
  else
    let wake := x.isCmd && st ≠ 6
    { d with sent := d.sent ++ [x],
             zxl := { d.zxl with lanes := upd d.zxl.lanes n fun l =>
               { l with tx := l.tx.put x, idleAt := if x.isCmd then d.now else l.idleAt,
                        exit := if wake then some (l.exit.getD d.now) else l.exit,
                        wantL1 := l.wantL1 && !wake, wantL2 := l.wantL2 && !wake } } }

/-- The role in effect; 3 acts as 0 (R350). -/
def Dev.role (d : Dev) : Nat := d.effGet F.DPX_CFG_ROLE % 3

/-- The mirror lanes that are ACTIVE. -/
def Dev.mirrorsUp (d : Dev) : List Nat := [16, 17].filter fun n => d.get (F.ZXL_LANE_STATUS_STATE n) = 6

/-- Send a record on both mirror lanes, under the next number. -/
def Dev.mirrorOut (d : Dev) (type : Nat) (ws : List Nat) : Dev :=
  let s := d.dpx.txSeq
  d.mirrorsUp.foldl (fun d n => d.emitOn (laneOf n) (.mirror n type (s :: ws))) { d with dpx := { d.dpx with txSeq := (s + 1) % 2 ^ 32 } }

/-- A record that only the ringmaster sends. -/
def Dev.mirrorSend (d : Dev) (type : Nat) (ws : List Nat) : Dev := if d.role = 1 then d.mirrorOut type ws else d

/-- A mirror lane leaves ACTIVE (R336); with none left the ringmaster is alone. -/
def Dev.mirrorLeft (d : Dev) (n : Fin 18) : Dev :=
  if n.val < 16 || d.get (F.ZXL_LANE_STATUS_STATE n) ≠ 6 then d
  else
    let d := d.raise Ev.DPX_MIRROR_DEGRADED 15 none [15, n.val]
    if d.mirrorsUp.length ≤ 1 && d.get F.DPX_STATUS_STATE = 3 then d.set F.DPX_STATUS_STATE 4 else d

def Dev.modDpx (d : Dev) (f : DpxSt → DpxSt) : Dev := { d with dpx := f d.dpx }

def Dev.modDpxBar (d : Dev) (b : Fin 12) (f : DpxBar → DpxBar) : Dev := { d with dpx := { d.dpx with bars := upd d.dpx.bars b f } }

/-- The bar is guarded (R339). -/
def Dev.guarded (d : Dev) (b : Fin 12) : Bool := Nat.testBit (d.get F.DPX_STATUS_GUARDED) b

def Dev.setGuard (d : Dev) (b : Fin 12) (g : Bool) : Dev := d.setB ⟨Reg.DPX_STATUS, b, 1⟩ g

def Dev.unguardAll (d : Dev) : Dev := d.set F.DPX_STATUS_GUARDED 0

end Sys2Proof.Machine
end

