-- ==== Sys2Proof/Machine/Screen.lean ====
section
/-!
DEFINITION. The arithmetic of the screening pipeline on one line (R137 to R146), spreading (R167), the packing of levels
(R90) and the line check value (R155). Pure functions: the carousel is in Carousel.lean.
-/
namespace Sys2Proof.Machine

/-! ### Upsampling (R137) -/

/-- A sample of a line, the nearest one where the pixel lies outside the line. -/
def pix (l : List Nat) (w : Nat) (i : Int) : Nat := l.getD (clampI 0 ((w : Int) - 1) i).toNat 0

/-- The 8-bit value of nozzle j of print line k. `m` is its source line, `c` the neighbour line on its side down-web (equal to
`m` where it is replaced); `w` pixels per line. -/
def upsample (ups across down : Bool) (w : Nat) (m c : List Nat) (j : Nat) : Nat :=
  let i : Int := if across then j else j / 2
  let ni : Int := if j % 2 = 0 then i - 1 else i + 1
  let a := pix m w i
  if ups then
    match across, down with
    | true, false => a
    | false, false => (3 * a + pix m w ni + 2) / 4
    | true, true => (3 * a + pix c w i + 2) / 4
    | false, true => (9 * a + 3 * pix m w ni + 3 * pix c w i + pix c w ni + 8) / 16
  else a

/-! ### Tone and gain (R138, R139) -/

def toned (t : Nat) (tofs : Int) : Nat := if t = 0 then 0 else (clampI 0 1023 ((t : Int) + tofs)).toNat

def gained (t g : Nat) : Nat := min 1023 ((t * (128 + g) + 128) / 256)

/-! ### Threshold screening (R141) -/

/-- The level of a value against the three thresholds of its cell: how many 4x exceeds. -/
def threshold (x t0 t1 t2 : Nat) : Nat := (decide (t0 < 4 * x)).toNat + (decide (t1 < 4 * x)).toNat + (decide (t2 < 4 * x)).toNat

/-! ### Error diffusion (R143, R144, R146) -/

/-- One step of the noise generator (R146). -/
def lfsrStep (s : Nat) : Nat := if s % 2 = 1 then (s / 2) ^^^ 0x80200003 else s / 2

/-- The seed of bar b, span s and print line k (R146). -/
def noiseSeed (b s k : Nat) : Nat :=
  let x := 0xA5A55A5A ^^^ (b * 2 ^ 28) ^^^ (s * 2 ^ 20) ^^^ (k % 2 ^ 20)
  if x = 0 then 1 else x

def noiseOf (state namp : Nat) : Int := (((state / 2 ^ 24 % 256 : Nat) : Int) - 128) * namp / 128

/-- A share of an error: weight in 1/16, rounding toward minus infinity (R143). -/
def part (e : Int) (w : Nat) : Int := (e * w + 8) / 16

/-- The level that is nearest by the thresholds between the drop levels (R143). -/
def edLevel (p : EdP) (y : Int) : Nat :=
  (decide ((((0 + p.l1 + 1) / 2 : Nat) : Int) ≤ y)).toNat + (decide ((((p.l1 + p.l2 + 1) / 2 : Nat) : Int) ≤ y)).toNat
    + (decide ((((p.l2 + p.l3 + 1) / 2 : Nat) : Int) ≤ y)).toNat

def EdP.level (p : EdP) : Nat → Nat
  | 0 => 0
  | 1 => p.l1
  | 2 => p.l2
  | _ => p.l3

/-- The positions of a line in ascending order, each with its level and its limited error. `r` is the right error and `st` the
noise state; both begin anew at each span of 480 (R136, R143, R146). -/
def edRow (p : EdP) (b k : Nat) : Nat → Int → Nat → List (Nat × Int) → List (Nat × Int)
  | _, _, _, [] => []
  | j, r, st, (x, ein) :: rest =>
    let r := if j % 480 = 0 then 0 else r
    let st := lfsrStep (if j % 480 = 0 then noiseSeed b (j / 480) k else st)
    let u : Int := (x : Int) + (ein + r)
    let q := edLevel p (u + noiseOf st p.namp)
    let e := clampI (-(p.eclamp : Int)) p.eclamp (u - p.level q)
    (q, e) :: edRow p b k (j + 1) (part e p.wr) st rest

/-- The error row after a line: each entry the exact sum of the shares that fall on it, those outside the width discarded;
the right share of the last position of a span is added to the first of the next (R143, R144). -/
def edOut (p : EdP) (es : List Int) : List Int :=
  let dl := es.map fun e => part e p.wdl
  let dd := es.map fun e => part e p.wd
  let dr := es.mapIdx fun j e => part e p.wdr + (if j % 480 = 479 then part e p.wr else 0)
  let left := dl.drop 1 ++ [0]
  let right := 0 :: dr
  (dd.zip (left.zip right)).map fun t => t.1 + t.2.1 + t.2.2

/-- Error diffusion of one line: its levels and the error row it leaves. An error row shorter than the line is 0 beyond. -/
def edLine (p : EdP) (b k : Nat) (xs : List Nat) (ein : List Int) : List Nat × List Int :=
  let row := edRow p b k 0 0 0 (xs.mapIdx fun j x => (x, ein.getD j 0))
  (row.map (·.1), edOut p (row.map (·.2)))

/-! ### Spreading (R167) -/

/-- The level of a working nozzle at level qt that also takes a dot of level qd. -/
def spreadTable (t : Nat) (qt qd : Nat) : Nat := t / 2 ^ (2 * (4 * qt + qd)) % 4

/-- Place a dot from position j: distances and sides in order; the level list after it and whether it was placed. -/
def placeDot (tab w k j qd : Nat) (set_ : List Nat) (levels : List Nat) : List (Nat × Bool) → List Nat × Bool
  | [] => (levels, false)
  | (dist, left) :: r =>
    let out := if left then j < dist else w ≤ j + dist
    let t := if left then j - dist else j + dist
    if out || set_.contains t then placeDot tab w k j qd set_ levels r
    else
      let n := spreadTable tab (levels.getD t 0) qd
      if n ≠ levels.getD t 0 then (levels.set t n, true) else placeDot tab w k j qd set_ levels r

/-- The places tried for a dot: at each distance first one side, then the other; left first when k + j is even. -/
def spreadTries (reach k j : Nat) : List (Nat × Bool) :=
  (List.range reach).flatMap fun i => if (k + j) % 2 = 0 then [(i + 1, true), (i + 1, false)] else [(i + 1, false), (i + 1, true)]

/-- Spread a line: the levels, the dots placed and the dots lost (R167). -/
def spreadLine (tab reach w k : Nat) (set_ : List Nat) (levels : List Nat) : List Nat × Nat × Nat :=
  set_.foldl (fun (acc : List Nat × Nat × Nat) j =>
    let qd := acc.1.getD j 0
    let l0 := acc.1.set j 0
    if qd = 0 then (l0, acc.2)
    else
      match placeDot tab w k j qd set_ l0 (spreadTries reach k j) with
      | (l1, true) => (l1, acc.2.1 + 1, acc.2.2)
      | (l1, false) => (l1, acc.2.1, acc.2.2 + 1)) (levels, 0, 0)

/-! ### Packing and the line check value (R90, R155) -/

/-- Four levels to a byte, the lowest position in the lowest bits. -/
def packLevels : List Nat → List (BitVec 8)
  | [] => []
  | a :: b :: c :: e :: r => BitVec.ofNat 8 (a + 4 * b + 16 * c + 64 * e) :: packLevels r
  | l => [BitVec.ofNat 8 (l.getD 0 0 + 4 * l.getD 1 0 + 16 * l.getD 2 0)]

/-- The levels of packed bytes. -/
def unpackLevels (bs : List (BitVec 8)) : List Nat :=
  bs.flatMap fun b => let n := b.toNat; [n % 4, n / 4 % 4, n / 16 % 4, n / 64]

/-- The line check value of a line of a bar (R155). -/
def lineCheck (levels : List Nat) (k bar : Nat) : Nat :=
  crc32 (packLevels levels ++ bytesLE 4 k ++ [BitVec.ofNat 8 bar])

end Sys2Proof.Machine
end

