-- ==== Sys2Proof/Machine/Carousel.lean ====
section
/-!
DEFINITION. The run-ahead of each bar (R136, R145 to R155): which line is screened next, what a line is screened to, commit,
checkpoints, rollback and replay, gain tables, and the work order of R153.
-/
namespace Sys2Proof.Machine

/-! ### Parameters in effect -/

/-- The commit horizon H (R148). -/
def Dev.horizon (d : Dev) : Nat := clampN 2 8 (d.effGet F.SCR_CFG_HORIZON)

/-- The checkpoint interval (R150). -/
def Dev.ckptLines (d : Dev) : Nat := clampN 1 11 (d.effGet F.SCR_CFG_CKPT)

/-- The error-diffusion parameters of a line: weights above 16 act as 16. -/
def Dev.edpAt (d : Dev) (b : Fin 12) (p : LinePos) : EdP :=
  { l1 := d.getAt b (F.SCR_BAR_EDL_L1 b) p, l2 := d.getAt b (F.SCR_BAR_EDL_L2 b) p, l3 := d.getAt b (F.SCR_BAR_EDL_L3 b) p,
    wr := min 16 (d.getAt b (F.SCR_BAR_EDW_W_R b) p), wdl := min 16 (d.getAt b (F.SCR_BAR_EDW_W_DL b) p),
    wd := min 16 (d.getAt b (F.SCR_BAR_EDW_W_D b) p), wdr := min 16 (d.getAt b (F.SCR_BAR_EDW_W_DR b) p),
    eclamp := d.getAt b (F.SCR_BAR_EDN_ECLAMP b) p, namp := d.getAt b (F.SCR_BAR_EDN_NAMP b) p }

/-- METHOD is error diffusion for a line. -/
def Dev.edAt (d : Dev) (b : Fin 12) (p : LinePos) : Bool := d.getAt b (F.SCR_BAR_CFG_METHOD b) p = 1

/-- Where a threshold cell of a bar's matrix is kept, low word (R142); the low word acts since the write of the high one (R6). -/
def matCell (b : Nat) (m cell : Nat) : Nat := Reg.SCR_MAT_LO (2 * b + m) cell

/-- The entries of an out bank: position and row, those the bar takes note of (R164). -/
def Dev.outEntries (d : Dev) (b : Fin 12) (bank : Nat) : List (Nat × Nat) :=
  let n := min 4096 (d.get (if bank = 0 then F.NOZ_BAR_OUTN0_COUNT b else F.NOZ_BAR_OUTN1_COUNT b))
  ((List.range n).map fun i => (d.rd (Reg.NOZ_OUT_WIN (2 * b.val + bank) i)).toNat).filterMap fun w =>
    let pos := w % 2 ^ 17
    let row := w / 2 ^ 30 % 2
    if w / 2 ^ 31 = 1 ∧ pos < d.nozzles b ∧ (row = 0 ∨ d.dual b) then some (pos, row) else none

/-- A list of positions in rising order without repeats. -/
def sortedNodup (l : List Nat) : List Nat := (l.eraseDups).mergeSort (· ≤ ·)

/-- The spread set of a bank: positions that no row can print (R165). -/
def Dev.spreadSet (d : Dev) (b : Fin 12) (bank : Nat) : List Nat :=
  let es := d.outEntries b bank
  sortedNodup ((es.filter fun e => e.2 = 0 && (!d.dual b || es.contains (e.1, 1))).map (·.1))

/-- REACH as it acts (R167). -/
def Dev.reachAt (d : Dev) (b : Fin 12) (p : LinePos) : Nat := clampN 1 4 (d.getAt b (F.NOZ_BAR_CFG_REACH b) p)

/-! ### What is screened next -/

/-- With the density loop on, the copy before a unit must have had its band decision (R269). -/
def Dev.bandDecided (d : Dev) (q : LinePos) : Bool :=
  let le (s c : Nat) : Bool := match d.den.decided with | some (s', c') => decide (s < s') || (s = s' && decide (c ≤ c')) | none => false
  !d.effBit F.DEN_CFG_EN || d.bit F.JOB_SCHED_CFG_MODE || q.copy % 2 = 1 ||
    (if 0 < q.copy / 2 then le q.seq (q.copy / 2 - 1)
     else match d.entry (q.seq - 1) with
       | some e => q.seq = 0 || e.rep = 0 || le e.seq (e.rep - 1)
       | none => true)

/-- A unit's lines are contone: every band is (R268). -/
def Entry.contone (e : Entry) (u : Nat) : Bool := u % 2 = 1 || e.desc.cls = 0

/-- A line leaves an error row: contone, by error diffusion. -/
def Dev.leavesRow (d : Dev) (b : Fin 12) (p : LinePos) : Bool :=
  match d.entry p.seq with
  | some e => e.contone p.copy && d.edAt b p
  | none => false

/-- The bar has issued a line, or gone past it. -/
def BarSt.gone (s : BarSt) (p : LinePos) : Bool := match s.lastLine with | some q => p.le q | none => false

/-- A line, or where the bar no longer prints it, the next that it prints: past what R99 truncates and R98 skips. Screening (`scr`)
still takes a skipped line that leaves an error row, since the rows after it rest on it (R147). -/
def Dev.onward (d : Dev) (b : Fin 12) (scr : Bool) (p : LinePos) : Option LinePos :=
  let s := d.bar b
  match s.cur with
  | none => some p
  | some (q, c) =>
    let from_ := d.nextLineFrom b (d.job.entries.length + 2)
    let before := (decide (p.seq < q) || (p.seq = q && decide (p.copy < c))) && !s.gone p
    (if before then from_ (some (q, c)) else some p).bind fun p =>
      if p.seq ≠ q ∨ p.copy ≠ c then some p
      else if (match s.limit with | some l => decide (l ≤ p.idx) | none => false) then from_ (d.nextCopy b q c)
      else
        match s.skip with
        | none => some p
        | some (lo, hi) =>
          if p.idx < lo ∨ hi ≤ p.idx then some p
          else if ((d.entry q).map fun e => e.lines c).getD 0 ≤ hi then from_ (d.nextCopy b q c)
          else
            let row := if scr then (List.range (hi - p.idx)).find? fun i => d.leavesRow b { p with idx := p.idx + i } else none
            some { p with idx := match row with | some i => p.idx + i | none => hi }

/-- The next line that the bar prints after a line. -/
def Dev.printAfter (d : Dev) (b : Fin 12) (p : LinePos) : Option LinePos := (d.nextLine b p).bind (d.onward b false)

/-- The n-th line that the bar prints after a line. -/
def Dev.printLine (d : Dev) (b : Fin 12) : Nat → LinePos → Option LinePos
  | 0, p => some p
  | n + 1, p => (d.printAfter b p).bind (d.printLine b n)

/-- Lines of the bar's current copy that R98 skips between a line and another. -/
def Dev.skippedBetween (d : Dev) (b : Fin 12) (p q : LinePos) : Nat :=
  match (d.bar b).cur, (d.bar b).skip with
  | some (s, c), some (lo, hi) => d.linesBetween b (if p.le ⟨s, c, lo⟩ then ⟨s, c, lo⟩ else p) (if q.le ⟨s, c, hi⟩ then q else ⟨s, c, hi⟩)
  | _, _ => 0

/-- How many lines the bar prints from a line up to, not including, another. -/
def Dev.printsBetween (d : Dev) (b : Fin 12) (p q : LinePos) : Nat := d.linesBetween b p q - d.skippedBetween b p q

/-- The bar's next line to screen; in a shuttle schedule never beyond the pass. -/
def Dev.nextScr (d : Dev) (b : Fin 12) : Option LinePos :=
  let s := d.bar b
  match s.scr with
  | none =>
    match (d.nextLineFrom b (d.job.entries.length + 1) s.scrFrom).bind (d.onward b true) with
    | some q => if d.bit F.JOB_SCHED_CFG_MODE && some q.seq ≠ s.scrFrom.map (·.1) then none else some q
    | none => none
  | some p =>
    match (d.nextLine b p).bind (d.onward b true) with
    | some q => if (d.bit F.JOB_SCHED_CFG_MODE && q.seq ≠ p.seq) || !d.bandDecided q then none else some q
    | none => none

/-- The line that the last issued one leaves due, where screening has passed it and it lies in no slot: its deadline went by before
it was screened (R149). -/
def Dev.missed (d : Dev) (b : Fin 12) : Option LinePos :=
  let s := d.bar b
  match s.lastLine.bind (d.printAfter b), s.scr with
  | some n, some p => if n.le p && !s.car.any (fun t => t.pos = n) then some n else none
  | _, _ => none

/-- The last committed line: of the carousel, else the last issued line, or the one after it that missed its deadline, which counts
as committed (R154). -/
def Dev.lastCommitted (d : Dev) (b : Fin 12) : Option LinePos :=
  match ((d.bar b).car.filter (·.committed)).getLast? with
  | some s => some s.pos
  | none => match d.missed b with | some n => some n | none => (d.bar b).lastLine

/-- Slots not yet issued. -/
def Dev.unissued (d : Dev) (b : Fin 12) : List Slot :=
  (d.bar b).car.filter fun s => match (d.bar b).lastLine with | some l => !s.pos.le l | none => true

/-- The modes in which the screening path works (R156). -/
def Dev.screens (d : Dev) : Bool := d.modeIn [.ready, .print, .shuttle, .hold, .shadow] && !(d.mode = .ready && d.sys.endReady)

/-- The staged row that holds a block row of a copy. -/
def Dev.stagedRow (d : Dev) (b : Fin 12) (p : LinePos) (row : Nat) : Option Staged :=
  (d.bar b).staging.find? fun t => t.seq = p.seq && t.copy = p.copy && t.row = row

/-- The source line of print line k, and its neighbour down-web when it has one in the plane (R89, R137). -/
def srcLine (j : JobDesc) (k : Nat) : Nat := if j.down = 1 then k / 2 else k

def srcLines (j : JobDesc) : Nat := if j.down = 1 then (j.lines + 1) / 2 else j.lines

def neighbourLine (j : JobDesc) (k : Nat) : Option Nat :=
  let m := srcLine j k
  if j.down = 1 then
    if k % 2 = 0 then (if m = 0 then none else some (m - 1)) else (if m + 1 < srcLines j then some (m + 1) else none)
  else none

/-- Pixels per source line of a plane (R89). -/
def srcWidth (j : JobDesc) : Nat := if j.across = 1 then j.width else (j.width + 1) / 2

/-- The block rows a contone line needs in staging. -/
def Dev.rowsNeeded (d : Dev) (b : Fin 12) (e : Entry) (p : LinePos) : List Nat :=
  let k := e.k p.idx
  let m := srcLine e.desc k
  if d.getAt b (F.SCR_BAR_CFG_UPS b) p = 1 then
    match neighbourLine e.desc k with
    | some c => [m / 4, c / 4]
    | none => [m / 4]
  else [m / 4]

/-- Positions of a line of a unit. -/
def Dev.lineWidth (d : Dev) (b : Fin 12) (e : Entry) (u : Nat) : Nat := if u % 2 = 1 then d.nozzles b else e.desc.width

/-- The gain table a line needs, by bank; none with GAIN_EN = 0 or for a bitmap line. -/
def Dev.gainNeeded (d : Dev) (b : Fin 12) (e : Entry) (p : LinePos) : Option Nat :=
  if e.contone p.copy ∧ d.getAt b (F.SCR_BAR_CFG_GAIN_EN b) p = 1 then some (d.getAt b (F.SCR_BAR_CFG_GAIN_BANK b) p) else none

/-- The gain table that the tile memory holds for a line: the one loaded for the last set that changed the selection at or before it
(R140). -/
def Dev.gainFor (d : Dev) (b : Fin 12) (p : LinePos) : Option (Nat × List Nat) :=
  match ((d.bar b).gainNext.filter fun x => x.1.le p).getLast? with
  | some x => x.2
  | none => (d.bar b).gain

/-- The load that the bar waits for: that of a set which changed the selection from a line on (R140, R152), else that of the bank a line
needs, where the table held is of another. -/
def Dev.gainDue (d : Dev) (b : Fin 12) (e : Entry) (p : LinePos) : Option (LinePos × Nat) :=
  match (d.bar b).gainNext.find? fun x => x.2.isNone with
  | some x => some (x.1, d.getAt b (F.SCR_BAR_CFG_GAIN_BANK b) x.1)
  | none =>
    match d.gainNeeded b e p with
    | some g => if (d.gainFor b p).map (·.1) = some g then none else some (p, g)
    | none => none

/-- A pending set of the bar begins at or before a line, so that it must apply first. -/
def Dev.setFirst (d : Dev) (b : Fin 12) (p : LinePos) : Bool :=
  d.job.sets.any fun s => !Nat.testBit s.applied b && (match s.lines[b] with | some k => k.le p | none => false)

/-- The data for a line is at hand: its rows decoded, its gains loaded, no set still to apply before it. -/
def Dev.lineReady (d : Dev) (b : Fin 12) (p : LinePos) : Bool :=
  match d.entry p.seq with
  | none => false
  | some e =>
    (!e.contone p.copy || p.copy % 2 = 1 || (d.rowsNeeded b e p).all fun r => (d.stagedRow b p r).isSome) &&
    (d.gainDue b e p).isNone && !d.setFirst b p

/-- The deadline of a line has passed without its commit: it has been issued empty, or the line before it has been issued (R149).
The first line of a shuttle pass has no line before it. -/
def Dev.isLate (d : Dev) (b : Fin 12) (p : LinePos) : Bool :=
  (d.bar b).starved.contains p ||
    (match (d.bar b).lastLine with
     | some q => d.printAfter b q = some p && (!d.bit F.JOB_SCHED_CFG_MODE || q.seq = p.seq)
     | none => false)

/-- The bar does not print a line that it has yet to screen: R98 skips it, or it went by without an issue (R76, R346). It is screened
for the error row alone. -/
def Dev.passedLine (d : Dev) (b : Fin 12) (p : LinePos) : Bool :=
  let s := d.bar b
  !s.starved.contains p &&
    (s.gone p || (match s.cur, s.skip with
                  | some (q, c), some (lo, hi) => p.seq = q && p.copy = c && decide (lo ≤ p.idx) && decide (p.idx < hi)
                  | _, _ => false))

/-- Slots that are due for commit: the first H lines after the last issued one, of which one may have missed its deadline (R148). -/
def Dev.dueSlots (d : Dev) (b : Fin 12) : List Slot := (d.unissued b).take (d.horizon - (d.missed b).isSome.toNat)

/-- Room for one more screened line: 16 slots, and 15 - H lines beyond the horizon (R148). -/
def Dev.room (d : Dev) (b : Fin 12) : Bool :=
  decide ((d.bar b).car.length < 16) && decide ((d.unissued b).length < 15)

/-- The bar can screen its next line now. -/
def Dev.canScreen (d : Dev) (b : Fin 12) : Option LinePos :=
  let s := d.bar b
  if d.screens && !s.paused && !s.replaying then
    match d.nextScr b with
    | some p => if (d.room b || d.isLate b p || d.passedLine b p) && d.lineReady b p then some p else none
    | none => none
  else none

/-- The print line index of a line held by the engine. -/
def Dev.kOf (d : Dev) (p : LinePos) : Nat := ((d.entry p.seq).map fun e => e.k p.idx).getD 0

/-- Cycles until the predicted deadline of a line: the bar's clock reaches the issue point of the line printed before it; none at rate 0
(R153). -/
def Dev.deadline (d : Dev) (b : Fin 12) (p : LinePos) : Option Nat :=
  let s := d.bar b
  match s.cur with
  | some (q, c) =>
    let at_ : LinePos := ⟨q, c, s.next⟩
    let jump := match s.skip with | some (lo, hi) => if p = ⟨q, c, hi⟩ then hi - lo else 0 | none => 0
    let n : Nat := d.linesBetween b at_ p - jump
    if s.inc = 0 then none
    else if n = 0 then some 0
    else
      let k : Int := d.kOf at_
      let far : Int := if d.descending then s.count - (k - (n - 1 : Nat)) * 2 ^ 32 else (k + (n - 1 : Nat)) * 2 ^ 32 - s.count
      some (((far - 400 * s.inc).toNat + s.inc - 1) / s.inc)
  | none => none

/-- A checkpoint line waits for its copy: it is committed (R150). -/
def Dev.copyDue (d : Dev) (b : Fin 12) : Option LinePos :=
  let s := d.bar b
  match s.scr, d.lastCommitted b with
  | some p, some c => if s.paused && p.le c then some p else none
  | _, _ => none

/-- The class and rank of a bar's work, the lower first (R153): 1 checkpoint copy, 2 a line due for commit, 3 replay,
4 run-ahead. -/
def Dev.work (d : Dev) (b : Fin 12) : Option (Nat × Nat) :=
  let s := d.bar b
  let far := 2 ^ 64
  if (d.copyDue b).isSome then some (1, 0)
  else if s.replaying then some (3, ((s.scr.bind (d.printAfter b)).bind (d.deadline b)).getD far)
  else
    match d.canScreen b with
    | none => none
    | some p =>
      if (d.unissued b).length + (d.missed b).isSome.toNat < d.horizon ∨ d.isLate b p then some (2, (d.deadline b p).getD far)
      else some (4, (s.car.filter fun t => !t.committed).length)

/-- The bar that the screening array serves next (R153): the best class, then rank, then the lowest bar. -/
def Dev.served (d : Dev) : Option (Fin 12 × Nat) :=
  (allBars.foldl (fun (best : Option (Fin 12 × Nat × Nat)) b =>
    match d.work b, best with
    | none, x => x
    | some w, none => some (b, w)
    | some w, some (b', w') => if w.1 < w'.1 ∨ (w.1 = w'.1 ∧ w.2 < w'.2) then some (b, w) else some (b', w')) none).map
    fun t => (t.1, t.2.1)

/-! ### Screening a line -/

/-- The 8-bit values of a contone line after upsampling (R137), a band's from its level; none where its block row printed nothing
(R132). -/
def Dev.lineSamples (d : Dev) (b : Fin 12) (e : Entry) (p : LinePos) : Option (List Nat) :=
  let k := e.k p.idx
  let m := srcLine e.desc k
  match e.band p.copy with
  | some x => some (List.replicate (d.nozzles b) (x.levels.getD (p.idx / max 1 (x.n / 3)) 0))
  | none =>
    match (d.stagedRow b p (m / 4)).bind (·.lines) with
    | none => none
    | some rows =>
      let main := rows.getD (m % 4) []
      let other := match neighbourLine e.desc k with
        | none => some main
        | some c => if d.getAt b (F.SCR_BAR_CFG_UPS b) p = 0 then some main
                    else ((d.stagedRow b p (c / 4)).bind (·.lines)).map fun (r : List (List Nat)) => r.getD (c % 4) []
      let ups := d.getAt b (F.SCR_BAR_CFG_UPS b) p = 1
      some ((List.range e.desc.width).map fun j =>
        upsample ups (e.desc.across = 1) (e.desc.down = 1) (srcWidth e.desc) main (other.getD main) j)

/-- Why a contone line prints no drops: 1 where its block row is poisoned, 2 where it failed (R116, R132). -/
def Dev.failureOf (d : Dev) (b : Fin 12) (e : Entry) (p : LinePos) : Nat :=
  match d.stagedRow b p (srcLine e.desc (e.k p.idx) / 4) with
  | some t => if t.poison then 1 else 2
  | none => 0

/-- The values x of a contone line after upsampling, tone and gain. -/
def Dev.lineValues (d : Dev) (b : Fin 12) (e : Entry) (p : LinePos) : Option (List Nat) :=
  let tofs := sext 10 (d.getAt b (F.SCR_BAR_TOFS_OFS b) p)
  let gain := match d.gainNeeded b e p, d.gainFor b p with
    | some _, some (_, t) => some t
    | _, _ => none
  (d.lineSamples b e p).map fun vs => vs.mapIdx fun j v =>
    let t := toned ((d.valAt b (Reg.SCR_TONE b v) p).toNat % 2 ^ 10) tofs
    match gain with
    | some g => gained t (g.getD j 128)
    | none => t

/-- Threshold levels of a line (R141). -/
def Dev.thresholdLine (d : Dev) (b : Fin 12) (p : LinePos) (k : Nat) (xs : List Nat) : List Nat :=
  let mat := d.getAt b (F.SCR_BAR_CFG_MAT b) p
  let ox := d.getAt b (F.SCR_BAR_MOFS_X b) p
  let oy := d.getAt b (F.SCR_BAR_MOFS_Y b) p
  xs.mapIdx fun j x =>
    let cell := (k + oy) % 128 * 128 + (j + ox) % 128
    let lo := (d.effRd (matCell b mat cell)).toNat
    let hi := (d.rd (matCell b mat cell + 4)).toNat
    threshold x (lo % 2 ^ 12) (lo / 2 ^ 16 % 2 ^ 12) (hi % 2 ^ 12)

/-- The first print line of a block row, and the print lines it stands for (R116, R132). -/
def rowPrintLines (j : JobDesc) (row : Nat) : Nat × Nat :=
  let f := if j.down = 1 then 2 else 1
  let a := 4 * row * f
  (a, min (4 * f) (j.lines - a))

/-- The start of a bar's plane in the job store (R91). -/
def JobDesc.plane (j : JobDesc) (b : Fin 12) : Nat :=
  let r := ((List.range b.val).filter fun i => Nat.testBit j.planes i).length
  let nrows := if j.cls = 1 then j.lines else (srcLines j + 3) / 4
  j.base + r * nrows * j.stride

/-- JOB_POISON for a block row or a bitmap line, coalesced per bar (R116); its lines count in JOB_BAR_POISON as they fire (R436). -/
def Dev.jobPoison (d : Dev) (b : Fin 12) (p : LinePos) (first n : Nat) : Dev :=
  d.raiseC Ev.JOB_POISON b b.val none [b.val, p.seq, p.copy / 2, first, n] 1 [(4, n)]

/-- JOB_POISON for a bitmap line, once in a copy however often the line is assembled. -/
def Dev.linePoison (d : Dev) (b : Fin 12) (p : LinePos) (k : Nat) : Dev :=
  if (d.stagedRow b p k).isSome then d
  else
    (d.jobPoison b p k 1).modBar b fun s =>
      { s with staging := (s.staging.filter fun t => t.seq = p.seq && t.copy = p.copy)
                          ++ [{ seq := p.seq, copy := p.copy, row := k, lines := none, poison := true }] }

/-- The levels of a bitmap line, or none where it holds a poisoned unit (R90, R116). -/
def Dev.bitmapLine (d : Dev) (b : Fin 12) (e : Entry) (k : Nat) : Option (List Nat) :=
  let a := e.desc.plane b + k * e.desc.stride
  let n := (e.desc.width + 3) / 4
  if d.readable a n then some ((unpackLevels (d.bytes a n)).take e.desc.width) else none

/-- The checkpoint count of a line: METHOD 1, and every CKPT-th line that the bar prints in the copy or pass (R150). -/
def Dev.isCkpt (d : Dev) (b : Fin 12) (p : LinePos) : Bool :=
  d.edAt b p && !d.passedLine b p && (p.idx + 1 - d.skippedBetween b ⟨p.seq, p.copy, 0⟩ p) % d.ckptLines = 0

/-- The wire line a line of a bar has been issued under, or will take: the lines before it in the carousel are issued first (R210). -/
def Dev.wireOf (d : Dev) (b : Fin 12) (p : LinePos) : Nat :=
  let count := d.get (F.ZXL_BAR_WIRE_COUNT b)
  match (d.bar b).lastLine with
  | some q =>
    if p.le q then count - d.printsBetween b p q
    else count + 1 + (match d.missed b with | some n => (n.lt p).toNat | none => 0) + ((d.unissued b).filter fun s => s.pos.lt p).length
  | none => count + 1 + ((d.unissued b).filter fun s => s.pos.lt p).length

/-- Compare the partner's line check value of an issue count with the own one; bars that are not guarded are not counted (R339, R341). -/
def Dev.lcrcCompare (d : Dev) (b : Fin 12) (wire own theirs : Nat) : Dev :=
  if !d.guarded b then d
  else
    let d := d.wr (Reg.DPX_BAR_LAST b) (BitVec.ofNat 32 wire)
    if own = theirs then (d.add (F.DPX_BAR_MATCH_LINES b) 1).set (F.DPX_BAR_MISM_RUN b) 0
    else d.modDpxBar b fun s => { s with mism := s.mism ++ [(wire, own, theirs)] }

/-- A line check value for the pair: the ringmaster sends it; the safety net keeps it, and compares a record that waits for it. -/
def Dev.lcrcOut (d : Dev) (b : Fin 12) (wire value : Nat) : Dev :=
  if d.mode ≠ .shadow then
    (d.mirrorSend 0xA3 [b.val, wire, value]).modDpxBar b fun s => { s with own := ((wire, value) :: s.own).take 64 }
  else
    let rec_ := d.dpx.bars[b].recs.find? fun r => r.1 = wire
    let d := d.modDpxBar b fun s => { s with own := ((wire, value) :: s.own).take 64, recs := s.recs.filter fun r => r.1 ≠ wire }
    match rec_ with
    | some r => d.lcrcCompare b wire value r.2
    | none => d

/-- Form the line check value of a committed line, in the modes that have one (R155). -/
def Dev.checkLine (d : Dev) (b : Fin 12) (p : LinePos) (levels : List Nat) : Dev :=
  if d.modeIn [.print, .shuttle, .shadow] then
    let k := d.kOf p
    let v := lineCheck levels k b
    ((d.set (F.SCR_BAR_LCRC_CRC b) v).set (F.SCR_BAR_LCRC_LINE_LINE b) k).lcrcOut b (d.wireOf b p) v
  else d

/-- What a later rollback starts from once a line counts as committed: the gain table held for it (R151), and the reset row of the last line at or before it that began from
one, or nothing at all after a line that leaves no row (R145, R150, R151). -/
def Dev.keepFrom (d : Dev) (b : Fin 12) (p : LinePos) : Dev :=
  let d := d.modBar b fun s => { s with gain := d.gainFor b p, gainNext := s.gainNext.filter fun x => p.lt x.1 }
  match ((d.bar b).kept.filter fun x => x.pos.le p && (x.reset || !x.ed)).getLast? with
  | none => d
  | some x =>
    let d := d.modBar b fun s =>
      { s with com := [], comPos := none, kept := s.kept.filter fun y => if x.ed then x.pos.le y.pos else !y.pos.le x.pos }
    if x.ed then d.set (F.SCR_BAR_CKPT_LINE b) 0xFFFFFFFF else d

/-- Commit every line that is due: the first H lines after the last issued one (R148, R154). -/
def Dev.commitDue (d : Dev) (b : Fin 12) : Dev :=
  let due := (d.dueSlots b).filter fun s => !s.committed
  due.foldl (fun d s =>
    let d := d.modBar b fun t => { t with car := t.car.map fun x => if x.pos = s.pos then { x with committed := true } else x }
    let k := d.kOf s.pos
    ((d.set (F.SCR_BAR_COMMIT_LINE b) k).checkLine b s.pos s.levels).keepFrom b s.pos) d

/-- The bar starts a copy (R100); the first bar of all to start an entry is reported with the TAG (R118). -/
def Dev.startCopy (d : Dev) (b : Fin 12) (seq copy : Nat) : Dev :=
  let known := allBars.any fun x => match (d.bar x).started with | some (q, _) => seq ≤ q | none => false
  let d := if known then d
    else d.raise Ev.JOB_ENTRY_START b.val none [b.val, seq, copy, ((d.entry seq).map fun e => e.desc.tag).getD 0]
  d.modBar b fun s => { s with started := match s.started with
                                | none => some (seq, copy)
                                | some (q, c) => if q < seq ∨ (q = seq ∧ c < copy) then some (seq, copy) else some (q, c) }

/-- What a fired line adds to the counters of poisoned and failed lines and of spread dots: every counter counts fired lines only (R116,
R132, R167, R436). -/
def Dev.countLine (d : Dev) (b : Fin 12) (k bad placed lost : Nat) : Dev :=
  let d := d.addSat (F.JOB_BAR_POISON_LINES b) (if bad = 1 then 1 else 0)
  let d := d.addSat (F.CDC_BAR_BAD_LINES b) (if bad = 2 then 1 else 0)
  let d := (d.addSat (F.NOZ_BAR_SPREADS_DOTS b) placed).addSat (F.NOZ_BAR_LOST_DOTS b) lost
  if lost = 0 then d else d.raiseC Ev.SPREAD_LOST b b.val none [b.val, k, 0, lost] 1 [(3, lost)]

/-- What the screening of a starved line found (R149): it counts as the line fires, or at once where it has fired. -/
def Dev.lateCount (d : Dev) (b : Fin 12) (p : LinePos) (bad placed lost : Nat) : Dev :=
  let s := d.bar b
  if s.issued.any fun i => i.pos = p then
    d.modBar b fun s => { s with issued := s.issued.map fun i => if i.pos = p then { i with bad := bad, placed := placed, lost := lost } else i }
  else if !s.gone p then d.modBar b fun s => { s with lateRes := s.lateRes ++ [(p, bad, placed, lost)] }
  else if d.mode = .shadow then d
  else d.countLine b (d.kOf p) bad placed lost

/-- Screen and assemble the bar's next line (R137 to R149, R155, R167), and commit what is then due. A line that the bar does not print
only feeds the error row. -/
def Dev.screenLine (d : Dev) (b : Fin 12) (p : LinePos) (e : Entry) : Dev :=
  let k := e.k p.idx
  let s := d.bar b
  let ed := e.contone p.copy && d.edAt b p
  let jumped := p.idx ≠ 0 && s.scr ≠ some { p with idx := p.idx - 1 }
  let reset := p.idx = 0 || !s.wasEd || jumped
  let work := if ed && reset then [] else s.work
  let ep := d.edpAt b p
  let bitmap := !e.contone p.copy
  let w := d.lineWidth b e p.copy
  let drop := d.passedLine b p
  let late := d.isLate b p
  let xs := if bitmap then none else d.lineValues b e p
  let bm := if bitmap then d.bitmapLine b e k else none
  let bad := if bitmap then bm.isNone.toNat else if xs.isSome then 0 else d.failureOf b e p
  let d := if bitmap ∧ bm.isNone ∧ !drop then d.linePoison b p k else d
  let (lv, work) : List Nat × List Int :=
    match xs with
    | some x => if ed then edLine ep b k x work else (d.thresholdLine b p k x, [])
    | none => ((bm.getD (List.replicate w 0)), work)
  let set_ := d.spreadSet b (d.getAt b (F.NOZ_BAR_CFG_OUT_BANK b) p)
  let (lv, placed, lost) :=
    if drop then (lv, 0, 0) else spreadLine (d.valAt b (Reg.NOZ_BAR_SPREAD b) p).toNat (d.reachAt b p) w k set_ lv
  let kept : Kept := { pos := p, k := k, x := if ed then xs else none, p := ep, cfg := d.valAt b (Reg.SCR_BAR_CFG b) p,
                       noz := d.valAt b (Reg.NOZ_BAR_CFG b) p, ed := ed, reset := reset }
  let d := d.modBar b fun t =>
    { t with scr := some p, work := work, wasEd := ed, paused := ed && d.isCkpt b p, kept := t.kept ++ [kept],
             starved := t.starved.filter fun q => q ≠ p,
             car := if late || drop then t.car else t.car ++ [{ pos := p, levels := lv, committed := false, bad := bad, placed := placed, lost := lost }] }
  let d := if p.idx = 0 ∧ p.copy % 2 = 0 then d.startCopy b p.seq (p.copy / 2) else d
  let d := if p.idx = 0 && d.mode = .shadow && d.get F.DPX_STATUS_STATE = 2 then d.setGuard b true else d
  if drop then (if (d.bar b).gone p then d.keepFrom b p else d)
  else if late then ((d.checkLine b p lv).lateCount b p bad placed lost).keepFrom b p
  else d.commitDue b

/-! ### Checkpoints and rollback (R150, R152) -/

/-- The working row becomes the committed row at a checkpoint line that is committed, and screening resumes (R150). -/
def Dev.ckptCopy (d : Dev) (b : Fin 12) (p : LinePos) : Dev :=
  (d.modBar b fun s => { s with com := s.work, comPos := some p, paused := false, kept := s.kept.filter fun k => !k.pos.le p }).set
    (F.SCR_BAR_CKPT_LINE b) (d.kOf p)

/-- Discard the run-ahead of a bar after its last committed line, and set up the replay; a checkpoint copy that is due completes first
(R154). -/
def Dev.rollback (d : Dev) (b : Fin 12) (setSeq : Nat) : Dev :=
  let d := match d.copyDue b with | some p => d.ckptCopy b p | none => d
  let s := d.bar b
  let c := d.lastCommitted b
  let gone := (s.car.filter fun t => !t.committed).length
  let keepCar := s.car.filter fun t => t.committed
  let d := (d.addSat (F.SCR_BAR_ROLLBACK_COUNT b) 1).addSat (F.SCR_BAR_ROLLBACK_LINES b) gone
  let todo := s.kept.filter fun k => match c with | some q => k.pos.le q | none => false
  let ed := !todo.isEmpty || (c.isSome && s.comPos = c)
  let d := d.modBar b fun t =>
    { t with car := keepCar, scr := c, paused := false, replay := todo, replaying := !todo.isEmpty,
             work := if ed then t.com else [], wasEd := ed, kept := todo }
  d.raiseC Ev.SCR_ROLLBACK b b.val none [b.val, (c.map (·.seq)).getD 0, (c.map d.kOf).getD 0, gone, todo.length, setSeq] 1
    [(3, gone), (4, todo.length)]

/-- Replay the next line of a rollback from the committed row; the last one sets the checkpoint (R152 step 2). -/
def Dev.replayLine (d : Dev) (b : Fin 12) : Dev :=
  match (d.bar b).replay with
  | [] => d.modBar b fun s => { s with replaying := false }
  | l :: r =>
    let d := d.modBar b fun s =>
      { s with replay := r, work :=
          let row := if l.reset then [] else s.work
          match l.x with | some x => (edLine l.p b l.k x row).2 | none => row }
    if r.isEmpty then
      (d.modBar b fun s => { s with replaying := false, com := s.work, comPos := some l.pos, kept := [] }).set
        (F.SCR_BAR_CKPT_LINE b) l.k
    else d

/-- Empty a bar's carousel and error rows (R156). -/
def Dev.discard (d : Dev) (b : Fin 12) : Dev :=
  (d.modBar b fun s =>
    { s with car := [], work := [], com := [], comPos := none, kept := [], replay := [], replaying := false, paused := false,
             staging := [], starved := [], lateRes := [], wasEd := false }).set (F.SCR_BAR_CKPT_LINE b) 0xFFFFFFFF

/-! ### Gain banks, matrices and out banks in use (R140, R142, R166) -/

/-- The words of a register in use on a bar: in effect, selected by a pending set, or used by a line kept. -/
def Dev.wordsInUse (d : Dev) (b : Fin 12) (a : Nat) (ofKept : Kept → Word) : List Word :=
  [d.effRd a] ++ ((d.bar b).tl.filter fun t => t.2.1 = a).map (·.2.2.1)
    ++ (d.job.sets.filter fun s => !Nat.testBit s.applied b).flatMap (fun s => (s.fields.filter fun f => f.1 = a).map (·.2))
    ++ (d.bar b).kept.map ofKept

/-- A selection of a one-bit field is busy on a bar; in IDLE and CALIBRATE none is. -/
def Dev.busySel (d : Dev) (b : Fin 12) (f : Fld) (ofKept : Kept → Word) (g : Nat) : Bool :=
  !d.modeIn [.idle, .calibrate] && (d.wordsInUse b f.reg ofKept).any fun w => f.of w = g

def Dev.gainBusy (d : Dev) (b : Fin 12) (g : Nat) : Bool := d.busySel b (F.SCR_BAR_CFG_GAIN_BANK b) (·.cfg) g
def Dev.matBusy (d : Dev) (b : Fin 12) (m : Nat) : Bool := d.busySel b (F.SCR_BAR_CFG_MAT b) (·.cfg) m
def Dev.outBusy (d : Dev) (b : Fin 12) (g : Nat) : Bool := d.busySel b (F.NOZ_BAR_CFG_OUT_BANK b) (·.noz) g

/-- SCR_GAIN_BASE in effect. -/
def Dev.gainBase (d : Dev) : Nat :=
  (d.effRd Reg.SCR_GAIN_BASE_LO).toNat + (d.effRd Reg.SCR_GAIN_BASE_HI).toNat % 8 * 2 ^ 32

/-- Load a gain bank: bytes of a poisoned unit, or of one at or beyond the capacity, read as 128, and each such unit raises
GAIN_POISON (R140). The table serves the lines from one on: of the set that changed the selection there, else of the one held. -/
def Dev.loadGain (d : Dev) (b : Fin 12) (g : Nat) (p : LinePos) : Dev :=
  let base := d.gainBase + (2 * b.val + g) * 122880
  let bad (u : Nat) : Bool := d.poisonedAt (base + 64 * u) || decide (d.cap < base + 64 * u + 64)
  let tab := (List.range 1920).flatMap fun u =>
    if bad u then List.replicate 64 128 else (d.bytes (base + 64 * u) 64).map (·.toNat)
  let d := d.modBar b fun s =>
    if s.gainNext.any fun x => x.1.le p then
      { s with gainNext := (s.gainNext.filter fun x => x.1.lt p) ++ [(p, some (g, tab))] ++ s.gainNext.filter fun x => p.lt x.1 }
    else { s with gain := some (g, tab) }
  ((List.range 1920).filter bad).foldl (fun d u => d.raise Ev.GAIN_POISON b.val none [b.val, p.seq, d.kOf p, g, 64 * u]) d

end Sys2Proof.Machine
end

