-- ==== Sys2Proof/Machine/Zxl.lean ====
section
/-!
DEFINITION. Zixlink operations (spec/08_zixlink_lanes.md, spec/09_zixlink_protocol.md): lanes and the bars they carry, frames,
acknowledged pushes (R226), span inhibits (R231) and overrides (R163, R169). The meanings are in ExecLane.lean and ExecZxl.lean.
-/
namespace Sys2Proof.Machine

def Dev.lane (d : Dev) (n : Fin 18) : LaneSt := d.zxl.lanes[n]

def Dev.modLane (d : Dev) (n : Fin 18) (f : LaneSt → LaneSt) : Dev :=
  { d with zxl := { d.zxl with lanes := upd d.zxl.lanes n f } }

/-- Lane states (R182). -/
abbrev laneOff : Nat := 0
abbrev laneDetect : Nat := 1
abbrev laneBase : Nat := 2
abbrev laneNegotiate : Nat := 3
abbrev laneStep : Nat := 4
abbrev laneAlign : Nat := 5
abbrev laneActive : Nat := 6
abbrev laneRecover : Nat := 7
abbrev laneL1 : Nat := 8
abbrev laneL2 : Nat := 9
abbrev laneFailed : Nat := 10
abbrev laneExcluded : Nat := 11

def Dev.laneSt (d : Dev) (n : Fin 18) : Nat := d.get (F.ZXL_LANE_STATUS_STATE n)

def Dev.active (d : Dev) (n : Fin 18) : Bool := d.laneSt n = laneActive

/-- The head lanes LNK0 to LNK15. -/
def headLanes : List (Fin 18) := (List.finRange 18).filter fun n => n.val < 16

/-- The pieces of a lane in use (R197). -/
def Dev.pieces (d : Dev) (n : Fin 18) : List Piece :=
  (List.range 4).filterMap fun p =>
    if d.bit (F.ZXL_LANE_PIECE_FIRST_VALID n p) then
      some { bar := d.get (F.ZXL_LANE_PIECE_FIRST_BAR n p), first := d.get (F.ZXL_LANE_PIECE_FIRST_FIRST n p),
             count := d.get (F.ZXL_LANE_PIECE_COUNT_COUNT n p) }
    else none

/-- The lanes that carry a bar. -/
def Dev.lanesOf (d : Dev) (b : Fin 12) : List (Fin 18) := headLanes.filter fun n => (d.pieces n).any fun p => p.bar = b.val

/-- The endpoints of a bar, and those of a lane's chain. -/
def Dev.epsOf (d : Dev) (b : Fin 12) : List EpImg := d.img.eps.filter fun e => e.bar = b.val

def Dev.epsOn (d : Dev) (n : Fin 18) : List EpImg := d.img.eps.filter fun e => e.ep / 64 = n.val

/-- ABT stands in every frame of a lane while a mode change of a bar on it is aborted (R230). -/
def Dev.laneAbt (d : Dev) (n : Fin 18) : Bool :=
  allBars.any fun b => (d.lanesOf b).contains n && (match d.zxl.mchg[b] with | some m => m.aborting | none => false)

/-- The sets or blocks a state begins with: 256 STEP sets (R186), 16 LPI or DARK blocks (R194, R195). -/
def txCount (st : Nat) : Nat := if st = laneStep then 256 else if st = laneL1 || st = laneL2 then 16 else 0

/-- The transmitter at the entry to a state: the traffic that waits is discarded where the lane leaves ACTIVE but for L1 and L2 (R190), and
kept where it returns from them (R196). -/
def Tx.enter (t : Tx) (st : Nat) : Tx :=
  { t with rest := [], count := txCount st, align := 0,
           queue := if st = laneActive || st = laneL1 || st = laneL2 then t.queue else [],
           prio := if st = laneActive || st = laneL1 || st = laneL2 then t.prio else [] }

/-- A change of state of a lane: the state, when it was entered, the ACTIVE bit, and what its transmitter begins with. -/
def Dev.setLane (d : Dev) (n : Fin 18) (st : Nat) : Dev :=
  let d := if st = laneActive then d else d.mirrorLeft n
  let d := d.set (F.ZXL_LANE_STATUS_STATE n) st
  let d := d.set ⟨Reg.ZXL_STATUS, n, 1⟩ (decide (st = laneActive)).toNat
  let d := if n.val < 16 then d else d.setB ⟨Reg.DPX_STATUS, 10 + n.val, 1⟩ (st = laneActive)
  d.modLane n fun l => { l with entered := d.now, tx := l.tx.enter st }

/-- At entry to IDLE the time without CMD traffic begins on every lane (R196). -/
def Dev.idleStart (d : Dev) : Dev := { d with zxl := { d.zxl with lanes := d.zxl.lanes.map fun l => { l with idleAt := d.now } } }

/-- A BEACON on a lane, with the next sequence number (R219). -/
def Dev.sendBeacon (d : Dev) (n : Fin 18) (safe : Bool) : Dev :=
  (d.modLane n fun l => { l with beacSeq := (l.beacSeq + 1) % 256, beacAt := d.now }).emitOn n
    (.beacon n (d.get F.ZXL_CLAIM_CLAIM) safe (d.lane n).beacSeq (d.time.sec % 2 ^ 16) d.time.ns)

/-! ### Acknowledged pushes (R226) -/

/-- A frame under another sequence number. -/
def Sent.withSeq (x : Sent) (s : Nat) : Sent :=
  match x with
  | .mask lane bar l _ es => .mask lane bar l s es
  | .cmd lane bc t _ op reg l ws => .cmd lane bc t s op reg l ws
  | y => y

/-- The last push sent to each inhibited endpoint among some (R231). -/
def Dev.noteInh (d : Dev) (eps : List Nat) (s : Nat) : Dev :=
  { d with zxl := { d.zxl with inh := d.zxl.inh.map fun i => if eps.contains i.ep then { i with seq := some (s, d.now) } else i } }

/-- Send a push on a lane: it takes the next number, and never more than 127 are outstanding. On a lane that does not carry it, it goes
unacknowledged (R190, R226). -/
def Dev.push (d : Dev) (n : Fin 18) (eps : List Nat) (tries : Nat) (x : Sent) : Dev :=
  let l := d.lane n
  let p : Push := { seq := l.pushSeq, eps := eps, at_ := d.now, tries := tries, frame := x.withSeq l.pushSeq }
  if 127 ≤ l.pushes.length then d.modLane n fun l => { l with waitQ := l.waitQ ++ [p] }
  else ((d.modLane n fun l => { l with pushSeq := (l.pushSeq + 1) % 256, pushes := l.pushes ++ [p] }).noteInh eps p.seq).emitOn n p.frame

/-- Endpoints are reached over the lane: it is in the map in use and step 7 has started it (R199). -/
def Dev.started (d : Dev) (n : Fin 18) : Bool := d.laneSt n ≠ laneOff && d.laneSt n ≠ laneExcluded

/-- Lists of at most n. -/
def chunks {α : Type} (n : Nat) : Nat → List α → List (List α)
  | 0, _ => []
  | _, [] => []
  | fuel + 1, l => l.take n :: chunks n fuel (l.drop n)

/-- The modes in which overrides are sent (R175, R233). -/
def Dev.sendsMask (d : Dev) : Bool := d.modeIn [.boot, .idle, .calibrate, .ready, .print, .hold, .shuttle]

/-- Send overrides of a bar from wire line L on every lane that carries it (R163); a lane that is not ACTIVE loses them (R190). -/
def Dev.sendMask (d : Dev) (b : Fin 12) (l : Nat) (es : List MaskEntry) : Dev :=
  if es.isEmpty || !d.sendsMask then d
  else
    (d.lanesOf b).foldl (fun d n =>
      if d.started n then
        (chunks 255 es.length es).foldl (fun d c =>
          d.push n (((d.epsOn n).filter fun e => e.bar = b.val).map (·.ep)) 0 (.mask n b (l % 2 ^ 16) 0 c)) d
      else d) d

/-- The modes in which CMD frames are sent (R233): of the safety net, reads only. -/
def Dev.sendsCmd (d : Dev) : Bool := d.modeIn [.boot, .idle, .calibrate, .ready, .print, .hold, .shuttle, .safe]

/-- A broadcast write to every endpoint of a bar: plain, or at a wire line (R224, R225). -/
def Dev.broadcast (d : Dev) (b : Fin 12) (reg : Nat) (atLine : Option Nat) (ws : List Nat) : Dev :=
  if !d.sendsCmd then d
  else
  (d.lanesOf b).foldl (fun d n =>
    if d.started n then
      d.push n (((d.epsOn n).filter fun e => e.bar = b.val).map (·.ep)) 0
        (.cmd n true b 0 (if atLine.isSome then 3 else 2) reg ((atLine.getD 0) % 2 ^ 16) ws)
    else d) d

/-- A command to one endpoint as it is sent now. -/
def Dev.cmdAt (d : Dev) (c : Ecmd) : Ecmd :=
  let st := d.laneSt (laneOf c.lane)
  { c with at_ := d.now, waiting := st = laneL1 || st = laneL2 }

/-- The CMD frame of a command to one endpoint, in the modes that send it: in SHADOW only reads (R233). -/
def Dev.emitCmd (d : Dev) (c : Ecmd) : Dev :=
  if d.sendsCmd || (d.mode = .shadow && c.op = 1) then
    d.emitOn (laneOf c.lane) (.cmd c.lane false c.ep c.tag c.op c.reg (c.l % 2 ^ 16) c.words)
  else d

/-- The device sends an endpoint command of its own: it takes a TAG, waits for its response, and is retried (R224). Where its lane has to
leave L1 or L2 its time counts from ACTIVE (R196). -/
def Dev.sendCmd (d : Dev) (c : Ecmd) : Dev :=
  let c := d.cmdAt c
  ({ d with zxl := { d.zxl with cmds := d.zxl.cmds ++ [c] } } : Dev).emitCmd c

/-- A command of the device to one endpoint: a plain write (OP 2), or one at a wire line (OP 3). -/
def Dev.epCmd (d : Dev) (ep op reg l : Nat) (ws : List Nat) (bank : Option Nat) : Dev :=
  if !d.sendsCmd || !d.started (laneOf (ep / 64)) then d
  else
    let tag := (d.zxl.tag + 1) % 256
    ({ d with zxl := { d.zxl with tag := tag } } : Dev).sendCmd
      { lane := ep / 64, ep := ep, op := op, reg := reg, data := ws.headD 0, at_ := d.now, tries := 0, waiting := false, tag := tag, words := ws,
        l := l, bank := bank }

/-- A plain write to one endpoint. -/
def Dev.epWrite (d : Dev) (ep reg : Nat) (ws : List Nat) : Dev := d.epCmd ep 2 reg 0 ws none

/-- Registers of an endpoint that the device writes (R236). -/
abbrev epDelay : Nat := 0x0004
abbrev epPlace : Nat := 0x0005
abbrev epStrobe : Nat := 0x0008
abbrev epWave : Nat := 0x000A
abbrev epEpoch : Nat := 0x000D
abbrev epMask : Nat := 0x0400

/-! ### From which wire line an override applies -/

/-- The bar issues lines now. -/
def Dev.issues (d : Dev) (b : Fin 12) : Bool := d.printing && (d.bar b).cur.isSome && !(d.bar b).done

/-- The first line of a bar issued at least 1 µs from now, as a wire line (R169, R231): the next, or the one after it when
the next is due within 1 µs. In a mode in which the bar issues no lines, the next wire line (R175). -/
def Dev.lineSoon (d : Dev) (b : Fin 12) (ns : Nat) : Nat :=
  let w := d.get (F.ZXL_BAR_WIRE_COUNT b)
  let s := d.bar b
  if d.issues b && s.inc ≠ 0 then
    let k := match s.cur with | some (q, c) => d.kOf ⟨q, c, s.next⟩ | none => 0
    let dist := ((k : Int) * 2 ^ 32 - s.count).natAbs
    let cyc := (dist - s.inc * 400) / s.inc
    if cyc * 10 < ns then w + 1 + ((ns - cyc * 10) * s.inc + 10 * 2 ^ 32 - 1) / (10 * 2 ^ 32) else w + 1
  else w + 1

/-! ### Position overrides (R164, R165) -/

/-- The override of one row's nozzle at a position: 1 INHIBIT, 2 FORCE, none by the mask. -/
def posOverride (dual outA outB : Bool) (row : Nat) : Option Nat :=
  if row = 0 then
    if outA then some 1 else if dual && outB then some 2 else none
  else if outB then some 1 else if outA then some 2 else none

/-- The overrides of a bank: position, row and action (R165). -/
def Dev.bankOverrides (d : Dev) (b : Fin 12) (bank : Nat) : List (Nat × Nat × Nat) :=
  let es := d.outEntries b bank
  (sortedNodup (es.map (·.1))).flatMap fun j =>
    ((if d.dual b then [0, 1] else [0]).filterMap fun row =>
      (posOverride (d.dual b) (es.contains (j, 0)) (es.contains (j, 1)) row).map fun a => (j, row, a))

/-- The MASK entries that turn position overrides into others: releases, then the new ones. -/
def overrideDiff (o n : List (Nat × Nat × Nat)) : List MaskEntry :=
  (o.filter fun x => !n.any fun y => y.1 = x.1 && y.2.1 = x.2.1).map
      (fun x => { kind := 0, action := 0, row := x.2.1, first := x.1, arg := 1 })
    ++ (n.filter fun x => !o.contains x).map (fun x => { kind := 0, action := x.2.2, row := x.2.1, first := x.1, arg := 1 })

/-- The change from one bank to another. -/
def Dev.bankChange (d : Dev) (b : Fin 12) (old new : Nat) : List MaskEntry :=
  overrideDiff (d.bankOverrides b old) (d.bankOverrides b new)

/-! ### Span inhibits of endpoints (R216, R223, R226, R231) -/

/-- The MASK entry that acts on every head of an endpoint. -/
def epEntry (action ep : Nat) : MaskEntry := { kind := 2, action := action, row := 0, first := 0, arg := ep % 1024 * 4 }

/-- The MASK entry that acts on one head. -/
def headEntry (action : Nat) (h : HeadSt) : MaskEntry :=
  { kind := 1, action := action, row := h.img.row, first := 0, arg := h.img.ep * 4 + h.img.slot }

/-- An endpoint's span is inhibited, for whatever cause. -/
def Dev.epInhibited (d : Dev) (ep : Nat) : Bool := d.zxl.inh.any fun i => i.ep = ep

/-- The span override a head has to have: INHIBIT while its endpoint is inhibited or it is hot itself, FORCE while a partner is hot
(R163, R169, R231). -/
def Dev.headWant (d : Dev) (h : HeadSt) : Nat :=
  if d.epInhibited h.img.ep || h.inhibit then 1 else if h.forced then 2 else 0

/-- The span override last sent for a head. -/
def HeadSt.last (h : HeadSt) : Nat := ((h.spanQ.getLast?).map (·.2)).getD h.span

/-- Overrides for whole spans have been sent from wire line L: each head among some keeps what it will have. -/
def Dev.noteSpans (d : Dev) (l : Nat) (p : HeadSt → Bool) : Dev :=
  let f (h : HeadSt) : HeadSt := if p h && h.last ≠ d.headWant h then { h with spanQ := h.spanQ ++ [(l, d.headWant h)] } else h
  if !d.sendsMask then d else { d with noz := { d.noz with heads := d.noz.heads.map f } }

/-- Send the span overrides of heads that have to change, from wire line L (R163, R169, R170). -/
def Dev.sendSpans (d : Dev) (b : Fin 12) (l : Nat) (hs : List Nat) : Dev :=
  let new := d.noz.heads.filter fun h => hs.contains h.img.h && h.last ≠ d.headWant h
  (d.sendMask b l (new.map fun h => headEntry (d.headWant h) h)).noteSpans l fun h => hs.contains h.img.h

/-- A line of a bar fires: the span overrides that apply from it are in effect (R163, R225). -/
def Dev.spansAt (d : Dev) (b : Fin 12) (wire : Nat) : Dev :=
  let f (h : HeadSt) : HeadSt :=
    if h.img.bar = b.val then
      { h with span := (((h.spanQ.filter fun x => decide (x.1 ≤ wire)).getLast?).map (·.2)).getD h.span,
               spanQ := h.spanQ.filter fun x => decide (wire < x.1) }
    else h
  if d.noz.heads.any fun h => h.img.bar = b.val && !h.spanQ.isEmpty then { d with noz := { d.noz with heads := d.noz.heads.map f } } else d

/-- The position overrides of the bank in effect on an endpoint's own span. -/
def Dev.epOverrides (d : Dev) (e : EpImg) : List MaskEntry :=
  let b := barOf e.bar
  overrideDiff [] ((d.bankOverrides b (d.effGet (F.NOZ_BAR_CFG_OUT_BANK b))).filter fun x =>
    x.2.1 = e.row && decide (e.first ≤ x.1) && decide (x.1 < e.first + e.count))

/-- The overrides of an endpoint: of its positions, then of its span, INHIBIT while it is inhibited (R163, R231). -/
def Dev.epMasks (d : Dev) (e : EpImg) : List MaskEntry :=
  d.epOverrides e ++
    (if d.epInhibited e.ep then [epEntry 1 e.ep]
     else (d.noz.heads.filter fun h => h.img.ep = e.ep && d.headWant h ≠ 0).map fun h => headEntry (d.headWant h) h)

/-- Push the full state to an endpoint: place, spans, masks, overrides, strobe width, mode fields, epoch (R231). -/
def Dev.fullPush (d : Dev) (e : EpImg) : Dev :=
  let b := barOf e.bar
  let heads := d.noz.heads.filter fun h => h.img.ep = e.ep
  let d := d.epWrite e.ep epPlace [e.row * 2 ^ 31 + e.bar * 2 ^ 24 + e.first, e.count]
  let d := heads.foldl (fun d h => d.epWrite e.ep (0x0010 + 2 * h.img.slot) [h.img.first, h.img.count]) d
  let d := (List.range 8).foldl (fun d p =>
    d.epWrite e.ep (epMask + 128 * p) ((List.range 128).map fun i => (d.effRd (Reg.NOZ_MASK_WIN (8 * b.val + p) i)).toNat)) d
  let es := if d.sendsMask then d.epMasks e else []
  let l := d.lineSoon b 1000
  let d := (chunks 255 es.length es).foldl (fun d c =>
    d.push (laneOf (e.ep / 64)) [e.ep] 0 (.mask (e.ep / 64) e.bar (l % 2 ^ 16) 0 c)) d
  let d := d.noteSpans l fun h => h.img.ep = e.ep
  let d := d.epWrite e.ep epStrobe [d.widthNow b]
  let v := (d.effRd (Reg.ZXL_BAR_EPSET b)).toNat
  let d := d.epWrite e.ep epWave [v % 16, v / 2 ^ 8 % 2 ^ 8, v / 2 ^ 16 % 2 ^ 8]
  d.epWrite e.ep epEpoch [d.get (F.ZXL_BAR_EPOCH_EPOCH b)]

def Dev.epImg (d : Dev) (ep : Nat) : Option EpImg := d.img.eps.find? fun e => e.ep = ep

/-- The inhibit of an endpoint for a cause of R231 (`delay` false), or for its delay (R216): each lasts by itself. -/
def Dev.inhOf (d : Dev) (ep : Nat) (delay : Bool) : Option EpInh := d.zxl.inh.find? fun i => i.ep = ep && (i.cause = 3) = delay

/-- Inhibit the span of an endpoint from the first line at least 1 µs away, for a cause (R231; a delay: R216); the causes of R231 are
counted and draw a push of the full state (R231, R237). -/
def Dev.inhibitEp (d : Dev) (ep cause : Nat) : Dev :=
  match d.epImg ep with
  | none => d
  | some e =>
    if (d.inhOf ep (cause = 3)).isSome then d
    else
      let b := barOf e.bar
      let was := d.epInhibited ep
      let d : Dev := { d with zxl := { d.zxl with inh := d.zxl.inh ++ [{ ep := ep, cause := cause, at_ := d.now }] } }
      let l := d.lineSoon b 1000
      let d := if was then d else (d.sendMask b l [epEntry 1 ep]).noteSpans l fun h => h.img.ep = ep
      if cause = 3 then d else (d.add (F.ZXL_BAR_MISMATCH_EPS b) 1).fullPush e

/-- A cause of an endpoint's inhibit ends; with the last its span is released in the same way, but for the heads that over-temperature
handling still overrides (R163, R169, R231). -/
def Dev.releaseEp (d : Dev) (ep : Nat) (delay : Bool) : Dev :=
  match d.epImg ep with
  | none => d
  | some e =>
    if (d.inhOf ep delay).isNone then d
    else
      let b := barOf e.bar
      let d : Dev := { d with zxl := { d.zxl with inh := d.zxl.inh.filter fun i => !(i.ep = ep && (i.cause = 3) = delay) } }
      let d := if delay then d else d.set (F.ZXL_BAR_MISMATCH_EPS b) (d.get (F.ZXL_BAR_MISMATCH_EPS b) - 1)
      if d.epInhibited ep then d
      else
        let l := d.lineSoon b 1000
        let keep := d.noz.heads.filter fun h => h.img.ep = ep && d.headWant h ≠ 0
        (d.sendMask b l (epEntry 0 ep :: keep.map fun h => headEntry (d.headWant h) h)).noteSpans l fun h => h.img.ep = ep

/-! ### LTC_MAXRATE (R70, R198) -/

/-- The line rate a lane rate supports. -/
def laneHz (rate : Nat) : Nat := if rate = 1 then 51000 else 80000

/-- The slowest rate among the lanes in use that carry pieces, each at the rate it last completed a bring-up; 80,000 when no
lane in use carries pieces. -/
def Dev.maxRate (d : Dev) : Nat :=
  (headLanes.filter fun n => !(d.pieces n).isEmpty && d.laneSt n ≠ laneExcluded && d.bit (F.ZXL_LANE_CFG_EN n)).foldl
    (fun m n => min m (laneHz (d.lane n).upRate)) 80000

def Dev.setMaxRate (d : Dev) : Dev := d.set F.LTC_MAXRATE_HZ d.maxRate

end Sys2Proof.Machine
end

