-- ==== Sys2Proof/Machine/Noz.lean ====
section
/-!
DEFINITION. Rows, masks and missing nozzles (spec/07_rows_and_nozzles.md): mask phase, head
over-temperature, head life and its persistence. The meanings are in ExecScr.lean.
-/
namespace Sys2Proof.Machine

/-- The mask phase of print line k (R162); 0 on a single-row bar. -/
def Dev.maskPhase (d : Dev) (b : Fin 12) (p : LinePos) : Nat :=
  if d.dual b then
    d.getAt b (F.NOZ_BAR_CFG_PAT b) p * 2 ^ 12 + (d.kOf p + d.getAt b (F.NOZ_BAR_CFG_YOFS b) p) % 64 * 2 ^ 6
      + d.getAt b (F.NOZ_BAR_CFG_XOFS b) p
  else 0

/-! ### Heads (R168 to R174) -/

def Dev.modHead (d : Dev) (h : Nat) (f : HeadSt → HeadSt) : Dev :=
  { d with noz := { d.noz with heads := d.noz.heads.map fun x => if x.img.h = h then f x else x } }

def Dev.head (d : Dev) (h : Nat) : Option HeadSt := d.noz.heads.find? fun x => x.img.h = h

/-- The words of the persistent head record (R172). -/
def headWord (h i : Nat) : Nat := 0x0800 + 4 * h + i

/-- Queue a device write of a persistent word (R410). -/
def Dev.prsWrite (d : Dev) (w : Nat) (v : Nat) : Dev := { d with prsQ := d.prsQ ++ [(w, BitVec.ofNat 32 v)] }

/-- Words 2 and 3 of a head's record as its count stands (R172). -/
def HeadSt.lifeWord (h : HeadSt) (i : Nat) : Nat := if i = 2 then h.ctr % 2 ^ 32 else h.model * 2 ^ 16 + h.ctr / 2 ^ 32

/-- Persist the count of a head where it has changed since its last write: words 2 and 3, each of which takes the count at its own write
(R174). -/
def Dev.saveHead (d : Dev) (h : HeadSt) : Dev :=
  if h.ctr = h.saved || d.prsQ.any (fun x => x.1 = headWord h.img.h 2 || x.1 = headWord h.img.h 3) then d
  else (d.prsWrite (headWord h.img.h 2) (h.lifeWord 2)).prsWrite (headWord h.img.h 3) (h.lifeWord 3)

/-- The value of a write of the device as it is made: words 2 and 3 of a head's record take the count of that moment, and it is the one
saved (R174). -/
def Dev.lifeWrite (d : Dev) (w : Nat) (v : Word) : Dev × Word :=
  match d.noz.heads.find? fun h => w = headWord h.img.h 2 || w = headWord h.img.h 3 with
  | none => (d, v)
  | some h =>
    let i := if w = headWord h.img.h 2 then 2 else 3
    (d.modHead h.img.h fun x => { x with saved := if i = 2 then x.ctr else x.saved, savedAt := some d.now }, BitVec.ofNat 32 (h.lifeWord i))

/-- Persist changed counts; with a limit, no record sooner than that many ns after its last write. -/
def Dev.saveHeads (d : Dev) (limit : Nat) : Dev :=
  d.noz.heads.foldl (fun d h =>
    match h.savedAt with
    | some t => if d.now < t + limit then d else d.saveHead h
    | none => d.saveHead h) d

/-- 15 minutes, in ns. -/
abbrev min15 : Nat := 900000000000

/-- A fired line of a bar counts on each head that is present and under no INHIBIT as the line fires; the life events come once (R173). -/
def Dev.countHeads (d : Dev) (b : Fin 12) : Dev :=
  d.noz.heads.foldl (fun d h =>
    if h.img.bar = b.val && h.present && h.span ≠ 1 then
      let c := min (2 ^ 48 - 1) (h.ctr + 1)
      let warn := h.rated ≠ 0 && !h.lifeWarn && decide (h.rated * 9 ≤ c * 10)
      let end_ := h.rated ≠ 0 && !h.lifeEnd && decide (h.rated ≤ c)
      let d := d.modHead h.img.h fun x => { x with ctr := c, lifeWarn := x.lifeWarn || warn, lifeEnd := x.lifeEnd || end_ }
      let w := b.val + h.img.h * 2 ^ 16
      let d := if warn then d.raise Ev.HEAD_LIFE_WARN b (some h.img.ep) [w] else d
      if end_ then d.raise Ev.HEAD_LIFE_END b (some h.img.ep) [w] else d
    else d) d

/-- The heads of the other row of a dual-row bar that cover part of a head's span. -/
def Dev.partners (d : Dev) (h : HeadSt) : List HeadSt :=
  d.noz.heads.filter fun x => x.img.bar = h.img.bar && x.img.row ≠ h.img.row &&
    decide (x.img.first < h.img.first + h.img.count) && decide (h.img.first < x.img.first + x.img.count)

/-- Positions of a head's span that no row can print (R169): no partner head that is present and not inhibited covers them, or
their partner nozzle is out. -/
def Dev.unprinted (d : Dev) (h : HeadSt) : List Nat :=
  let b := barOf h.img.bar
  let ps := (d.partners h).filter fun x => x.present && d.headWant x ≠ 1
  let out := d.outEntries b (Fld.of (F.NOZ_BAR_CFG_OUT_BANK b) (d.effRd (Reg.NOZ_BAR_CFG b)))
  ((List.range h.img.count).map (h.img.first + ·)).filter fun j =>
    !(d.dual b && ps.any fun x => decide (x.img.first ≤ j) && decide (j < x.img.first + x.img.count))
      || out.contains (j, 1 - h.img.row)

/-- Over-temperature bits of heads of one bar have newly set in one slot pass (R169, R171): overrides from one L, and one outcome for
the positions that no row can print. -/
def Dev.headsHot (d : Dev) (b : Fin 12) (hs : List Nat) : Dev :=
  let l := d.lineSoon b 1000
  if !d.sendsMask then d
  else
    let d := hs.foldl (fun d hi => d.modHead hi fun x => { x with inhibit := true, forced := false }) d
    let hot := d.noz.heads.filter fun x => hs.contains x.img.h
    let force := if d.dual b then d.noz.heads.filter fun x => d.headWant x ≠ 1 && (d.partners x).any fun y => hs.contains y.img.h else []
    let d := force.foldl (fun d x => d.modHead x.img.h fun y => { y with forced := true }) d
    let d := d.sendSpans b l (hs ++ force.map (·.img.h))
    let un := (hot.map fun h => (h, d.unprinted h)).filter fun x => !x.2.isEmpty
    let total := un.foldl (fun n x => n + x.2.length) 0
    let word (h : HeadSt) : Nat := b.val + h.img.h * 2 ^ 16
    match hot.head? with
    | none => d
    | some h =>
      let d := if d.dual b then d.raise Ev.HEAD_OVT b (some h.img.ep) [word h, l, 0, total] else d
      if total = 0 then d
      else
        let d := d.set (F.NOZ_BAR_STATUS_UNPRINTED b) 1
        if d.bit F.NOZ_OVT_ACTION_ACTION then
          let d := d.raise Ev.HEAD_OVT_HOLD b (some h.img.ep) [word h, l]
          if d.printing then d.devTrans .hold 0x03 else d
        else
          un.foldl (fun d x =>
            d.raise Ev.MISSING_STRIPE b (some x.1.img.ep) [word x.1, l, x.1.img.row, x.2.headD 0, x.2.length]) d

/-- Release a head's span overrides (R170): its own, which go back to FORCE while a partner is hot, and those forces that no other
hot head needs; the INHIBIT of an endpoint stays (R163). -/
def Dev.headCool (d : Dev) (hi : Nat) : Dev :=
  match d.head hi with
  | none => d
  | some h =>
    if !h.inhibit then d
    else
      let b := barOf h.img.bar
      let l := d.lineSoon b 1000
      let back := d.dual b && (d.partners h).any fun x => x.inhibit
      let d := d.modHead hi fun x => { x with inhibit := false, forced := back, clearAt := none }
      let free := (d.partners h).filter fun x => x.forced && !(d.partners x).any fun y => y.inhibit
      let d := free.foldl (fun d x => d.modHead x.img.h fun y => { y with forced := false }) d
      let d := d.sendSpans b l (hi :: free.map (·.img.h))
      let still := d.noz.heads.any fun x => x.img.bar = h.img.bar && x.inhibit && !(d.unprinted x).isEmpty
      (d.setB (F.NOZ_BAR_STATUS_UNPRINTED b) still).raise Ev.HEAD_OVT_CLEAR b (some h.img.ep) [b.val + hi * 2 ^ 16, l]

end Sys2Proof.Machine
end

