-- ==== Sys2Proof/Machine/Clock.lean ====
section
/-!
DEFINITION. The line clocks (spec/03_line_timing.md, R60 to R76): counts, buoys, the gate, strobe width and derating, direct
strobe outputs and compare channels. The meanings are in ExecLtc.lean.
-/
namespace Sys2Proof.Machine

/-- The modes in which line clocks run (R77). -/
def Dev.clocksRun (d : Dev) : Bool := d.modeIn [.ready, .print, .hold, .shuttle, .calibrate, .shadow]

/-- One line, in units of the count (R61). -/
abbrev lineOne : Int := 2 ^ 32

/-- The entry and copy a bar's clock is in. -/
def Dev.curEntry (d : Dev) (b : Fin 12) : Option (Entry × Nat) :=
  match (d.bar b).cur with
  | none => none
  | some (s, c) => (d.entry s).map fun e => (e, c)

/-- The lines of the copy that the bar may issue: up to the truncation of R99; none where its plane is absent (R92). -/
def Dev.linesEff (d : Dev) (b : Fin 12) (e : Entry) (u : Nat) : Nat :=
  if e.has b u then ((d.bar b).limit.getD (e.lines u)) else 0

/-- The index after an index, past the lines that R98 skips. -/
def BarSt.after (s : BarSt) (i : Nat) : Nat :=
  match s.skip with
  | some (lo, hi) => if lo ≤ i ∧ i < hi then hi else i
  | none => i

/-- A pass whose direction is the mark's prints; a forward schedule always does (R102). -/
def Dev.passRuns (d : Dev) (e : Entry) : Bool := !d.bit F.JOB_SCHED_CFG_MODE || e.desc_ = d.pos.markDesc

/-- The line the bar is to issue next in its copy. -/
def Dev.dueLine (d : Dev) (b : Fin 12) : Option (LinePos × Entry) :=
  match d.curEntry b with
  | none => none
  | some (e, c) =>
    if (d.bar b).next < d.linesEff b e c && d.passRuns e then some (⟨e.seq, c, (d.bar b).next⟩, e) else none

/-- The count has reached the issue point of a print line: k less 4 µs at the rate (R67). -/
def Dev.reached (d : Dev) (b : Fin 12) (k : Nat) : Bool :=
  let s := d.bar b
  if d.descending then decide (s.count ≤ k * lineOne + 400 * s.inc) else decide (k * lineOne - 400 * s.inc ≤ s.count)

/-- The gate of R66 at a fire position: the mark is at or after it in the printing direction. -/
def Dev.gateAt (d : Dev) (f pitch : Nat) : Bool :=
  let lead := travel8 (d.get F.POS_SPEED_SPEED) (4000 + d.latency d.src) + d.get F.LTC_GATE_GUARD * pitch / 64
  let x := diff56 d.hwm8 f
  if d.descending then decide (x ≤ lead) else decide (-lead ≤ x)

/-- The gate of a line is open; a line whose J is not fixed has no fire position yet (R97). -/
def Dev.gateOpen (d : Dev) (b : Fin 12) (p : LinePos) (e : Entry) : Bool :=
  match d.firePos b e p with
  | some f => d.gateAt f e.pitch
  | none => false

/-- The bar's next line is held: the count is there, the gate is not (R66). -/
def Dev.held (d : Dev) (b : Fin 12) : Bool :=
  match d.dueLine b with
  | some (p, e) => d.reached b (d.kOf p) && !d.gateOpen b p e
  | none => false

/-- LTC_BUOY.LINES as it acts. -/
def Dev.buoyLines (d : Dev) : Nat := clampN 16 4096 (d.get F.LTC_BUOY_LINES)

/-- The buoy interval that the count is in. -/
def Dev.buoyStep (d : Dev) (count : Int) : Int := count / (d.buoyLines * lineOne)

/-- One CK9 cycle of a bar's clock (R61, R63 step 4, R66). -/
def Dev.clockCycle (d : Dev) (b : Fin 12) : Dev :=
  let s := d.bar b
  if !d.clocksRun || s.cur.isNone then d
  else if d.held b then
    if s.heldAt.isSome then d
    else (d.modBar b fun s => { s with heldAt := some d.now }).addSat (F.LTC_BAR_GATED_COUNT b) 1
  else
    let share := if s.corrN = 0 then 0 else s.corr / s.corrN
    let dir : Int := if d.descending then -1 else 1
    let was := match d.dueLine b with | some (p, _) => d.reached b (d.kOf p) | none => false
    let step (x : Int) (d : Dev) : Dev := d.modBar b fun s => { s with count := s.count + x }
    let free := step (dir * s.inc) d
    let wouldBe := match free.dueLine b with | some (p, _) => free.reached b (free.kOf p) | none => false
    let d := free.modBar b fun s => { s with count := s.count + share, corr := s.corr - share, corrN := s.corrN - 1 }
    let crosses := d.buoyStep (d.bar b).count ≠ d.buoyStep s.count
    let is_ := match d.dueLine b with | some (p, _) => d.reached b (d.kOf p) | none => false
    d.modBar b fun s => { s with moved := s.moved || (is_ && !wouldBe), cross := s.cross || crosses,
                                 heldAt := if was && d.printing then s.heldAt else none }

/-! ### Buoys (R62 to R65, R70) -/

/-- A buoy falls (R62). -/
def Dev.buoyDue (d : Dev) (b : Fin 12) : Bool :=
  let s := d.bar b
  let maxt := d.get F.LTC_BUOY_MAXT
  s.cross || (maxt ≠ 0 && decide (s.lastBuoy + maxt * 1000 ≤ d.now)) ||
    (decide (s.lastBuoy < d.pos.speedStart) &&
      (s.inc = 0 || (match s.heldAt with | some t => decide (t ≤ d.pos.speedPrev) | none => false)))

/-- The rate from the speed in the printing direction, capped at LTC_MAXRATE (R61, R63 step 3, R70). -/
def Dev.setRate (d : Dev) (b : Fin 12) (e : Entry) : Dev :=
  let sp := d.printSpeed
  let mx := d.get F.LTC_MAXRATE_HZ
  if mx * e.pitch < sp * 2 ^ 8 then
    let d := d.modBar b fun s => { s with inc := hzInc mx }
    let s := d.bar b
    let again := match s.overAt with | some t => decide (t + 1000000 ≤ d.now) | none => true
    if again then
      (d.modBar b fun s => { s with overAt := some d.now }).raise Ev.LINE_OVERRATE b.val none
        [b.val, (match d.dueLine b with | some (p, _) => d.kOf p | none => 0), rateHz sp e.pitch]
    else d
  else d.modBar b fun s => { s with inc := rateInc sp e.pitch }

/-- An error in 1/64 line, rounded half away from zero and saturating (R63 step 2). -/
def err64 (err : Int) : Int := clampI (-32767) 32767 (roundDiv err (2 ^ 26))

/-- The interval a correction is spread over, in CK9 cycles; none at rate 0 with MAXT off (R63 step 4). -/
def Dev.buoySpan (d : Dev) (b : Fin 12) : Option Nat :=
  let inc := (d.bar b).inc
  let maxt := d.get F.LTC_BUOY_MAXT
  if inc = 0 then (if maxt = 0 then none else some (maxt * 100))
  else
    let n := d.buoyLines * 2 ^ 32 / inc
    some (max 1 (if maxt = 0 then n else min n (maxt * 100)))

/-- The registration check of a buoy (R64). -/
def Dev.regCheck (d : Dev) (b : Fin 12) (err : Int) : Dev :=
  let e64 := err64 err
  let excess := decide ((d.get F.LTC_REG_LIMIT : Int) * 2 ^ 26 < err.natAbs)
  let d := (d.setI (F.LTC_BAR_REGERR_ERR b) e64).setB (F.LTC_BAR_STATUS_REGF b) excess
  let d := d.set (F.LTC_BAR_REGERR_MAX b) (max e64.natAbs (d.get (F.LTC_BAR_REGERR_MAX b)))
  if !excess then d
  else
    let d := d.addSat (F.LTC_BAR_BUOYS_FAULTS b) 1
    let w := [b.val, (match d.dueLine b with | some (p, _) => d.kOf p | none => 0), unsext 32 e64]
    if !d.printing then d
    else if d.bit F.LTC_REG_ACTION then (d.raise Ev.REG_FAULT b.val none w).devTrans .hold 0x02
    else d.raise Ev.REG_WARN b.val none w

/-- A buoy (R63). -/
def Dev.buoy (d : Dev) (b : Fin 12) : Dev :=
  match d.curEntry b with
  | none => d
  | some (e, c) =>
    match d.encLine b e c with
    | none => d
    | some enc =>
      let err := enc * 2 ^ 16 - (d.bar b).count
      let d := (d.add (F.LTC_BAR_BUOYS_COUNT b) 1).regCheck b err
      let d := d.setRate b e
      let d := match d.buoySpan b with
        | some n => d.modBar b fun s => { s with corr := clampI (-(2 ^ 28)) (2 ^ 28) err, corrN := n }
        | none => d.modBar b fun s => { s with corr := 0, corrN := 0 }
      d.modBar b fun s => { s with lastBuoy := d.now, cross := false }

/-- A start buoy: the count takes the encoder line position exactly (R65). -/
def Dev.startBuoy (d : Dev) (b : Fin 12) : Dev :=
  match d.curEntry b with
  | none => d
  | some (e, c) =>
    let d := d.set (F.LTC_BAR_PITCH_ACT_PITCH b) e.pitch
    match d.encLine b e c with
    | none => d
    | some enc =>
      let d := (d.add (F.LTC_BAR_BUOYS_COUNT b) 1).setRate b e
      let d := d.modDpx fun x => { x with posTx := none }
      let d := d.modBar b fun s => { s with count := enc * 2 ^ 16, corr := 0, corrN := 0, lastBuoy := d.now, heldAt := none }
      let due := match d.dueLine b with | some (p, _) => d.reached b (d.kOf p) | none => false
      d.modBar b fun s => { s with cross := false, moved := due }

/-! ### Strobe width and derating (R73, R74) -/

/-- The step for a head temperature, plus 1, from the step before: down only 2 °C below the step's TEMP. -/
def Dev.derFor (d : Dev) (b : Fin 12) (old t : Nat) : Nat :=
  let new := (List.range 4).foldl (fun a i => let tp := (d.derStep b i).1; if tp ≠ 0xFF ∧ tp ≤ t then i + 1 else a) 0
  let tp := (d.derStep b (old - 1)).1
  if new < old ∧ tp ≠ 0xFF ∧ tp < t + 2 then old else new

/-- Put the width in effect into STATUS. -/
def Dev.showWidth (d : Dev) (b : Fin 12) : Dev := d.set (F.LTC_BAR_STATUS_WIDTH_ACT b) (d.widthNow b)

/-- A change of step takes effect: STROBE_DERATED names the step plus 1 and the width (R87). DESIGN CHOICE (log 62): of word 0x28 the step
takes [31:16] and the width [15:0]. -/
def Dev.derApply (d : Dev) (b : Fin 12) (step line : Nat) : Dev :=
  let d := (d.modBar b fun s => { s with derStep := step }).set (F.LTC_BAR_STATUS_STEP b) step
  d.raise Ev.STROBE_DERATED b.val none [b.val, line, step * 2 ^ 16 + d.widthNow b]

/-- The head temperature of a bar has been reported: the step, from line L + LTC_DERATE.LINES while the bar has issued lines,
else at once (R74, R77). -/
def Dev.headTemp (d : Dev) (b : Fin 12) (t : Nat) : Dev :=
  let d := d.set (F.LTC_BAR_STATUS_HEAD_TEMP b) t
  if !d.modeIn [.idle, .ready, .print, .hold, .shuttle, .calibrate, .shadow] then d
  else
    let s := d.bar b
    let pend := match s.derAt.getLast? with | some (st, _) => st | none => s.derStep
    let new := d.derFor b pend t
    if new = pend then d
    else if s.lastLine.isSome && d.modeIn [.print, .shuttle, .hold] then
      d.modBar b fun s => { s with derAt := s.derAt ++ [(new, d.get (F.ZXL_BAR_WIRE_COUNT b) + d.get F.LTC_DERATE_LINES)] }
    else ((d.modBar b fun s => { s with derAt := [] }).derApply b new 0).showWidth b

/-! ### Direct strobe outputs (R78, R79) -/

/-- The outputs that are enabled and mapped to a bar, by the configuration in effect. -/
def Dev.stbOf (d : Dev) (b : Fin 12) : List (Fin 8) :=
  (List.finRange 8).filter fun n : Fin 8 =>
    let w := (d.effRd (Reg.LTC_STB_CFG n)).toNat
    w / 2 ^ 31 = 1 ∧ w / 2 ^ 16 % 16 = b.val

/-- WDOG of an output, as it acts, ns. -/
def Dev.stbWdogNs (d : Dev) (n : Fin 8) : Nat := clampN 10 50000 ((d.effRd (Reg.LTC_STB_CFG n)).toNat % 2 ^ 16) * 10

def Dev.modStb (d : Dev) (n : Fin 8) (f : Stb → Stb) : Dev := { d with stb := upd d.stb n f }

/-- The watchdog cuts an output that is high (R79). -/
def Dev.stbCut (d : Dev) (n : Fin 8) : Dev :=
  if d.stb[n].high && decide (d.stb[n].rose + d.stbWdogNs n ≤ d.now) then
    let d := d.modStb n fun s => { s with high := false }
    let d := (d.set ⟨Reg.LTC_STB_STATUS, n.val, 1⟩ 1).addSat (F.LTC_STB_CUTS_COUNT n) 1
    let b := (d.effRd (Reg.LTC_STB_CFG n)).toNat / 2 ^ 16 % 16
    d.raise Ev.STROBE_CUT b none [n.val, d.stb[n].line]
  else d

/-- The strobe of a bar ends on its outputs; where the watchdog's limit coincides, the watchdog wins. -/
def Dev.stbEnd (d : Dev) (b : Fin 12) : Dev :=
  (d.stbOf b).foldl (fun d n => (d.stbCut n).modStb n fun s => { s with high := false, riseAt := none }) d

/-- The outputs of a bar rise for line k, one cycle later where the strobe before it still ran (R68); a cut output stays low, and so do all
on the way to SAFE (R77). -/
def Dev.stbRise (d : Dev) (b : Fin 12) (k : Nat) (late : Bool) : Dev :=
  if d.toSafe then d
  else
    (d.stbOf b).foldl (fun d n =>
      if d.bit ⟨Reg.LTC_STB_STATUS, n.val, 1⟩ then d
      else d.modStb n fun _ =>
        if late then { high := false, rose := 0, riseAt := some (d.now + 10), line := k } else { high := true, rose := d.now, line := k }) d

/-- Outputs rise whose cycle at low has passed (R68). -/
def Dev.stbTick (d : Dev) : Dev :=
  { d with stb := updAll d.stb fun _ s =>
      match s.riseAt with
      | some t => if t ≤ d.now then { s with high := true, rose := t, riseAt := none } else s
      | none => s }

/-! ### Compare channels (R80 to R85) -/

def Dev.modCmp (d : Dev) (n : Fin 32) (f : Cmp → Cmp) : Dev := { d with cmp := upd d.cmp n f }

/-- MODE of a channel; PERIOD 0 makes mode 2 act as mode 1 (R83). DESIGN CHOICE (log 62): MODE 3, which R83 does not name, acts as 0. -/
def Dev.cmpMode (d : Dev) (n : Fin 32) : Nat :=
  let m := d.get (F.LTC_CMP_CFG_MODE n)
  if m = 2 then (if d.get (F.LTC_CMP_PERIOD_NM n) = 0 then 1 else 2) else if m = 3 then 0 else m

/-- BASE and LEN in effect. -/
def Dev.cmpRange (d : Dev) (n : Fin 32) : Nat × Nat :=
  (d.effGet (F.LTC_CMP_LIST_BASE n), min 16384 (d.effGet (F.LTC_CMP_LIST_LEN n)))

/-- A pool entry: LAST, DIR and position (R80); the low word acts since the write of the high one (R6). -/
def Dev.poolEntry (d : Dev) (i : Nat) : Bool × Bool × Nat :=
  let hi := (d.rd (Reg.LTC_CMP_POOL_HI i)).toNat
  (Nat.testBit hi 31, Nat.testBit hi 30, (d.effRd (Reg.LTC_CMP_POOL_LO i)).toNat + hi % 2 ^ 16 * 2 ^ 32)

/-- The compare coordinate (R82), in nm. -/
def Dev.cmpX (d : Dev) (n : Fin 32) : Nat :=
  if d.bit (F.LTC_CMP_CFG_COMP n) then
    let t := d.latency d.src + d.get (F.LTC_CMP_LEAD_LEAD n) * 10
    (((d.web8 : Int) + travel8 d.speedI t) % (fireMod : Int)).toNat / 2 ^ 8
  else d.web

/-- The position of entry i in pass m (R83). -/
def Dev.cmpPos (d : Dev) (n : Fin 32) (i m : Nat) : Nat :=
  ((d.poolEntry i).2.2 + (if d.cmpMode n = 2 then m * d.get (F.LTC_CMP_PERIOD_NM n) else 0)) % webMod

/-- An entry has been crossed in its direction at a coordinate: at or after its position (R82). -/
def crossed (desc : Bool) (x pos : Nat) : Bool := x = pos || (if desc then webAfter pos x else webAfter x pos)

/-- The next entry of a walk: its index and pass, or none where a mode 1 list ends. -/
def Dev.cmpNext (d : Dev) (n : Fin 32) (i m : Nat) : Option (Nat × Nat) :=
  let (base, len) := d.cmpRange n
  if (d.poolEntry i).1 || base + len ≤ i + 1 then (if d.cmpMode n = 2 then some (base, m + 1) else none)
  else some (i + 1, m)

/-- The modes in which crossings are evaluated (R77). -/
def Dev.cmpRuns (d : Dev) : Bool := d.modeIn [.idle, .ready, .print, .shuttle, .calibrate, .shadow]

/-- The WIDTH of a pulse, ns (R84). DESIGN CHOICE (log 62): values beyond 2 to 100,000 act as the nearer limit. -/
def Dev.cmpWidthNs (d : Dev) (n : Fin 32) : Nat := clampN 2 100000 (d.get (F.LTC_CMP_WIDTH_WIDTH n)) * 10

/-- The current entry is crossed: the coordinate was before it when last evaluated and is now at or after it (R82). -/
def Dev.cmpDue (d : Dev) (n : Fin 32) (x : Nat) : Bool :=
  let i := d.get (F.LTC_CMP_PTR_PTR n)
  let pos := d.cmpPos n i d.cmp[n].pass
  let dir := (d.poolEntry i).2.1
  d.bit (F.LTC_CMP_STATUS_ARMED n) && !d.bit (F.LTC_CMP_STATUS_DONE n) && !crossed dir d.cmp[n].x pos && crossed dir x pos

/-- Entries crossed in one evaluation: each moves the pointer; the count of crossed entries (R82, R84). -/
def Dev.cmpWalk (d : Dev) (n : Fin 32) (x : Nat) : Nat → Nat → Dev × Nat
  | 0, k => (d, k)
  | f + 1, k =>
      let i := d.get (F.LTC_CMP_PTR_PTR n)
      let m := d.cmp[n].pass
      if d.cmpDue n x then
        match d.cmpNext n i m with
        | some (i', m') => ((d.set (F.LTC_CMP_PTR_PTR n) i').modCmp n fun c => { c with pass := m' }).cmpWalk n x f (k + 1)
        | none => ((d.setB (F.LTC_CMP_STATUS_DONE n) true).raise Ev.CMP_LIST_DONE 15 none [n.val], k + 1)
      else (d, k)

/-- The entries of the list in effect: its range, up to LAST. -/
def Dev.cmpEntries (d : Dev) (n : Fin 32) : List Nat :=
  let (base, len) := d.cmpRange n
  let is_ := (List.range len).map (base + ·)
  is_.take ((is_.takeWhile fun i => !(d.poolEntry i).1).length + 1)

/-- How many passes of entry i have been crossed at a coordinate; without repetition 0 or 1 (R83). -/
def Dev.cmpPasses (d : Dev) (n : Fin 32) (x i : Nat) : Nat :=
  let (_, desc, pos) := d.poolEntry i
  if !crossed desc x pos then 0
  else if d.cmpMode n ≠ 2 then 1
  else
    let room := if desc then 2 ^ 47 - 1 - (pos + webMod - x % webMod) % webMod else (x + webMod - pos % webMod) % webMod
    room / d.get (F.LTC_CMP_PERIOD_NM n) + 1

/-- A list takes effect: the pointer goes to the first entry, over all passes, not yet crossed; those before it are skipped and counted
(R83). -/
def Dev.cmpArm (d : Dev) (n : Fin 32) : Dev :=
  let x := d.cmpX n
  let es := d.cmpEntries n
  let d := (d.wr (Reg.LTC_CMP_STATUS n) 0).modCmp n fun c => { c with pass := 0, x := x }
  if d.cmpMode n = 0 ∨ es = [] then d
  else
    let ps := es.map fun i => d.cmpPasses n x i
    let m := ps.foldl min (ps.headD 0)
    let at_ := (ps.takeWhile (· ≠ m)).length
    let done := d.cmpMode n = 1 && m = 1
    let d := (d.modCmp n fun c => { c with pass := m }).set (F.LTC_CMP_PTR_PTR n) (if done then es.getLastD 0 else es.getD at_ 0)
    let d := (d.setB (F.LTC_CMP_STATUS_ARMED n) true).set (F.LTC_CMP_STATUS_SKIPPED n) (min 1023 (m * es.length + at_))
    if done then (d.setB (F.LTC_CMP_STATUS_DONE n) true).raise Ev.CMP_LIST_DONE 15 none [n.val] else d

/-- A crossing that coincides with a switch is evaluated on the old list first: the entries crossed are owed to CMP_CROSSING (R82). -/
def Dev.cmpOwe (d : Dev) (n : Fin 32) : Dev :=
  if d.cmpRuns && d.cmpMode n ≠ 0 then
    let (d, k) := d.cmpWalk n (d.cmpX n) 16385 0
    d.modCmp n fun c => { c with owed := c.owed + k }
  else d

/-- The switch to a new LIST (R81, R82). -/
def Dev.cmpSwitch (d : Dev) (n : Fin 32) (v : Word) : Dev := ((d.cmpOwe n).effWr (Reg.LTC_CMP_LIST n) v).cmpArm n

/-- A pulse of a channel starts, or restarts at full width (R84). DESIGN CHOICE (log 62): COUNT counts pulses, not their restarts. -/
def Dev.cmpPulse (d : Dev) (n : Fin 32) (entries : Nat) : Dev :=
  let c := d.cmp[n]
  let d := d.addSat (F.LTC_CMP_STATUS_MERGED n) (entries - 1)
  let d := match c.pulse with
    | none => d.add (F.LTC_CMP_COUNT_PULSES n) 1
    | some _ =>
      let d := d.addSat (F.LTC_CMP_STATUS_OVERLAP n) 1
      let again := match c.overAt with | some t => decide (t + 1000000 ≤ d.now) | none => true
      if again then (d.modCmp n fun c => { c with overAt := some d.now }).raise Ev.CMP_OVERLAP 15 none [n.val] else d
  d.modCmp n fun c => { c with pulse := some (d.now + 10 + d.cmpWidthNs n) }

/-- TARGET of a channel, in effect since the last commit (R85). -/
def Dev.cmpTarget (d : Dev) (n : Fin 32) : Nat := d.effGet (F.LTC_CMP_CFG_TARGET n)

end Sys2Proof.Machine
end

