-- ==== Sys2Proof/Machine/ZxlMode.lean ====
section
/-!
DEFINITION. Two-phase changes of a bar's endpoint mode fields (spec/09_zixlink_protocol.md, R227 to R230).
-/
namespace Sys2Proof.Machine

def Dev.mchg (d : Dev) (b : Fin 12) : Option Mchg := d.zxl.mchg[b]

def Dev.setMchg (d : Dev) (b : Fin 12) (m : Option Mchg) : Dev :=
  { d with zxl := { d.zxl with mchg := d.zxl.mchg.set b m } }

/-- Show the outstanding change in MCHG and EPOCH.PEND. -/
def Dev.showMchg (d : Dev) (b : Fin 12) : Dev :=
  match d.mchg b with
  | none => (d.wr (Reg.ZXL_BAR_MCHG b) 0).set (F.ZXL_BAR_EPOCH_PEND b) 0
  | some m => ((d.set (F.ZXL_BAR_MCHG_STATE b) (if m.aborting then 2 else m.prepared.toNat)).set (F.ZXL_BAR_MCHG_L b) m.l).set
      (F.ZXL_BAR_EPOCH_PEND b) m.epoch

/-- Send a MODE frame on every lane of the bar (R228, R229). -/
def Dev.sendMode (d : Dev) (b : Fin 12) (kind l epoch : Nat) (abt : Bool) : Dev :=
  (d.lanesOf b).foldl (fun d n => d.emitOn n (.mode n.val b.val kind (l % 2 ^ 16) epoch abt)) d

/-- The first lane of a bar, for the event detail. -/
def Dev.laneFor (d : Dev) (b : Fin 12) : Nat := ((d.lanesOf b).head?.map (·.val)).getD 0

/-- The modes in which MODE frames are sent (R233). -/
def Dev.sendsMode (d : Dev) : Bool := d.modeIn [.boot, .idle, .calibrate, .ready, .hold, .print, .shuttle]

/-- The change is committed: the epoch counts, the fields are in effect. -/
def Dev.modeDone (d : Dev) (b : Fin 12) (m : Mchg) : Dev :=
  let d : Dev := { d with zxl := { d.zxl with epochOld := d.zxl.epochOld.set b d.now } }
  let d := (d.set (F.ZXL_BAR_EPOCH_EPOCH b) m.epoch).effWr (Reg.ZXL_BAR_EPSET b) m.vals
  (d.setMchg b none).showMchg b

/-- Every endpoint of the bar has acknowledged. -/
def Dev.modeAcked (d : Dev) (b : Fin 12) (m : Mchg) : Bool := (d.epsOf b).all fun e => m.acked.contains e.ep

/-- DEADLINE in ms and GUARD in lines, within their ranges (R237). -/
def Dev.mchgDeadline (d : Dev) : Nat := clampN 1 20 (d.get F.ZXL_PCFG_DEADLINE)
def Dev.mchgGuard (d : Dev) : Nat := clampN 64 4095 (d.get F.ZXL_PCFG_GUARD)

/-- A write of the bar's pending bank is in flight (R228). -/
def Dev.banking (d : Dev) (b : Fin 12) : Bool := d.zxl.cmds.any fun c => c.bank = some b.val

/-- Every pending bank has been written, or has drawn no response: PREPARE goes out, with L the later of k and the earliest line that leaves
the time for acknowledgement and abort (R227 to R229). -/
def Dev.modePrepare (d : Dev) (b : Fin 12) : Dev :=
  match d.mchg b with
  | some m =>
    if m.prepared || m.aborting || d.banking b then d
    else
      let w := d.get (F.ZXL_BAR_WIRE_COUNT b)
      let lines := d.issues b
      let early := w + (d.mchgDeadline * d.get F.LTC_MAXRATE_HZ + 999) / 1000 + d.mchgGuard + 64
      let l := if lines then max m.k early else m.k
      let m := { m with l := l, at_ := d.now, commit := !lines, prepared := true }
      let d := if lines && decide (m.k < l) then d.raise Ev.EP_MODE_LATE b none [d.laneFor b, l % 2 ^ 16, m.k % 2 ^ 16] else d
      let d := d.sendMode b (if lines then 1 else 2) l m.epoch false
      (d.setMchg b (some m)).showMchg b
  | none => d

/-- Start a change with target k (a wire line): the new values go to every endpoint's pending bank, then PREPARE (R227, R228). A bar without
endpoints takes the values at once, and so does a safety net in SHADOW, which sends no MODE frame (R233; its epochs are mirrored: R335). -/
def Dev.modeStart (d : Dev) (b : Fin 12) (vals : Word) (k : Nat) : Dev :=
  let m : Mchg := { vals := vals, l := k, epoch := (d.get (F.ZXL_BAR_EPOCH_EPOCH b) + 1) % 2 ^ 16, at_ := d.now, acked := [],
                    commit := !d.issues b, aborting := false, set_ := 0, k := k, prepared := false }
  if d.mode = .shadow then d.effWr (Reg.ZXL_BAR_EPSET b) vals
  else if (d.epsOf b).isEmpty then d.modeDone b m
  else
    let v := vals.toNat
    let d := (d.epsOf b).foldl (fun d e =>
      d.epCmd e.ep 2 epWave 0 [v % 16, v / 2 ^ 8 % 2 ^ 8, v / 2 ^ 16 % 2 ^ 8] (some b.val)) d
    ((d.setMchg b (some m)).showMchg b).modePrepare b

/-- A set changes the mode fields of a bar at wire line k: one change at a time, later ones wait in order (R227), and all wait in a mode that
sends no MODE frame (R233). -/
def Dev.modeChange (d : Dev) (b : Fin 12) (vals : Word) (k : Nat) : Dev :=
  if (d.mchg b).isSome || !(d.sendsMode || d.mode = .shadow) then
    { d with zxl := { d.zxl with mwait := upd d.zxl.mwait b fun l => l ++ [(k, vals)] } }
  else d.modeStart b vals k

/-- Start the next waiting change once none is outstanding. -/
def Dev.modeNext (d : Dev) (b : Fin 12) : Dev :=
  match d.mchg b, d.zxl.mwait[b] with
  | none, (k, v) :: r =>
    if d.sendsMode || d.mode = .shadow then ({ d with zxl := { d.zxl with mwait := d.zxl.mwait.set b r } } : Dev).modeStart b v k else d
  | _, _ => d

/-- An endpoint has acknowledged the epoch being prepared; without lines the last one brings COMMIT (R229). -/
def Dev.modeAck (d : Dev) (b : Fin 12) (ep : Nat) : Dev :=
  match d.mchg b with
  | some m =>
    if !m.prepared || m.aborting || m.acked.contains ep then d
    else
      let m := { m with acked := m.acked ++ [ep] }
      let d := d.setMchg b (some m)
      if m.commit && d.modeAcked b m then ((d.sendMode b 3 m.l m.epoch false).modeDone b m).modeNext b else d
  | none => d

/-- The line of a wire number fires: a prepared change whose L it is takes effect (R228). -/
def Dev.modeFired (d : Dev) (b : Fin 12) (wire : Nat) : Dev :=
  match d.mchg b with
  | some m => if m.prepared && !m.commit && !m.aborting && m.l = wire && d.modeAcked b m then (d.modeDone b m).modeNext b else d
  | none => d

/-- An acknowledgement is missing at the deadline: ABT on the bar's lanes; every bar on them is aborted (R230). -/
def Dev.modeAbort (d : Dev) (b : Fin 12) : Dev :=
  let ls := d.lanesOf b
  allBars.foldl (fun d x =>
    if ls.any fun n => (d.lanesOf x).contains n then
      match d.mchg x with
      | some m =>
        if m.aborting then d
        else
          let d : Dev := { d with zxl := { d.zxl with cmds := d.zxl.cmds.filter fun c => c.bank ≠ some x.val } }
          let d := if m.prepared then d.sendMode x (if m.commit then 2 else 1) m.l m.epoch true else d
          (d.setMchg x (some { m with aborting := true, at_ := d.now })).showMchg x
      | none => d
    else d) d

/-- The abort ends: EP_MODE_ABORTED, the staged fields take the values in effect, the next change starts (R230). -/
def Dev.modeAbortEnd (d : Dev) (b : Fin 12) : Dev :=
  match d.mchg b with
  | some m =>
    let miss := ((d.epsOf b).find? fun e => !m.acked.contains e.ep).map (·.ep)
    let d := d.raise Ev.EP_MODE_ABORTED b miss [d.laneFor b, m.l % 2 ^ 16, miss.getD 0]
    let d := d.wr (Reg.ZXL_BAR_EPSET b) (d.effRd (Reg.ZXL_BAR_EPSET b))
    ((d.setMchg b none).showMchg b).modeNext b
  | none => d

end Sys2Proof.Machine
end

