-- ==== Sys2Proof/Machine/Jobs.lean ====
section
/-!
DEFINITION. The schedule engine (spec/04_jobs.md, R88 to R104, R114): entries and jobs in the job store, the check, the walk of
each bar through the schedule, boundaries, completion, fetch and BREAK.
-/
namespace Sys2Proof.Machine

/-- The strobe width in effect goes to the bar's endpoints at a line where they hold another (R73, R225); never in SHADOW (R77). -/
def Dev.sendWidth (d : Dev) (b : Fin 12) (wire : Nat) : Dev :=
  let w := d.widthNow b
  if w = (d.bar b).epWidth || d.mode = .shadow then d
  else (d.broadcast b epStrobe (some wire) [w]).modBar b fun s => { s with epWidth := w }

/-! ### Reading entries (R93, R96) -/

/-- JOB_SCHED_SIZE as it acts (R95). -/
def Dev.schedSize (d : Dev) : Nat := ringSize 16 65536 (d.get F.JOB_SCHED_SIZE_ENTRIES)

/-- Entries from HEAD to TAIL. -/
def Dev.schedLeft (d : Dev) : Nat :=
  (d.get F.JOB_SCHED_TAIL_INDEX % d.schedSize + d.schedSize - d.get F.JOB_SCHED_HEAD_INDEX % d.schedSize) % d.schedSize

/-- The address in a pair whose high word holds 3 bits, as it took effect at the write of the high word (R6). -/
def Dev.addr35 (d : Dev) (lo hi : Nat) : Nat := (d.effRd lo).toNat + (d.effRd hi).toNat % 8 * 2 ^ 32

def Dev.schedAddr (d : Dev) (seq : Nat) : Nat :=
  d.addr35 Reg.JOB_SCHED_BASE_LO Reg.JOB_SCHED_BASE_HI + 32 * (seq % d.schedSize)

def Dev.jobAddr (d : Dev) (j : Nat) : Nat := d.addr35 Reg.JOB_TABLE_BASE_LO Reg.JOB_TABLE_BASE_HI + 64 * j

/-- A job-table entry from its words, when it is VALID. -/
def parseJob (w : Nat → Nat) : Option JobDesc :=
  let h := w 0
  if Nat.testBit h 31 then
    some { cls := bits h 30 1, down := bits h 29 1, across := bits h 28 1, planes := bits h 16 12, pitch := w 1, lines := w 2,
           width := bits (w 3) 0 17, ratio := bits (w 4) 0 24, stride := w 5, base := w 6 + bits (w 7) 0 3 * 2 ^ 32, tag := w 8 }
  else none

/-- Job-table entry j, when it lies in the table, can be read and is VALID (R93). -/
def Dev.readJob (d : Dev) (j : Nat) : Option JobDesc :=
  let a := d.jobAddr j
  if min 4096 (d.get F.JOB_TABLE_SIZE_JOBS) ≤ j || !d.readable a 64 then none else parseJob fun i => d.word32 (a + 4 * i)

/-- A schedule entry from its words and its job. A job of pitch 0 takes the LTC_PITCH in effect now (R69). -/
def Dev.parseEntry (d : Dev) (seq : Nat) (w : Nat → Nat) (j : JobDesc) : Entry :=
  let h := w 0
  { seq := seq, last := Nat.testBit h 30, anchor := bits h 28 2, dir := bits h 27 1, job := bits h 0 12,
    rep := w 1, gap := if d.bit F.JOB_SCHED_CFG_MODE then 0 else w 2, pos := w 3 + bits (w 4) 0 16 * 2 ^ 32, desc := j,
    pitch := if j.pitch = 0 then (d.effRd Reg.LTC_PITCH).toNat else j.pitch, j0 := none }

/-- Schedule entry `seq` with the job it names, when both can be read and are VALID. -/
def Dev.readEntry (d : Dev) (seq : Nat) : Option Entry :=
  let a := d.schedAddr seq
  if !d.readable a 32 then none
  else
    let h := d.word32 a
    if Nat.testBit h 31 then (d.readJob (bits h 0 12)).map fun j => d.parseEntry seq (fun i => d.word32 (a + 4 * i)) j else none

/-- SCHED: an entry and its job, as the ringmaster sends them at check and fetch (R335). -/
def Dev.schedWords (d : Dev) (seq : Nat) : List Nat :=
  let a := d.schedAddr seq
  let j := d.jobAddr (bits (d.word32 a) 0 12)
  seq :: ((List.range 8).map fun i => d.word32 (a + 4 * i)) ++ (List.range 16).map fun i => d.word32 (j + 4 * i)

def Dev.schedRecord (d : Dev) (seq : Nat) : Dev := d.mirrorSend 0xA1 (d.schedWords seq)

/-! ### The check (R103, R114) -/

/-- The bars of a job. -/
def JobDesc.bars (j : JobDesc) : List (Fin 12) := allBars.filter j.has

def JobDesc.ratioOf (j : JobDesc) (b : Fin 12) : Nat := bits j.ratio (2 * b.val) 2

/-- Rows of a plane: block rows, or bitmap lines (R89, R90). -/
def JobDesc.nrows (j : JobDesc) : Nat := if j.cls = 1 then j.lines else (srcLines j + 3) / 4

/-- The stride of R91 holds. -/
def JobDesc.strideOk (j : JobDesc) : Bool :=
  j.stride % 64 = 0 &&
    (if j.cls = 1 then decide ((j.width + 3) / 4 ≤ j.stride)
     else j.bars.all fun b => decide (maxRowBytes (blocksOf (srcWidth j)) (j.ratioOf b) ≤ j.stride))

/-- Bytes per print line of a bar's plane, in 1/16 byte (R114). -/
def JobDesc.lineBytes16 (j : JobDesc) (b : Fin 12) : Nat :=
  if !j.has b then 0
  else if j.cls = 1 then (j.width + 3) / 4 * 16
  else srcWidth j * (match j.ratioOf b with | 0 => 16 | 1 => 12 | 2 => 8 | _ => 6) / (1 + j.down)

/-- The demand of a list of jobs exceeds the RT reservation: 1.5 × ΣD × RATE against JOB_RT_RES (R114). -/
def Dev.overBudget (d : Dev) (js : List JobDesc) : Bool :=
  let sum := allBars.foldl (fun a b => a + js.foldl (fun m j => max m (j.lineBytes16 b)) 0) 0
  decide (32 * (d.get F.JOB_RT_RES_MBPS * 1000000) < 3 * sum * d.get F.JOB_BUDGET_RATE)

/-- A bar the Criow image configures. -/
def Dev.configured (d : Dev) (b : Fin 12) : Bool := Nat.testBit d.img.bars b

/-- A bar that a schedule may name: the image configures it and the map in use carries it (R103, R199). -/
def Dev.available (d : Dev) (b : Fin 12) : Bool := d.configured b && Nat.testBit (d.get F.ZXL_BAR_AVAIL_BARS) b

/-- The code of the first check an entry fails; 0 where it passes (R103). `before` are the jobs checked so far. -/
def Dev.checkEntry (d : Dev) (before : List JobDesc) (e : Entry) : Nat :=
  let j := e.desc
  let sh := d.bit F.JOB_SCHED_CFG_MODE
  if e.pitch < 0x7D000 then 2
  else if j.width = 0 || (j.bars.any fun b => d.configured b && decide (d.nozzles b < j.width)) then 3
  else if !j.strideOk then 4
  else if d.cap < j.base + j.bars.length * j.nrows * j.stride then 5
  else if j.bars.any fun b => !d.available b then 6
  else if d.overBudget (before ++ [j]) then 7
  else if 2 ≤ e.anchor || (if sh then e.anchor ≠ 1 || e.rep ≠ 1 else e.dir = 1) then 8
  else if j.lines = 0 then 9
  else 0

/-- Record a failing entry (R103). -/
def Dev.checkFail (d : Dev) (seq code : Nat) : Dev :=
  let d := ((d.set F.JOB_CHECK_RESULT 2).set F.JOB_CHECK_CODE code).set F.JOB_CHECK_INDEX (seq % d.schedSize)
  d.wr Reg.JOB_CHECK_SEQ (BitVec.ofNat 32 seq)

/-- Check the entry of a sequence number: the entry, or the code of its failure. -/
def Dev.judge (d : Dev) (before : List JobDesc) (seq : Nat) : Except Nat Entry :=
  match d.readEntry seq with
  | none => .error 1
  | some e => match d.checkEntry before e with | 0 => .ok e | c => .error c

/-- Check `n` entries from a sequence number: those that pass, or the first failure. -/
def Dev.judgeAll (d : Dev) : Nat → Nat → List Entry → Except (Nat × Nat) (List Entry)
  | 0, _, acc => .ok acc
  | n + 1, seq, acc =>
    match d.judge (acc.map (·.desc)) seq with
    | .ok e => d.judgeAll n (seq + 1) (acc ++ [e])
    | .error c => .error (seq, c)

/-- JOB_USE: the entries copied at a check or fetch that name a job and that HEAD has not passed (R94). -/
def Dev.useCount (d : Dev) (j : Nat) : Nat := (d.job.used.filter fun e => e.2 = j && decide (d.job.headSeq ≤ e.1)).length

/-- The entries that some bar has yet to complete, or whose copy its clock stands in. -/
def Dev.heldEntries (d : Dev) : List Entry :=
  d.job.entries.filter fun e => decide (d.job.headSeq ≤ e.seq) || allBars.any fun x => match (d.bar x).cur with | some (s, _) => s = e.seq | none => false

/-- HEAD moves to the entry of a sequence number (R95). -/
def Dev.setHead (d : Dev) (seq : Nat) : Dev :=
  let d := (d.set F.JOB_SCHED_HEAD_INDEX (seq % d.schedSize)).wr Reg.JOB_SCHED_SEQ (BitVec.ofNat 32 seq)
  { d with job := { d.job with headSeq := seq } }

/-- A job joins those checked (R114). -/
def addJob (l : List JobDesc) (j : JobDesc) : List JobDesc := if l.contains j then l else l ++ [j]

/-- A bar at rest before the first copy of a schedule. -/
def BarSt.fresh (s : BarSt) (first : Option (Nat × Nat)) : BarSt :=
  { count := 0, inc := 0, cur := first, scrFrom := first, derStep := s.derStep, lastBuoy := s.lastBuoy, overAt := s.overAt,
    rowB := s.rowB, issued := s.issued, setSeq := s.setSeq, gain := if s.gainNext.isEmpty then s.gain else none, firedAt := s.firedAt,
    wait := s.wait, epWidth := s.epWidth, lastK := s.lastK }

/-- The bar's registers of a schedule position (R117). `st` is STATE. -/
def Dev.showBar (d : Dev) (b : Fin 12) (e : Entry) (copy st : Nat) : Dev :=
  let d := (d.wr (Reg.JOB_BAR_ENTRY b) (BitVec.ofNat 32 e.seq)).wr (Reg.JOB_BAR_COPY b) (BitVec.ofNat 32 copy)
  (d.set (F.JOB_BAR_STATE_STATE b) st).set (F.JOB_BAR_STATE_JOB b) e.job

/-- The check of R103 for READY: the reason of its refusal (4 NO_SCHEDULE, 9 WRONG_SCHEDULE), or 0 with every entry copied. -/
def Dev.readyCheck (d : Dev) : Dev × Nat :=
  let n := d.schedLeft
  let head := d.job.headSeq
  if n = 0 then (d, 4)
  else
    match d.judgeAll n head [] with
    | .error (seq, c) => (d.checkFail seq c, 9)
    | .ok es =>
      let d := d.wr Reg.JOB_CHECK (BitVec.ofNat 32 (2 ^ 30))
      let d : Dev := { d with job := { d.job with entries := fixAnchors none es, nextSeq := head + n,
                                                  checked := es.foldl (fun l e => addJob l e.desc) [],
                                                  used := es.map fun e => (e.seq, e.job),
                                                  final := (es.find? fun e => e.last).map (·.seq) } }
      (es.foldl (fun d e => d.schedRecord e.seq) d, 0)

/-- The bars that the held entries name (R19). -/
def Dev.scheduledBars (d : Dev) : List (Fin 12) := allBars.filter fun b => d.heldEntries.any fun e => e.desc.has b

/-- Every bar at the first copy of the schedule, at entry to READY or SHADOW. -/
def Dev.schedStart (d : Dev) : Dev :=
  let first := d.job.entries.head?.map fun e => (e.seq, 0)
  let d : Dev := { d with bars := updAll d.bars fun _ s => s.fresh first, sys := { d.sys with schedDone := false } }
  d.barsOn.foldl (fun d b =>
    match d.job.entries.head? with
    | some e => (d.showBar b e 0 (if e.desc.has b then 1 else 2)).set (F.LTC_BAR_PITCH_ACT_PITCH b) e.pitch
    | none => d) d

/-! ### Completion (R95, R100) -/

/-- A bar has completed an entry: it is in a later one, or it has fired the schedule's last line. -/
def Dev.barPassed (d : Dev) (x : Fin 12) (seq : Nat) : Bool :=
  match (d.bar x).cur with
  | some (s, _) => decide (seq < s) || ((d.bar x).done && (match d.job.final with | some f => decide (seq ≤ f) | none => false))
  | none => true

/-- Entries that every bar has completed leave the ring in order: HEAD and SEQ move, JOB_ENTRY_DONE is raised, head counts are
persisted (R95, R174). The engine keeps its copies, to which a late set may still refer (R108). -/
def Dev.advanceHead (d : Dev) (b : Fin 12) : Dev :=
  d.job.entries.foldl (fun d e =>
    if e.seq = d.job.headSeq && d.barsOn.all fun x => d.barPassed x e.seq then
      ((d.setHead (e.seq + 1)).raise Ev.JOB_ENTRY_DONE b.val none [b.val, e.seq]).saveHeads min15
    else d) d

/-- The schedule is complete when every bar is: to READY with SCHEDULE_END, or remembered while HOLD has won (R19, R22). -/
def Dev.schedEnd (d : Dev) : Dev :=
  if !d.sys.schedDone && !d.job.entries.isEmpty && d.barsOn.all fun b => (d.bar b).done then
    let d := ({ d with sys := { d.sys with schedDone := true } } : Dev).saveHeads min15
    d.devTrans .ready 0x09
  else d

/-- TURNAROUND_SKIP at the end of a pass, with the lines skipped in it (R76). -/
def Dev.turnaround (d : Dev) (b : Fin 12) : Dev :=
  let s := d.bar b
  let line := match s.lastLine with | some p => d.kOf p | none => 0
  if s.skips = 0 then d
  else (d.modBar b fun s => { s with skips := 0 }).raise Ev.TURNAROUND_SKIP b.val none [b.val, line, s.skips]

/-- A bar has passed a copy's last line: it may be the last of the schedule. -/
def Dev.copyPassed (d : Dev) (b : Fin 12) (seq copy : Nat) : Dev :=
  if d.isLastCopy b seq copy && !(d.bar b).done then
    let d := ((d.turnaround b).modBar b fun s => { s with done := true }).set (F.JOB_BAR_STATE_STATE b) 3
    (d.advanceHead b).schedEnd
  else d

/-! ### Boundaries (R98, R99, R102) -/

/-- The lines of a copy that lie behind the true position plus 4 µs of travel: a count in printing order (R98). -/
def Dev.behind (d : Dev) (b : Fin 12) (e : Entry) (copy : Nat) : Nat :=
  match d.firePos b e ⟨e.seq, copy, 0⟩ with
  | none => 0
  | some f0 =>
    let x : Int := diff56 d.truePos f0 + travel8 d.speedI 4000
    let x := if e.desc_ && d.bit F.JOB_SCHED_CFG_MODE then -x else x
    if x ≤ 0 then 0 else min (e.lines copy) ((x.toNat + e.pitch - 1) / e.pitch)

/-- Lines that the bar skips at a copy's start buoy: those behind that are not committed (R98, R148). -/
def Dev.skipLines (d : Dev) (b : Fin 12) (e : Entry) (copy : Nat) : Dev :=
  if !e.has b copy then d
  else
    let hi := d.behind b e copy
    let lo := ((d.bar b).car.filter fun t => t.committed && t.pos.seq = e.seq && t.pos.copy = copy).length
    if hi ≤ lo then d
    else
      let isIn (p : LinePos) : Bool := p.seq = e.seq && p.copy = copy && decide (lo ≤ p.idx) && decide (p.idx < hi)
      let d := d.modBar b fun s =>
        { s with skip := some (lo, hi), next := if lo ≤ s.next then hi else s.next, car := s.car.filter fun t => !isIn t.pos,
                 starved := s.starved.filter fun p => !isIn p,
                 paused := s.paused && (match s.scr with | some p => !isIn p | none => true) }
      let d := if lo = 0 ∧ copy % 2 = 0 then d.startCopy b e.seq (copy / 2) else d
      let d := (d.addSat (F.JOB_BAR_SKIPPED_LINES b) (hi - lo)).addSat (F.LTC_BAR_GATED_COUNT b) (hi - lo)
      let d := d.raise Ev.JOB_LINES_SKIPPED b.val none [b.val, e.seq, copy / 2, hi - lo]
      if e.lines copy ≤ hi && lo = 0 then d.copyPassed b e.seq copy else d

/-- The unprinted distance before a copy, as STATE shows it until a line issues: the copy lies beyond the one before it. -/
def Dev.gapBefore (d : Dev) (prev : Option (Nat × Nat)) (e : Entry) (copy : Nat) : Bool :=
  match prev with
  | none => false
  | some (s, c) =>
    match d.entry s with
    | none => false
    | some p =>
      match p.j c, e.j copy with
      | some a, some j => decide (0 < diff56 j (a + p.lines c * p.pitch))
      | _, _ => false

/-- The bar takes the boundary to a copy: position, start buoy, skipped lines (R65, R98). -/
def Dev.takeCopy (d : Dev) (b : Fin 12) (seq copy : Nat) : Dev :=
  match d.entry seq with
  | none => d
  | some e =>
    let prev := (d.bar b).cur
    let d := d.modBar b fun s => { s with cur := some (seq, copy), next := 0, limit := none, skip := none, skips := 0 }
    let d := d.showBar b e (copy / 2) (if e.has b copy && !d.gapBefore prev e copy then 1 else 2)
    let d := if e.has b copy || copy % 2 = 1 then d else d.startCopy b seq (copy / 2)
    let d := (d.startBuoy b).skipLines b e copy
    d.advanceHead b

/-- Lines of the current copy that the bar will not print: JOB_TRUNCATED and their count (R99, R102). -/
def Dev.truncate (d : Dev) (b : Fin 12) (e : Entry) (copy at_ : Nat) : Dev :=
  let n := e.lines copy - at_
  if n = 0 then d
  else
    let beyond (p : LinePos) : Bool := p.seq = e.seq && p.copy = copy && decide (at_ ≤ p.idx)
    let d := d.modBar b fun s =>
      { s with limit := some at_, car := s.car.filter fun t => !beyond t.pos, starved := s.starved.filter fun p => !beyond p,
               paused := s.paused && (match s.scr with | some p => !beyond p | none => true),
               scr := match s.scr with
                 | some p => if p.lt ⟨e.seq, copy, e.lines copy - 1⟩ then some ⟨e.seq, copy, e.lines copy - 1⟩ else some p
                 | none => some ⟨e.seq, copy, e.lines copy - 1⟩ }
    (d.addSat (F.JOB_BAR_SKIPPED_LINES b) n).raise Ev.JOB_TRUNCATED b.val none [b.val, e.seq, copy / 2, n]

/-- The first line of a bar's current copy that is not committed, in printing order. -/
def Dev.firstUncommitted (d : Dev) (b : Fin 12) (e : Entry) (copy : Nat) : Nat :=
  let s := d.bar b
  s.after (s.next + (s.car.filter fun t => t.committed && t.pos.seq = e.seq && t.pos.copy = copy && decide (s.next ≤ t.pos.idx)).length)

/-- The next copy begins at or before the first uncommitted line of this one (R99, second case). -/
def Dev.overlapped (d : Dev) (b : Fin 12) (e : Entry) (copy : Nat) (n : Entry × Nat) : Option Nat :=
  let i := d.firstUncommitted b e copy
  if d.linesEff b e copy ≤ i ∨ (d.bar b).limit.isSome then none
  else
    match d.firePos b n.1 ⟨n.1.seq, n.2, 0⟩, d.firePos b e ⟨e.seq, copy, i⟩ with
    | some f, some g => if diff56 f g ≤ 0 then some i else none
    | _, _ => none

/-- The bar has done with its copy: the fire instant of its last line has passed, or, where it issues none, its clock has
reached the last line's count (R99, first case). -/
def Dev.copyOver (d : Dev) (b : Fin 12) (e : Entry) (u : Nat) : Bool :=
  let s := d.bar b
  if d.linesEff b e u = 0 ∧ !e.has b u then
    (if d.descending then decide (s.count ≤ 0) else decide ((e.lines u - 1 : Nat) * lineOne ≤ s.count))
  else decide (d.linesEff b e u ≤ s.next) && s.issued.all (·.fired)

/-- JOB_BOUNDARY in a forward schedule: truncation where the next copy overlaps, then the boundary itself. -/
def Dev.boundary (d : Dev) (b : Fin 12) : Dev :=
  match d.curEntry b with
  | none => d
  | some (e, c) =>
    if !d.modeIn [.print, .shadow] || d.bit F.JOB_SCHED_CFG_MODE then d
    else
      let nx := (d.nextCopy b e.seq c).bind fun t => (d.entry t.1).map fun n => (n, t.2)
      let d := match nx with
        | some n => match d.overlapped b e c n with
          | some i => d.truncate b e c i
          | none => d
        | none => d
      if !d.copyOver b e c then d
      else
        match nx with
        | some n => d.takeCopy b n.1.seq n.2
        | none => if e.has b c then d else d.copyPassed b e.seq c

/-- The bar's boundary to the next copy of a forward schedule is due, with its start buoy (R65, R99). -/
def Dev.boundaryDue (d : Dev) (b : Fin 12) : Bool :=
  match d.curEntry b with
  | none => false
  | some (e, c) => d.modeIn [.print, .shadow] && !d.bit F.JOB_SCHED_CFG_MODE && d.copyOver b e c && (d.nextCopy b e.seq c).isSome

/-- The mark has turned (R50): each bar reports the lines its pass did not reach, empties its carousel and goes on to the next
pass with a start buoy (R65, R102, R156). -/
def Dev.turn (d : Dev) : Dev :=
  if !d.pos.turned then d
  else
    let d : Dev := { d with pos := { d.pos with turned := false } }
    d.barsOn.foldl (fun d b =>
      match d.curEntry b with
      | none => d
      | some (e, c) =>
        let s := d.bar b
        let d := if d.linesEff b e c ≤ s.next then d else d.truncate b e c s.next
        let d := d.turnaround b
        let d := d.discard b
        match (d.nextCopy b e.seq c) with
        | some (q, m) => (d.modBar b fun s => { s with scr := none, scrFrom := some (q, m) }).takeCopy b q m
        | none => d.copyPassed b e.seq c) d

/-! ### Fetch and BREAK (R100, R101) -/

/-- The last copy of the last held entry has been started by some bar, and the schedule goes on after it. -/
def Dev.fetchDue (d : Dev) : Bool :=
  match d.job.entries.getLast? with
  | none => false
  | some e =>
    d.mode != .shadow && d.job.final.isNone && e.rep ≠ 0 &&
      allBars.any fun b => match (d.bar b).started with | some (s, c) => e.seq < s || (s = e.seq && e.rep ≤ c + 1) | none => false

/-- Fetch and check the next entry, or end the schedule after the current one. -/
def Dev.fetch (d : Dev) : Dev :=
  match d.job.entries.getLast? with
  | none => d
  | some e =>
    let stop (d : Dev) : Dev := { d with job := { d.job with final := some e.seq } }
    let seq := e.seq + 1
    if d.job.headSeq + d.schedLeft ≤ seq then stop (d.raise Ev.SCHED_UNDERRUN 15 none [15, e.seq])
    else
      match d.judge d.job.checked seq with
      | .error c => stop ((d.checkFail seq c).raise Ev.SCHED_ENTRY_BAD 15 none [15, seq, c])
      | .ok n =>
        let es := fixAnchors none (d.job.entries ++ [n])
        let job := { d.job with entries := es, checked := addJob d.job.checked n.desc, nextSeq := seq + 1,
                                used := d.job.used ++ [(seq, n.job)], final := if n.last then some seq else none }
        ({ d with job := job } : Dev).schedRecord seq

/-- The schedule may have ended for bars that already passed their last line. -/
def Dev.recheckEnd (d : Dev) : Dev :=
  d.barsOn.foldl (fun d b =>
    match d.curEntry b with
    | some (e, c) => if d.copyOver b e c && (d.bar b).issued.isEmpty && d.printing then d.copyPassed b e.seq c else d
    | none => d) d

/-- The copy that a bar starts with its next step: by screening its first line, or by a boundary to a copy without its plane (R100). -/
def Dev.startsNext (d : Dev) (b : Fin 12) (screen : Bool) : Option (Nat × Nat) :=
  if screen then
    match d.nextScr b with
    | some p => if p.idx = 0 && p.copy % 2 = 0 then some (p.seq, p.copy / 2) else none
    | none => none
  else
    match d.curEntry b with
    | some (e, c) =>
      (d.nextCopy b e.seq c).bind fun n => (d.entry n.1).bind fun x => if n.2 % 2 = 0 && !x.has b n.2 then some (n.1, n.2 / 2) else none
    | none => none

/-- BREAK: the entry in progress ends after the highest copy any bar has started, or starts in this cycle (`more`); entries that follow it
move up (R97, R100). -/
def Dev.breakSched (d : Dev) (more : List (Nat × Nat)) : Dev :=
  let started := (allBars.filterMap fun b => (d.bar b).started) ++ more
  match started.foldl (fun (m : Option (Nat × Nat)) x =>
      match m with
      | none => some x
      | some y => if y.1 < x.1 ∨ (y.1 = x.1 ∧ y.2 < x.2) then some x else some y) none with
  | none => d
  | some (seq, c) =>
    match d.entry seq with
    | none => d
    | some e =>
      if e.rep ≠ 0 ∧ e.rep ≤ c + 1 then d
      else
        let es := d.job.entries.map fun x =>
          if x.seq = seq then { x with rep := c + 1 } else if seq < x.seq ∧ x.anchor ≠ 1 then { x with j0 := none } else x
        let d : Dev := { d with job := { d.job with entries := fixAnchors none es } }
        let d := if d.fetchDue then d.fetch else d
        d.recheckEnd

/-- HEAD moves past every entry that any bar has started; the engine holds nothing (R104). -/
def Dev.schedStop (d : Dev) (move : Bool) : Dev :=
  let top := allBars.foldl (fun m b => match (d.bar b).started with | some (s, _) => max m (s + 1) | none => m) d.job.headSeq
  let d := if move && decide (d.job.headSeq < top) then d.setHead top else d
  let d := allBars.foldl (fun (d : Dev) b => d.turnaround b) d
  let d := allBars.foldl (fun d b => (d.discard b).set (F.JOB_BAR_STATE_STATE b) 0) d
  { d with bars := updAll d.bars fun _ s => s.fresh none, job := { d.job with entries := [], checked := [], final := none },
           sys := { d.sys with schedDone := false } }

end Sys2Proof.Machine
end

