-- ==== Sys2Proof/Machine/Sets.lean ====
section
/-!
DEFINITION. Settings sets (spec/04_jobs.md, R107 to R111): capture, the line k of each bar, late sets, application in order,
rollback, and the end of printing. Camera and lamp fields are handed on in Vis.lean and Lmp.lean.
-/
namespace Sys2Proof.Machine

/-! ### Whose register it is -/

/-- The bar of whose twelve groups of registers, each of one stride, an address lies in one. -/
def inBank (a base stride : Nat) : Option (Fin 12) :=
  if base ≤ a ∧ (a - base) / stride < 12 then some (barOf ((a - base) / stride)) else none

/-- The bar of a register that each bar has: the address is that register of one bar. -/
def inBars (a base stride : Nat) : Option (Fin 12) := if (a - base) % stride = 0 then inBank a base stride else none

/-- The bar a staged register belongs to; none for those of no bar, of every bar, of a lamp module or of a camera port. -/
def barOfReg (a : Nat) : Option (Fin 12) :=
  match a / 0x100000 with
  | 6 => if 0x600400 ≤ a then none else inBank a 0x600100 0x40
  | 9 => if 0x901000 ≤ a then inBank a 0x901000 0x400 else inBank a 0x900100 0x40
  | 10 => inBank a 0xA00100 0x20
  | 11 => inBank a 0xB01200 0x20
  | _ => none

/-- A staged register of a lamp module, level table included, or of a camera port or stream. -/
def isLampReg (a : Nat) : Bool := a / 0x100000 = 14 || decide (0x14000000 ≤ a ∧ a < 0x15000000)
def isCamReg (a : Nat) : Bool := a / 0x100000 = 12

/-- The compare channel whose LIST a register is. -/
def cmpListReg (a : Nat) : Option (Fin 32) :=
  if 0x600800 ≤ a ∧ a < 0x600C00 ∧ a % 32 = 4 then some ⟨(a - 0x600800) / 32 % 32, Nat.mod_lt _ (by decide)⟩ else none

/-- The fields of a set that belong to a bar, at the place where the bar's value is kept. -/
def SetRec.ofBar (s : SetRec) (b : Fin 12) : List (Nat × Word) :=
  s.fields.filterMap fun f =>
    if f.1 = Reg.LTC_SHU_ALIGN then some (alignAt b, f.2)
    else if barOfReg f.1 = some b then some f else none

/-- Bits of a register whose change makes a rollback: screening fields, and the line-assembly fields of R165. -/
def rollMask (a : Nat) : Nat :=
  match a / 0x100000 with
  | 9 => 0xFFFFFFFF
  | 10 => if a % 0x20 = 0 then 0x72 else 0xFFFFFFFF
  | _ => 0

/-! ### What takes effect with a value -/

/-- The width of a bar changed outside printing: EP_STROBE at the next wire line (R73, R225). -/
def Dev.widthChanged (d : Dev) (b : Fin 12) : Dev := (d.showWidth b).sendWidth b (d.get (F.ZXL_BAR_WIRE_COUNT b) + 1)

/-- Put the value of a bar's field into effect at once: in IDLE and CALIBRATE, for a bar that issues no lines, at the end of
printing (R107, R110). -/
def Dev.fieldNow (d : Dev) (b : Fin 12) (a : Nat) (v : Word) : Dev :=
  let wire := d.get (F.ZXL_BAR_WIRE_COUNT b) + 1
  if a = Reg.ZXL_BAR_EPSET b then d.modeChange b v wire
  else
    let old := d.effRd a
    let d := (d.effWr a v).modBar b fun s => { s with tl := s.tl.filter fun t => t.2.1 ≠ a }
    if a = Reg.LTC_BAR_STROBE b then d.widthChanged b
    else if a = Reg.SCR_BAR_CFG b then
      if (old.toNat ^^^ v.toNat) &&& 0x30 = 0 then d else d.modBar b fun s => { s with gain := none, gainNext := [] }
    else if a = Reg.NOZ_BAR_CFG b then
      let f := F.NOZ_BAR_CFG_OUT_BANK b
      if f.of old = f.of v then d else d.sendMask b wire (d.bankChange b (f.of old) (f.of v))
    else d

/-- The LISTs of a set take effect, each unless a set with a higher number has applied it (R81, R82, R109). -/
def Dev.setLists (d : Dev) (s : SetRec) : Dev :=
  s.fields.foldl (fun d f =>
    match cmpListReg f.1 with
    | some n => if d.newest f.1 s.seq then (d.cmpSwitch n f.2).noteField f.1 s.seq else d
    | none => d) d

def SetRec.hasList (s : SetRec) : Bool := s.fields.any fun f => (cmpListReg f.1).isSome

/-- The anchor of a set's LISTs, which belong to no bar, has come (R81; DEDUCED, log 62): capture with KIND 0; the web coordinate at or
after the anchor, in the printing direction, but not in HOLD (R110); the first bar's boundary to the entry. -/
def Dev.listDue (d : Dev) (s : SetRec) : Bool :=
  s.hasList && !s.cmpDone &&
    (match s.kind with
     | 1 => d.mode != .hold && !(if d.descending then webAfter d.web s.anchor else webAfter s.anchor d.web)
     | 2 => (d.printing || d.mode = .shadow) && d.barsOn.any fun b =>
         match (d.bar b).cur with | some (q, _) => decide (seqNear d.job.headSeq s.anchor ≤ q) | none => false
     | _ => true)

def Dev.modSet (d : Dev) (seq : Nat) (f : SetRec → SetRec) : Dev :=
  { d with job := { d.job with sets := d.job.sets.map fun s => if s.seq = seq then f s else s } }

def Dev.set? (d : Dev) (seq : Nat) : Option SetRec := d.job.sets.find? fun s => s.seq = seq

/-- SYS_COMMIT_STATUS.PENDING. -/
def Dev.showPending (d : Dev) : Dev := d.set F.SYS_COMMIT_STATUS_PENDING d.job.sets.length

/-- The bars a set still has to apply on. -/
def Dev.setOpen (d : Dev) (s : SetRec) : List (Fin 12) := d.barsOn.filter fun b => !Nat.testBit s.applied b

/-- A set changes a bar's mode fields, and their change has not begun. -/
def SetRec.modeLeft (s : SetRec) (b : Fin 12) : Bool :=
  !Nat.testBit s.modeOn b && s.fields.any fun f => f.1 = Reg.ZXL_BAR_EPSET b

/-- A set leaves once every bar has it, and has fired the line it applies from (R107, R445). -/
def Dev.dropSets (d : Dev) : Dev :=
  let going (s : SetRec) : Bool := (d.barsOn.any fun b => s.modeLeft b && Nat.testBit s.applied b && (s.lines[b]).isSome) ||
    (s.hasList && !s.cmpDone) || !(d.setOpen s).isEmpty || d.bars.toList.any fun b => b.wait.contains s.seq || b.reach.any fun r => r.1 = s.seq
  ({ d with job := { d.job with sets := d.job.sets.filter going } } : Dev).showPending

/-- A mode change of the bar is outstanding or waits (R227). -/
def Dev.modeOpen (d : Dev) (b : Fin 12) : Bool := (d.mchg b).isSome || !d.zxl.mwait[b].isEmpty

/-- A set is in effect on a bar: JOB_BAR_SET. -/
def Dev.setIn (d : Dev) (b : Fin 12) (seq : Nat) : Dev :=
  let d := d.modBar b fun s => { s with setSeq := max s.setSeq seq, wait := s.wait.filter fun x => x ≠ seq }
  d.set (F.JOB_BAR_SET_SEQ b) (d.bar b).setSeq

/-- Sets that waited for a mode change are in effect once none is outstanding. -/
def Dev.setsIn (d : Dev) (b : Fin 12) : Dev :=
  if d.modeOpen b || (d.bar b).wait.isEmpty then d else ((d.bar b).wait.foldl (fun (d : Dev) q => d.setIn b q) d).dropSets

/-- A set has come to its line on a bar; one with mode fields is in effect when the change is. -/
def Dev.setArrives (d : Dev) (b : Fin 12) (seq : Nat) : Dev :=
  let mode := match d.set? seq with | some s => s.fields.any fun f => f.1 = Reg.ZXL_BAR_EPSET b | none => false
  if mode && d.modeOpen b then d.modBar b fun s => { s with wait := s.wait ++ [seq] } else d.setIn b seq

/-- Note that a set has been handed to a bar. -/
def Dev.setHanded (d : Dev) (b : Fin 12) (seq : Nat) : Dev := d.modSet seq fun s => { s with applied := s.applied ||| 2 ^ b.val }

/-- The LISTs of a set take effect once. -/
def Dev.listsOnce (d : Dev) (s : SetRec) : Dev :=
  if s.cmpDone then d else (d.setLists s).modSet s.seq fun t => { t with cmpDone := true }

/-- Every field of a set that belongs to a bar, at once; but for a mode change that has begun. -/
def Dev.applyAtOnce (d : Dev) (b : Fin 12) (s : SetRec) : Dev :=
  let d := d.modSet s.seq fun t => { t with modeOn := t.modeOn ||| 2 ^ b.val }
  let d := ((s.ofBar b).filter fun f => f.1 ≠ Reg.ZXL_BAR_EPSET b || s.modeLeft b).foldl (fun d f => if d.newest f.1 s.seq then (d.fieldNow b f.1 f.2).noteField f.1 s.seq else d) d
  (((d.modBar b fun t => { t with arrived := t.arrived ++ [s.seq] }).setHanded b s.seq).setArrives b s.seq).dropSets

/-- The issue count that a line of a bar will take (R210). -/
def Dev.wireAt (d : Dev) (b : Fin 12) (p : LinePos) : Nat :=
  d.get (F.ZXL_BAR_WIRE_COUNT b) + (match (d.bar b).lastLine with
    | some q => d.printsBetween b q p
    | none => match d.nextLineFrom b (d.job.entries.length + 1) (d.bar b).cur with | some q => 1 + d.printsBetween b q p | none => 1)

/-- The change of a bar's mode fields by a set begins, for its line, unless a set with a higher number has changed them (R109, R227). -/
def Dev.modeFrom (d : Dev) (b : Fin 12) (s : SetRec) (p : LinePos) : Dev :=
  if !s.modeLeft b then d
  else
    let d := d.modSet s.seq fun t => { t with modeOn := t.modeOn ||| 2 ^ b.val }
    match s.fields.find? fun f => f.1 = Reg.ZXL_BAR_EPSET b with
    | some f => if d.newest f.1 s.seq then (d.noteField f.1 s.seq).modeChange b f.2 (d.wireAt b p) else d
    | none => d

/-- While a bar issues lines, the mode changes of its pending sets begin as soon as their lines are known and lie no more than 32,767 lines
ahead, in the order of those lines (R107, R109, R211, R227). -/
def Dev.modesDue (d : Dev) (b : Fin 12) : Dev :=
  if !d.issues b then d
  else
    let l := d.job.sets.filterMap fun s =>
      match s.lines[b] with
      | some k => if s.modeLeft b && decide (d.wireAt b k ≤ d.get (F.ZXL_BAR_WIRE_COUNT b) + 32767) then some (s, k) else none
      | none => none
    (l.mergeSort fun x y => x.2.lt y.2 || (x.2 = y.2 && decide (x.1.seq ≤ y.1.seq))).foldl (fun (d : Dev) x => d.modeFrom b x.1 x.2) d

/-- A change of GAIN_BANK or GAIN_EN from a line on: its load is due for that line; changes that fell away need none (R109, R140). -/
def Dev.gainFrom (d : Dev) (b : Fin 12) (p : LinePos) (changes : Bool) : Dev :=
  d.modBar b fun s =>
    let l := s.gainNext.filter fun x => s.tl.any fun t => t.2.1 = Reg.SCR_BAR_CFG b && t.1 = x.1
    if changes then { s with gainNext := (l.filter fun x => x.1.lt p) ++ [(p, none)] ++ l.filter fun x => p.lt x.1 } else { s with gainNext := l }

/-- Every field of a set that belongs to a bar, from a line: screened lines after the last committed one are rolled back when a
screening or line-assembly field changes, and a replay starts again (R109, R152, R154, R165). -/
def Dev.applyFrom (d : Dev) (b : Fin 12) (s : SetRec) (p : LinePos) : Dev :=
  let fs := (s.ofBar b).filter fun f => d.newest f.1 s.seq
  let changes := fs.any fun f => ((d.valAt b f.1 p).toNat ^^^ f.2.toNat) &&& rollMask f.1 ≠ 0
  let gains := fs.any fun f => f.1 = Reg.SCR_BAR_CFG b && ((d.valAt b f.1 p).toNat ^^^ f.2.toNat) &&& 0x30 ≠ 0
  let screened := (match (d.bar b).scr with | some q => p.le q | none => false) || (d.bar b).replaying
  let d := fs.foldl (fun d f =>
    if f.1 = Reg.ZXL_BAR_EPSET b then (if s.kind = 0 && !d.issues b then d.modeFrom b s p else d)
    else d.addTl b p f.1 f.2 s.seq) d
  let d := d.gainFrom b p gains
  let d := if changes && screened then d.rollback b s.seq else d
  ((d.modBar b fun t => { t with reach := t.reach ++ [(s.seq, p)] }).setHanded b s.seq).showPending

/-- A line has fired on a bar: the sets whose line k it is, or whose line lies before it, have reached what follows the bar (R264, R293). -/
def Dev.lineReaches (d : Dev) (b : Fin 12) (p : LinePos) : Dev :=
  let got := ((d.bar b).reach.filter fun r => r.2.le p).map (·.1)
  if got.isEmpty then d
  else
    let d := d.modBar b fun t => { t with arrived := t.arrived ++ got, reach := t.reach.filter fun r => !r.2.le p }
    (got.foldl (fun (d : Dev) q => d.setArrives b q) d).dropSets

/-! ### The line k of a bar (R107, R108) -/

/-- The first line beyond the commit horizon. -/
def Dev.beyondHorizon (d : Dev) (b : Fin 12) : Option LinePos :=
  match (d.bar b).lastLine with
  | some p => d.printLine b (d.horizon + 1) p
  | none => ((d.nextLineFrom b (d.job.entries.length + 1) (d.bar b).cur).bind (d.onward b false)).bind (d.printLine b d.horizon)

/-- The bar issues no lines at the moment: its plane is absent, or it is in a gap (R110). -/
def Dev.idleBar (d : Dev) (b : Fin 12) : Bool := (d.bar b).cur.isNone || d.get (F.JOB_BAR_STATE_STATE b) ≠ 1

/-- The copy of an entry that is in progress a distance after J of its copy 0 (2^-8 nm): the last that begins there or before. -/
def Entry.copyAt (e : Entry) (x : Nat) : Nat :=
  let len := max 1 e.copyLen
  let part (lo ins : Nat) (best : Nat) (hi : Option Nat) : Nat :=
    if lo * len + ins ≤ x then (match hi with | some h => min h ((x - ins) / len) | none => (x - ins) / len) else best
  let (lo, ins, best) := (e.bands.filter fun y => y.ins ≠ 0).foldl (fun (t : Nat × Nat × Nat) y =>
    (y.copy + 1, t.2.1 + y.ins, part t.1 t.2.1 t.2.2 (some y.copy))) (0, 0, 0)
  part lo ins best none

/-- The first line of a bar's bands in an entry at or after an anchor. -/
def Dev.anchorBand (d : Dev) (b : Fin 12) (e : Entry) (anchor : Nat) : Option LinePos :=
  (e.bands.filter fun y => y.bar = b.val).foldl (fun (r : Option LinePos) y =>
    match r, d.firePos b e ⟨e.seq, 2 * y.copy + 1, 0⟩ with
    | none, some f0 =>
      let x := diff56 (anchor * 2 ^ 8) f0
      let i := if x ≤ 0 then 0 else (x.toNat + e.pitch - 1) / max 1 e.pitch
      if i < y.n then some ⟨e.seq, 2 * y.copy + 1, i⟩ else none
    | r, _ => r) none

/-- Where in an entry the first line at or after a web coordinate lies: none when the entry ends before it, or J is open. A bar without a
plane has no line there, but its clock passes the place of one (R92, R110). -/
def Dev.anchorIn (d : Dev) (b : Fin 12) (e : Entry) (anchor : Nat) : Option (Option LinePos) :=
  match d.firePos b e ⟨e.seq, 0, 0⟩ with
  | none => none
  | some f0 =>
    let x := diff56 (anchor * 2 ^ 8) f0
    let x := if e.desc_ then -x else x
    if x ≤ 0 then some (some ⟨e.seq, 0, 0⟩)
    else
      let n := x.toNat
      let m := e.copyAt n
      let i := (n - (m * e.copyLen + e.insBefore m) + e.pitch - 1) / max 1 e.pitch
      let p : LinePos := if i < e.desc.lines then ⟨e.seq, 2 * m, i⟩ else ⟨e.seq, 2 * (m + 1), 0⟩
      let p := if e.hasCopy (p.copy / 2) then some p else none
      match p, d.anchorBand b e anchor with
      | some p, some q => some (some (if q.lt p then q else p))
      | some p, none => some (some p)
      | none, q => some q

/-- The first line of a bar at or after an anchor, over the held entries; none while a J it needs is open (R97). -/
def Dev.anchorLine (d : Dev) (b : Fin 12) (anchor : Nat) : List Entry → Option LinePos
  | [] => none
  | e :: r =>
    match d.anchorIn b e anchor with
    | none => none
    | some (some p) => some p
    | some none => match d.anchorLine b anchor r with
      | some p => some p
      | none => if r.isEmpty then (d.nextLine b ⟨e.seq, if e.rep = 0 then 0 else 2 * (e.rep - 1), e.desc.lines - 1⟩) else none

/-- The line k that a set names for a bar now, if it can be found. -/
def Dev.lineOfSet (d : Dev) (b : Fin 12) (s : SetRec) : Option LinePos :=
  match s.kind with
  | 1 => d.anchorLine b s.anchor d.job.entries
  | 2 => some ⟨seqNear d.job.headSeq s.anchor, 0, 0⟩
  | _ => d.beyondHorizon b

/-- The line k of a set that a bar has passed: for an anchor before the mark, a line that has not issued since the last entry to PRINT
or SHUTTLE gives way to the first line issued since, or to the next one where none has (R108). -/
def Dev.lateFrom (d : Dev) (b : Fin 12) (s : SetRec) (k : LinePos) : LinePos :=
  if s.kind ≠ 1 ∨ !webAfter (d.pos.hwm / 2 ^ 24) s.anchor then k
  else
    match (d.bar b).firstLine, (d.bar b).lastLine with
    | some f, _ => if k.lt f then f else k
    | none, some p => if k.le p then (d.nextLine b p).getD k else k
    | none, none => k

/-- Find the lines of a set where it has none, and move those inside the horizon to the first line beyond it: SET_LATE once per
set, with the bars and the largest shortfall; an anchor before the mark is late on every bar (R108). The place of a line that the bar does
not print is not moved (R110). -/
def Dev.findLines (d : Dev) (seq : Nat) : Dev :=
  match d.set? seq with
  | none => d
  | some s =>
    let past := s.kind = 1 && d.printing && webAfter (d.pos.hwm / 2 ^ 24) s.anchor
    let (s, mask, short) := (d.setOpen s).foldl (fun (acc : SetRec × Nat × Nat) b =>
      let (s, mask, short) := acc
      match s.lines[b] with
      | some _ => acc
      | none =>
        match d.lineOfSet b s with
        | none => acc
        | some k =>
          let real := match d.entry k.seq with | some e => e.has b k.copy | none => true
          let here := ({ s with lines := s.lines.set b (some k) }, if past then mask + 2 ^ b.val else mask, short)
          match d.beyondHorizon b with
          | some h =>
            if s.kind ≠ 0 && real && k.lt h then
              ({ s with lines := s.lines.set b (some h) }, mask + 2 ^ b.val, max short (d.linesBetween b (d.lateFrom b s k) h))
            else here
          | none => here) (s, 0, 0)
    let d := d.modSet seq fun _ => { s with lateBars := s.lateBars ||| mask }
    if mask ≠ 0 && s.lateBars = 0 then d.raise Ev.SET_LATE 15 none [15, seq % 2 ^ 16, mask, max 1 short] else d

/-- The pending sets find the lines that J, fixed at entry to PRINT, or an entry lately fetched gives them (R97, R107). -/
def Dev.findAllLines (d : Dev) : Dev := d.job.sets.foldl (fun d s => d.findLines s.seq) d

/-- After BREAK entries have moved up: sets anchored at a web coordinate look for their lines anew where they have not applied (R97). -/
def Dev.refindLines (d : Dev) : Dev :=
  ({ d with job := { d.job with sets := d.job.sets.map fun s =>
      if s.kind = 1 then { s with lines := Vector.ofFn fun b => if Nat.testBit s.applied b.val then s.lines[b] else none } else s } } : Dev).findAllLines

/-- The clock of a bar that issues no lines has come to a line, or the bar is beyond it (R110). -/
def Dev.clockAt (d : Dev) (b : Fin 12) (k : LinePos) : Bool :=
  match (d.bar b).cur with
  | some (q, c) => LinePos.lt k ⟨q, c, 0⟩ || (k.seq = q && k.copy = c && d.reached b (d.kOf k) && d.idleBar b)
  | none => false

/-- A pending set is due on a bar: the bar's next line to screen has come to its line k, or the clock of a bar without lines
has reached it (R109, R110). Sets of lower lines, and of lower numbers at the same line, come first. -/
def Dev.setDue (d : Dev) (b : Fin 12) (s : SetRec) : Bool :=
  !Nat.testBit s.applied b &&
    (match s.lines[b] with
     | none => false
     | some k =>
       let next := match d.nextScr b with | some p => k.le p | none => false
       let back := match (d.bar b).scr with | some p => k.le p | none => false
       (next || back || d.clockAt b k) &&
         (d.job.sets.all fun t => Nat.testBit t.applied b || t.seq = s.seq ||
           (match t.lines[b] with | none => true | some j => k.lt j || (k = j && decide (s.seq < t.seq)))))

/-! ### Capture (R107, R111) -/

/-- The place that holds the low word of a port's flat-field base as the last write of its high word took it (R6). -/
def ffLoAt (p : Nat) : Nat := 0x13FFFF00 + 4 * p

/-- The staged word of a register: as written, but for the low word of a pair, which its high word takes (R6). -/
def Dev.stagedWord (d : Dev) (a : Nat) : Word :=
  match (List.range 4).find? fun p => a = Reg.VIS_CAM_FF_LO p with
  | some p => d.effRd (ffLoAt p)
  | none => d.rd a

/-- The staged registers written since the last capture, with their staged words. -/
def Dev.writtenFields (d : Dev) : List (Nat × Word) := d.job.written.map fun a => (a, d.stagedWord a)

/-- A captured strobe width of 0, or above 50,000. -/
def badWidth (fs : List (Nat × Word)) : Bool :=
  fs.any fun f => f.1 / 0x100000 = 6 && f.1 % 0x40 = 0x0C && decide (f.1 < 0x600400) && decide (0x600100 ≤ f.1) &&
    (f.2.toNat % 2 ^ 16 = 0 || decide (50000 < f.2.toNat % 2 ^ 16))

/-- A captured width above the watchdog of an enabled output mapped to its bar (R111). -/
def Dev.wdogBreach (d : Dev) (fs : List (Nat × Word)) : Bool :=
  allBars.any fun b => fs.any fun f => f.1 = Reg.LTC_BAR_STROBE b &&
    (d.stbOf b).any fun n => decide (d.stbWdogNs n < f.2.toNat % 2 ^ 16 * 10)

/-- The reason for which SET is refused, in the order of R111; 0 where it is accepted. -/
def Dev.setReason (d : Dev) (modes : List Mode) : Nat :=
  if !d.modeIn modes then 1
  else if 8 ≤ d.job.sets.length then 2
  else if badWidth d.writtenFields then 5
  else if d.wdogBreach d.writtenFields then 3
  else 0

/-- SET or CFG refused: RESULT 3 with the reason, and SET_REFUSED (R111, R112, R118). -/
def Dev.commitRefused (d : Dev) (reason cfg : Nat) : Dev :=
  ((d.set F.SYS_COMMIT_STATUS_RESULT 3).set F.SYS_COMMIT_STATUS_REASON reason).raise Ev.SET_REFUSED 15 none [15, reason, cfg]

/-- The set of a capture: its kind, anchor and fields; LTC_PITCH takes effect at once (R69). -/
def Dev.newSet (d : Dev) (kind anchor : Nat) (fs : List (Nat × Word)) : Dev × SetRec :=
  let seq := d.job.setSeq + 1
  let s : SetRec := { seq := seq, kind := kind, anchor := anchor, fields := fs }
  let d := ({ d with job := { d.job with setSeq := seq, captured := d.job.captured ++ [s] } } : Dev).set F.SYS_COMMIT_STATUS_SEQ seq
  (fs.foldl (fun d f => if f.1 = Reg.LTC_PITCH then d.effWr f.1 f.2 else d) d, s)

/-- Place a captured set: at once in IDLE and CALIBRATE and on bars that are not in use; with KIND 0 at once on a bar that issues
no lines; else pending, with its lines found (R107, R110). -/
def Dev.placeSet (d : Dev) (s : SetRec) : Dev :=
  let d : Dev := { d with job := { d.job with sets := d.job.sets ++ [s] } }
  if d.modeIn [.idle, .calibrate] then
    let d := allBars.foldl (fun d b => d.applyAtOnce b s) (d.listsOnce s)
    d.dropSets
  else
    let d := if d.listDue s then d.listsOnce s else d
    let d := allBars.foldl (fun d b =>
      if !d.barsOn.contains b || (s.kind = 0 && d.idleBar b) then d.applyAtOnce b s else d) d
    (d.findLines s.seq).showPending

/-- Mode changes of sets that are on their way to their lines begin, at the end of printing (R110, R229). -/
def Dev.modesFlush (d : Dev) : Dev :=
  d.job.sets.foldl (fun (d : Dev) s =>
    d.barsOn.foldl (fun (d : Dev) b => match s.lines[b] with
      | some k => if Nat.testBit s.applied b then d.modeFrom b s k else d
      | none => d) d) d

/-- Apply every pending set on every bar, in sequence order: the end of printing (R110). -/
def Dev.applyAll (d : Dev) : Dev :=
  let d := d.modesFlush
  d.job.sets.foldl (fun d s => (d.setOpen s).foldl (fun d b => d.applyAtOnce b s) (d.listsOnce s)) d

/-- SETTINGS_APPLY: the set is due on the bar, and applies from its line; on a bar that issues no lines, once its clock comes there
(R109, R110). -/
def Dev.settingsApply (d : Dev) (b : Fin 12) (seq : Nat) : Dev :=
  match d.set? seq with
  | none => d
  | some s =>
    match s.lines[b] with
    | none => d
    | some k =>
      if d.setDue b s then (if d.idleBar b && d.clockAt b k then d.applyAtOnce b s else d.applyFrom b s k)
      else if d.idleBar b && d.clockAt b k && (d.bar b).reach.any fun r => r.1 = seq then (d.foldTl b k).lineReaches b k
      else d

end Sys2Proof.Machine
end

