-- ==== Sys2Proof/Machine/Lanes.lean ====
section
/-!
DEFINITION. Lanes (spec/08_zixlink_lanes.md, R182 to R201): failure, entry to a state, entry to ACTIVE, requests refused, low-power
states, delay measurement. The meanings are in ExecLane.lean.
-/
namespace Sys2Proof.Machine

/-- The domain a lane lies in (R15). -/
def laneDom (n : Fin 18) : Fin 12 := if n.val < 8 || n.val = 16 then 8 else 9

/-- MIR0 and MIR1 (R200). -/
def isMir (n : Fin 18) : Bool := decide (16 ≤ n.val)

/-- The last line issued of each bar the lane carries, pieces in order; 0 where none has been (R190, R203). -/
def Dev.lastIssued (d : Dev) (n : Fin 18) : List Nat := (d.pieces n).map fun p => (d.bar (barOf p.bar)).lastK

/-- Enter DETECT for a full bring-up at RATE 0, with a fresh nonce, and with RATE_MAX and the transmitter's taps as they are written now;
measurements under way end (R183, R192, R202). -/
def Dev.enterDetect (d : Dev) (n : Fin 18) : Dev :=
  (((d.setLane n laneDetect).set (F.ZXL_LANE_STATUS_RATE n) 0).modLane n fun l =>
    { l with nonce := d.free 16, dark := false, exit := none, relock := none, margin := none, dmeas := none, dark2 := none,
             rateMax := d.get (F.ZXL_LANE_CFG_RATE_MAX n), txEq := d.rd (Reg.ZXL_LANE_TX n) }).took

/-- A bring-up fails: the code and state are recorded; after RETRIES failures in succession the lane is FAILED (R182). -/
def Dev.laneFail (d : Dev) (n : Fin 18) (code : Nat) : Dev :=
  let st := d.laneSt n
  let d := (d.set (F.ZXL_LANE_STATUS_FAILCODE n) code).set (F.ZXL_LANE_STATUS_LAST_FAIL n) st
  let d := d.addSat (F.ZXL_LANE_ERR_RETRIES n) 1
  let d := d.modLane n fun l => { l with fails := l.fails + 1, failAt := some (st, d.get (F.ZXL_LANE_STATUS_RATE n)) }
  if max 1 (d.get F.ZXL_CFG_RETRIES) ≤ (d.lane n).fails then
    (d.setLane n laneFailed).raise Ev.LANE_FAILED 15 none [n.val, laneFailed + code * 2 ^ 8]
  else d.enterDetect n

/-- The time limit of a state, ns (R182). -/
def laneLimit (st : Nat) : Nat :=
  if st = laneDetect then 100000000 else if st = laneBase then 5000000 else if st = laneNegotiate then 1000000
  else if st = laneStep then 20000000 else if st = laneAlign then 12000000 else 1000000

/-- The failure code of a limit: the one given when it is among the state's own, else the state's first (R182). -/
def laneCode (st code : Nat) : Nat :=
  let l := if st = laneDetect then [0x10, 0x11] else if st = laneBase then [0x20, 0x21] else if st = laneNegotiate then [0x30, 0x31]
    else if st = laneStep then [0x40, 0x41, 0x42] else [0x50, 0x51]
  if l.contains code then code else l.headD 0

/-- Start a delay measurement of a lane: 64 marks, 10 µs apart (R216). -/
def Dev.measureDelay (d : Dev) (n : Fin 18) : Dev :=
  if isMir n || (d.epsOn n).isEmpty || !d.active n then d
  else
    (d.modLane n fun l => { l with dmeas := some d.now }).emitOn n (.dmark n.val)

/-- The marks of a delay measurement after the first, one each 10 µs (R216). -/
def Dev.nextMark (d : Dev) (n : Fin 18) : Dev :=
  match (d.lane n).dmeas with
  | some t => if t < d.now ∧ (d.now - t) % 10000 = 0 ∧ d.now < t + 640000 then d.emitOn n (.dmark n.val) else d
  | none => d

/-- EP_STROBE to every endpoint of the lane by plain writes; FIRE blocks may follow (R73). -/
def Dev.pushStrobe (d : Dev) (n : Fin 18) : Dev :=
  ((d.epsOn n).foldl (fun (d : Dev) e =>
    let b := barOf e.bar
    let w := d.widthNow b
    (d.epWrite e.ep epStrobe [w]).modBar b fun s => { s with epWidth := if s.epWidth = 0 then w else s.epWidth }) d).modLane n
      fun l => { l with ready := true }

/-- Commands of the device that waited for the lane have been sent: their time counts from now (R196, R224). -/
def Dev.cmdsWoke (d : Dev) (n : Fin 18) : Dev :=
  let f (c : Ecmd) : Ecmd := if c.lane = n.val && c.waiting then { c with waiting := false, at_ := d.now } else c
  { d with zxl := { d.zxl with cmds := d.zxl.cmds.map f, ecmd := d.zxl.ecmd.map f } }

/-- A lane enters ACTIVE. After a full bring-up at a rate the maximum rate, the strobe widths and the delays follow (R70, R73,
R187, R216). -/
def Dev.laneUp (d : Dev) (n : Fin 18) (full : Bool) : Dev :=
  let rate := d.get (F.ZXL_LANE_STATUS_RATE n)
  let d := (d.setLane n laneActive).modLane n fun l =>
    { l with fails := 0, exit := none, relock := none, eqEvt := false, idleAt := d.now, wasUp := true, lmsAt := d.now,
             upRate := if full then rate else l.upRate, ready := if full then false else l.ready }
  let d := d.cmdsWoke n
  let d := d.raise Ev.LANE_UP 15 none (d.laneDetail n 0 ++ [rate] ++ d.lastIssued n)
  let d := if rate < d.get F.ZXL_CFG_RATE_TOP then d.raise Ev.LANE_RATE_LOW 15 none (d.laneDetail n 0 ++ [rate]) else d
  if isMir n then d
  else
    if full then
      let d := if (d.pieces n).isEmpty || (d.mode = .boot && decide (d.boot.step ≤ 7)) then d else d.setMaxRate
      (d.pushStrobe n).measureDelay n
    else d

/-- The equaliser's coefficients in effect 1 ms ago, among those kept: the newest taken by then, else the oldest (R189). -/
def LaneSt.coefsBefore (l : LaneSt) (now : Nat) : Option (Word × Word × Word) :=
  match l.coefs.find? fun c => decide (c.1 + 1000000 ≤ now) with
  | some c => some c.2
  | none => (l.coefs.getLast?).map (·.2)

/-- Coefficients of the equaliser: CTLE of EQ, DFE0 and DFE1. In MODE 2 the host's stand in every state (R191). -/
def Dev.putCoefs (d : Dev) (n : Fin 18) (c : Option (Word × Word × Word)) : Dev :=
  match c with
  | some (eq, d0, d1) =>
    if d.get (F.ZXL_LANE_EQ_MODE n) = 2 then d
    else
      ((d.set (F.ZXL_LANE_EQ_CTLE n) ((F.ZXL_LANE_EQ_CTLE n).of eq)).wr (Reg.ZXL_LANE_DFE0 n) d0).wr (Reg.ZXL_LANE_DFE1 n) d1
  | none => d

/-- A lane loses lock: its traffic is discarded, the coefficients in use 1 ms before are restored, and the receiver relocks at an instant
that no rule fixes, within the 1 ms (R189, R190). -/
def Dev.laneDown (d : Dev) (n : Fin 18) : Dev :=
  let d := (d.setLane n laneRecover).addSat (F.ZXL_LANE_ERR_LOCKLOSS n) 1
  let d := d.putCoefs n ((d.lane n).coefsBefore d.now)
  let d := (d.modLane n fun l => { l with relock := some (d.now + d.free 20 % 900000), margin := none, dmeas := none, acc := [] }).took
  d.raise Ev.LANE_DOWN 15 none (d.laneDetail n 0 ++ [0] ++ d.lastIssued n)

/-! ### Equaliser (R191) -/

/-- A tap word holds a tap at the end of its range: tap 1 from −64 to +63, the others from −32 to +31. -/
def tapAtEnd (i : Nat) (v : Int) : Bool := if i = 0 then v ≤ -64 || 63 ≤ v else v ≤ -32 || 31 ≤ v

/-- A tap limited to its range. -/
def tapClamp (i : Nat) (v : Int) : Int := if i = 0 then clampI (-64) 63 v else clampI (-32) 31 v

/-- The taps of a lane, tap 1 first. -/
def Dev.taps (d : Dev) (n : Fin 18) : List Int :=
  (List.range 8).map fun i =>
    sext 8 ((if i < 4 then d.rd (Reg.ZXL_LANE_DFE0 n) else d.rd (Reg.ZXL_LANE_DFE1 n)).toNat / 2 ^ (8 * (i % 4)))

/-- The coefficients in use are kept with the time, those older than 1 ms but for the newest of them dropped (R189). -/
def Dev.keepCoefs (d : Dev) (n : Fin 18) : Dev :=
  let c := (d.now, d.rd (Reg.ZXL_LANE_EQ n), d.rd (Reg.ZXL_LANE_DFE0 n), d.rd (Reg.ZXL_LANE_DFE1 n))
  d.modLane n fun l =>
    let young := l.coefs.filter fun x => decide (d.now < x.1 + 1000000)
    { l with coefs := c :: young ++ (l.coefs.drop young.length).take 1 }

/-- Put taps into DFE0 and DFE1, each held within its range; a tap at an end sets SAT, LANE_EQ_LIMIT once per entry to ACTIVE. -/
def Dev.setTaps (d : Dev) (n : Fin 18) (ts : List Int) : Dev :=
  let cs := (List.range 8).map fun i => tapClamp i (ts.getD i 0)
  let word (k : Nat) : Word := BitVec.ofNat 32
    ((List.range 4).foldl (fun a i => a + unsext 8 (cs.getD (4 * k + i) 0) * 2 ^ (8 * i)) 0)
  let d := ((d.wr (Reg.ZXL_LANE_DFE0 n) (word 0)).wr (Reg.ZXL_LANE_DFE1 n) (word 1)).keepCoefs n
  if cs.zipIdx.any fun p => tapAtEnd p.2 p.1 then
    let d := d.set (F.ZXL_LANE_EQ_SAT n) 1
    if (d.lane n).eqEvt then d
    else (d.modLane n fun l => { l with eqEvt := true }).raise Ev.LANE_EQ_LIMIT 15 none (d.laneDetail n 0)
  else d

/-! ### Low-power states (R194 to R196) -/

/-- CMD or RSP traffic waits on a lane: commands without their response, and frames that have not left. -/
def Dev.laneTraffic (d : Dev) (n : Fin 18) : Bool :=
  let l := d.lane n
  (match d.zxl.ecmd with | some c => c.lane = n.val | none => false) || d.zxl.cmds.any (fun c => c.lane = n.val) || !l.waitQ.isEmpty ||
    !l.tx.queue.isEmpty || !l.tx.prio.isEmpty || !l.tx.rest.isEmpty

/-- Enter L1 or L2, with the coefficients in use kept in L2 (R195); queued traffic goes first and the entry waits (R196). -/
def Dev.lowPower (d : Dev) (n : Fin 18) (two : Bool) : Dev :=
  if d.laneTraffic n then d.modLane n fun l => if two then { l with wantL2 := true } else { l with wantL1 := true }
  else
    let c := (d.rd (Reg.ZXL_LANE_EQ n), d.rd (Reg.ZXL_LANE_DFE0 n), d.rd (Reg.ZXL_LANE_DFE1 n))
    (d.setLane n (if two then laneL2 else laneL1)).modLane n fun l =>
      { l with wantL1 := false, wantL2 := false, exit := none, dark2 := if two then some c else none }

/-- An entry that waited on traffic is made once the queue is empty. -/
def Dev.lowPowerIdle (d : Dev) (n : Fin 18) : Dev :=
  let l := d.lane n
  if d.active n && d.mode = .idle && (l.wantL1 || l.wantL2) && !d.laneTraffic n then d.lowPower n l.wantL2 else d

/-- Start an exit from L1 or L2. -/
def Dev.laneExit (d : Dev) (n : Fin 18) : Dev :=
  if (d.laneSt n = laneL1 || d.laneSt n = laneL2) && (d.lane n).exit.isNone then
    d.modLane n fun l => { l with exit := some d.now, wantL1 := false, wantL2 := false }
  else d

/-- A lock loss of the lane falls in this cycle: it has lost lock, or the loss waits (R190). -/
def Dev.losing (d : Dev) (n : Fin 18) (loss : Bool) : Bool := (loss && d.active n) || (d.laneSt n = laneRecover && (d.lane n).entered = d.now)

/-- A request for L1 (`two` false) or L2: allowed in IDLE, outside a transition, from ACTIVE, on a chain that supports it. With a lock loss
of the same cycle it is refused with STATE (R190), with a transition out of IDLE that waits in this cycle with MODE (R196). -/
def Dev.lowPowerReq (d : Dev) (n : Fin 18) (two loss leaves : Bool) : Dev :=
  let st := d.laneSt n
  if d.losing n loss then d.laneRefused n 3
  else if leaves then d.laneRefused n 1
  else if d.mode ≠ .idle || d.sys.trans.isSome then d.laneRefused n 1
  else if !Nat.testBit (d.get (F.ZXL_LANE_STATUS_LPM_OK n)) two.toNat then d.laneRefused n 2
  else if st ≠ laneActive then d.laneRefused n 3
  else d.lowPower n two

end Sys2Proof.Machine
end

