-- ==== Sys2Proof/Machine/Bringup.lean ====
section
/-!
DEFINITION. What happens on a lane (spec/08_zixlink_lanes.md): each function is one command of the family, on the block.
-/
namespace Sys2Proof.Machine

/-- A state of bring-up has lasted so long, ns. -/
def Dev.lasted (d : Dev) (n : Fin 18) (ns : Nat) : Bool := decide ((d.lane n).entered + ns ≤ d.now)

/-- The ring is closed: 1,024 DET sets of the lane's own nonce have come back, no sooner than they take, with the hops of N endpoints (R183).
MIR lanes go on to STEP (R200). -/
def Dev.ringClosed (d : Dev) (n : Fin 18) (hops : Nat) : Dev :=
  if d.laneSt n ≠ laneDetect || !d.lasted n 65536 then d
  else if isMir n then
    (d.set (F.ZXL_LANE_STATUS_RATE n) 2).setLane n laneStep
  else if 64 < hops then d.laneFail n 0x11
  else (d.set (F.ZXL_LANE_STATUS_ENDPOINTS n) hops).setLane n laneBase

/-- Enumeration and the error test: it passes no sooner than 1 ms of ENUM sets has come back (R184). -/
def Dev.basePassed (d : Dev) (n : Fin 18) (r : BaseResult) : Dev :=
  if d.laneSt n ≠ laneBase then d
  else if r.err then d.laneFail n 0x20
  else if r.hops ≠ d.get (F.ZXL_LANE_STATUS_ENDPOINTS n) ∨ r.hops ≠ d.get (F.ZXL_LANE_CFG_EP_EXPECT n) then d.laneFail n 0x21
  else if !d.lasted n 1000000 then d
  else d.setLane n laneNegotiate

/-- The highest rate code of a mask that a limit allows; 0 when none above it is left. -/
def topRate (rates lim : Nat) : Nat :=
  ([3, 2, 1].find? fun c => Nat.testBit rates c && decide (c ≤ lim)).getD 0

/-- The returned capabilities select the rate, under RATE_MAX as the bring-up took it and the cap of R199 (R185, R202). -/
def Dev.negotiateDone (d : Dev) (n : Fin 18) (c : Caps) : Dev :=
  if d.laneSt n ≠ laneNegotiate then d
  else
    let d := ((d.set (F.ZXL_LANE_CAPS_VER n) c.ver).set (F.ZXL_LANE_CAPS_LPM n) c.lpm).set (F.ZXL_LANE_CAPS_RATES n) c.rates
    let d := d.set (F.ZXL_LANE_STATUS_LPM_OK n) c.lpm
    if c.ver.val < d.get (F.ZXL_LANE_CFG_VER_MIN n) then d.laneFail n 0x31
    else
      let r := topRate c.rates (min (d.lane n).rateMax (d.lane n).cap)
      let d := d.set (F.ZXL_LANE_STATUS_RATE n) r
      if r ≠ 0 then d.setLane n laneStep
      else if (d.pieces n).isEmpty then d.setLane n laneAlign
      else d.laneFail n 0x30

/-- The receiver has locked and adapted at the new rate, after the 256 STEP sets, or failed to; in MODE 2 the host's coefficients stay (R186,
R191). -/
def Dev.stepDone (d : Dev) (n : Fin 18) (r : Adapted) : Dev :=
  if d.laneSt n ≠ laneStep then d
  else if r.code ≠ 0 then d.laneFail n (laneCode laneStep r.code)
  else if !d.lasted n 16384 then d
  else
    let d := d.modLane n fun l => { l with eqEvt := false, coefs := [], acc := [] }
    let d := if d.get (F.ZXL_LANE_EQ_MODE n) = 2 then d
      else ((d.set (F.ZXL_LANE_EQ_CTLE n) r.ctle).set (F.ZXL_LANE_EQ_SAT n) 0).setTaps n r.taps
    d.setLane n laneAlign

/-- The link test: passed with code 0, after 10 ms (R187). -/
def Dev.alignPassed (d : Dev) (n : Fin 18) (code : Nat) : Dev :=
  if d.laneSt n ≠ laneAlign then d
  else if code ≠ 0 then d.laneFail n (laneCode laneAlign code)
  else if !d.lasted n 10000000 then d
  else d.laneUp n true

/-- A state has exceeded its limit (R182); the condition that ends it, met in the same cycle, wins (R188). -/
def Dev.laneTimeout (d : Dev) (n : Fin 18) (code : Nat) (met : Bool) : Dev :=
  let st := d.laneSt n
  if 1 ≤ st ∧ st ≤ 5 ∧ d.lasted n (laneLimit st) ∧ !met then d.laneFail n (laneCode st code) else d

/-- How many invalid sync headers of 64 blocks, or code errors of 16 characters at RATE 0, lose the lock (R189). -/
def Dev.lossLimit (d : Dev) (n : Fin 18) : Nat := if d.get (F.ZXL_LANE_STATUS_RATE n) = 0 then 4 else 16

/-- Invalid sync headers or code errors in the last 64 blocks or 16 characters of ACTIVE are counted; enough of them lose the lock
(R189, R202). -/
def Dev.lockLoss (d : Dev) (n : Fin 18) (symbols : Nat) : Dev :=
  if !d.active n then d
  else
    let d := d.addSat (F.ZXL_LANE_ERR_SYMBOL n) symbols
    if d.lossLimit n ≤ symbols then d.laneDown n else d

/-- 100 µs of clean ALIGN blocks within 1 ms (R189). -/
def Dev.recoverDone (d : Dev) (n : Fin 18) : Dev :=
  if d.laneSt n = laneRecover && !(d.lane n).dark && d.lasted n 100000 && decide (d.now ≤ (d.lane n).entered + 1000000) then d.laneUp n false
  else d

/-- Not recovered within 1 ms: dark for 2 ms (R189); a recovery of the same cycle wins (R188). -/
def Dev.recoverTimeout (d : Dev) (n : Fin 18) (met : Bool) : Dev :=
  if !met && d.laneSt n = laneRecover && !(d.lane n).dark && decide ((d.lane n).entered + 1000000 ≤ d.now) then
    d.modLane n fun l => { l with dark := true, entered := d.now }
  else d

/-- After 2 ms dark the lane has failed with 0x70 and starts a full bring-up (R182, R189). -/
def Dev.recoverDarkEnd (d : Dev) (n : Fin 18) : Dev :=
  if d.laneSt n = laneRecover && (d.lane n).dark && decide ((d.lane n).entered + 2000000 ≤ d.now) then d.laneFail n 0x70 else d

/-- The time of 1,024 blocks at a rate, ns; at RATE 0, where there are none, that of as many bits (R178, R191). -/
def blocksTime (rate : Nat) : Nat := match rate with | 0 => 54068 | 1 => 6554 | 2 => 2622 | _ => 2403

/-- One LMS update in MODE 0, no sooner than 1,024 blocks after the last: each tap takes its gradient times the step size 2^−(MU + 6), in
2^−13 code (R191; log 64). A MODE write of the same cycle wins. -/
def Dev.lmsUpdate (d : Dev) (n : Fin 18) (grads : List Int) (write : Bool) : Dev :=
  let l := d.lane n
  if !d.active n || d.get (F.ZXL_LANE_EQ_MODE n) ≠ 0 || write || l.modeAt = some d.now
      || decide (d.now < l.lmsAt + blocksTime (d.get (F.ZXL_LANE_STATUS_RATE n))) then d
  else
    let old := (d.taps n).mapIdx fun i v => let a := l.acc.getD i (v * 2 ^ 13); if a / 2 ^ 13 = v then a else v * 2 ^ 13
    let acc := old.mapIdx fun i a =>
      let x := a + grads.getD i 0 * 2 ^ (7 - d.get (F.ZXL_LANE_EQ_MU n))
      if i = 0 then clampI (-64 * 2 ^ 13) (63 * 2 ^ 13) x else clampI (-32 * 2 ^ 13) (31 * 2 ^ 13) x
    (d.modLane n fun l => { l with acc := acc, lmsAt := d.now }).setTaps n (acc.map (· / 2 ^ 13))

/-- A host write of EQ.CTLE (0), DFE0 (1) or DFE1 (2): accepted in MODE 2 (R191). -/
def Dev.eqWrite (d : Dev) (n : Fin 18) (which : Fin 3) (v : Word) : Dev :=
  if d.get (F.ZXL_LANE_EQ_MODE n) ≠ 2 then d.laneRefused n 1
  else if which = 0 then (d.set (F.ZXL_LANE_EQ_CTLE n) (v.toNat / 2 ^ 8)).keepCoefs n
  else
    let new (i : Nat) : Int := sext 8 (v.toNat / 2 ^ (8 * (i % 4)))
    let old := d.taps n
    d.setTaps n ((List.range 8).map fun i => if (which = 1) = decide (i < 4) then new i else old.getD i 0)

/-- A pulse of MARGIN on an ACTIVE lane (R193); a lock loss of the same cycle wins (R190). -/
def Dev.marginStart (d : Dev) (n : Fin 18) (loss : Bool) : Dev :=
  if d.active n && !d.losing n loss then d.modLane n fun l => { l with margin := some d.now } else d.laneRefused n 3

/-- The eye measurement completes, after 50 ms (R193). -/
def Dev.marginDone (d : Dev) (n : Fin 18) (h v : Nat) : Dev :=
  if (match (d.lane n).margin with | some t => decide (t + 50000000 ≤ d.now) | none => false) && d.active n then
    ((d.modLane n fun l => { l with margin := none }).set (F.ZXL_LANE_MARGIN_H n) h).set (F.ZXL_LANE_MARGIN_V n) v
  else d

/-- A pulse of WAKE (R194). -/
def Dev.laneWake (d : Dev) (n : Fin 18) (loss : Bool) : Dev :=
  if d.losing n loss then d.laneRefused n 3
  else if d.laneSt n = laneL1 || d.laneSt n = laneL2 then d.laneExit n else d.laneRefused n 3

/-- The least time of an exit: 2 µs from L1; from L2 the PLL's 100 µs and 60 µs to re-adapt (R194, R195; DEDUCED, log 64). -/
def Dev.exitTime (d : Dev) (n : Fin 18) : Nat := if d.laneSt n = laneL2 then 160000 else 2000

/-- An exit ends with the lane ACTIVE, from L2 with the coefficients kept at entry; one from L2 that is over its 2 ms has failed with 0x90
(R188, R194, R195). -/
def Dev.lpmExitDone (d : Dev) (n : Fin 18) : Dev :=
  match (d.lane n).exit with
  | none => d
  | some t =>
    if d.now < t + d.exitTime n then d
    else if d.laneSt n = laneL2 && decide (t + 2000000 < d.now) then d.laneFail n 0x90
    else ((d.putCoefs n (d.lane n).dark2).modLane n fun l => { l with dark2 := none }).laneUp n false

/-- An exit from L2 that has not ended 2 ms after it began fails with 0x90 (R195). -/
def Dev.lpmOverdue (d : Dev) (n : Fin 18) : Dev :=
  match (d.lane n).exit with
  | some t => if d.laneSt n = laneL2 && decide (t + 2000000 < d.now) then d.laneFail n 0x90 else d
  | none => d

/-- L1_MS of IDLE without CMD traffic (R196). -/
def Dev.l1Idle (d : Dev) (n : Fin 18) : Dev :=
  let ms := d.get F.ZXL_LPM_L1_MS
  if ms ≠ 0 && d.mode = .idle && d.sys.trans.isNone && d.active n && Nat.testBit (d.get (F.ZXL_LANE_STATUS_LPM_OK n)) 0
      && !d.laneTraffic n && decide ((d.lane n).idleAt + ms * 1000000 ≤ d.now) then d.lowPower n false
  else d

/-- L2_S seconds in L1 (R196). -/
def Dev.l2Timer (d : Dev) (n : Fin 18) : Dev :=
  let sec := d.get F.ZXL_LPM_L2_S
  if sec ≠ 0 && d.mode = .idle && d.laneSt n = laneL1 && (d.lane n).exit.isNone && Nat.testBit (d.get (F.ZXL_LANE_STATUS_LPM_OK n)) 1
      && decide ((d.lane n).entered + sec * 1000000000 ≤ d.now) then d.lowPower n true
  else d

/-- A pulse of RETRAIN in IDLE or CALIBRATE (R201); a lock loss of the same cycle wins (R190); a lane that a BLOCK reset holds does not
start (R378). -/
def Dev.retrain (d : Dev) (n : Fin 18) (loss : Bool) : Dev :=
  if d.losing n loss then d.laneRefused n 3
  else if !d.modeIn [.idle, .calibrate] then d.laneRefused n 1
  else if d.laneSt n = laneExcluded then d.laneRefused n 3
  else if d.unitHeld (0x30 + n.val) then d
  else ((d.modLane n fun l => { l with fails := 0 }).set (F.ZXL_LANE_ERR_RETRIES n) 0).enterDetect n

end Sys2Proof.Machine
end

