-- ==== Sys2Proof/Machine/Proto.lean ====
section
/-!
DEFINITION. The Zixlink protocol (spec/09_zixlink_protocol.md): line frames, beacons, status slots and class vectors, endpoint
commands, resends, delay measurement and the end of mode changes. Each function is one command of the family, on the block,
or a part of one.
-/
namespace Sys2Proof.Machine

/-! ### Line data (R212 to R214) -/

/-- The fragments of a piece: first position and count, at most 8,192 positions each. -/
def fragments (first count : Nat) : List (Nat × Nat) :=
  (List.range ((count + 8191) / 8192)).map fun i => (first + 8192 * i, min 8192 (count - 8192 * i))

/-- The levels of a fragment; none when every level is 0 (ZERO = 1). Positions beyond the line are 0. -/
def fragLevels (levels : List Nat) (f : Nat × Nat) : List Nat :=
  let l := (List.range f.2).map fun i => levels.getD (f.1 + i) 0
  if l.all (· = 0) then [] else l

/-- FIRE and LINE go out on a lane: it is ACTIVE, and not at RATE 0 (R206). -/
def Dev.carries (d : Dev) (n : Fin 18) : Bool := d.active n && d.get (F.ZXL_LANE_STATUS_RATE n) ≠ 0

/-- Send a line whole on every lane that carries the bar. -/
def Dev.sendLine (d : Dev) (b : Fin 12) (s : Slot) : Dev :=
  let wire := d.wireOf b s.pos % 2 ^ 16
  let ph := d.maskPhase b s.pos
  let d := ((d.lanesOf b).filter d.carries).foldl (fun d n =>
    let fs := ((d.pieces n).filter fun p => p.bar = b.val).flatMap fun p => fragments p.first p.count
    fs.foldl (fun d f => d.emitOn n (.line n b wire ph f.1 f.2 (fragLevels s.levels f))) d) d
  d.modBar b fun t => { t with car := t.car.map fun x => if x.pos = s.pos then { x with sent := true } else x }

/-- After a take-over, a line is sent only where its issue point falls at or after the end of the gap (R345). -/
def Dev.beyondGap (d : Dev) (b : Fin 12) (p : LinePos) : Bool :=
  match d.dpx.bars[b].gap, d.deadline b p with
  | some t, some c => decide (t ≤ d.now + 10 * (c - 400))
  | _, _ => true

/-- The bar's next committed line that has not been sent. -/
def Dev.unsent (d : Dev) (b : Fin 12) : Option Slot := (d.unissued b).find? fun s => s.committed && !s.sent && d.beyondGap b s.pos

/-- Cycles until the bar's clock is predicted to reach a line; none at rate 0. -/
def Dev.fireEta (d : Dev) (b : Fin 12) (p : LinePos) : Option Nat :=
  let s := d.bar b
  match s.cur with
  | some (q, c) =>
    let n := d.linesBetween b ⟨q, c, s.next⟩ p
    let k : Int := d.kOf ⟨q, c, s.next⟩
    if s.inc = 0 then none
    else some ((if d.descending then s.count - (k - n) * 2 ^ 32 else (k + n) * 2 ^ 32 - s.count).toNat / s.inc)
  | none => none

/-- The unsent line of one bar goes before that of another on the lanes they share: its fire instant comes first, an instant that no clock
predicts last, and of equal ones the lower bar (R214; DESIGN CHOICE, log 64). -/
def Dev.sendsBefore (d : Dev) (x b : Fin 12) : Bool :=
  match d.unsent x, d.unsent b with
  | some s, some t =>
    ((d.lanesOf x).any fun n => d.carries n && (d.lanesOf b).contains n) &&
      (match d.fireEta x s.pos, d.fireEta b t.pos with
       | some u, some v => decide (u < v) || (u = v && decide (x.val < b.val))
       | some _, none => true
       | none, some _ => false
       | none, none => decide (x.val < b.val))
  | _, _ => false

/-- LINE_FRAME_SEND, in the modes of R233: a line waits while another bar's on one of its lanes fires sooner (R214). -/
def Dev.lineFrameSend (d : Dev) (b : Fin 12) : Dev :=
  if d.modeIn [.ready, .hold, .print, .shuttle] && !allBars.any fun x => x ≠ b && d.sendsBefore x b then
    match d.unsent b with
    | some s => d.sendLine b s
    | none => d
  else d

/-! ### Beacons and STATUS frames (R219, R221) -/

/-- SAFE in beacons: in SAFE, and in the orderly stop. -/
def Dev.beaconSafe (d : Dev) : Bool := d.modeIn [.safe, .shutdown]

/-- The time from one beacon to the next: 100 µs, or 10 µs for the two that follow a take-over (R219, R345). -/
def Dev.beaconGap (d : Dev) (last : Nat) : Nat :=
  match d.dpx.takeAt with
  | some t => if t ≤ last ∧ last < t + 20000 then 10000 else 100000
  | none => 100000

/-- A BEACON on an ACTIVE lane, every 100 µs. -/
def Dev.beacon (d : Dev) (n : Fin 18) : Dev :=
  let l := d.lane n
  if isMir n || !d.active n || decide (d.now < l.beacAt + d.beaconGap l.beacAt) then d
  else
    d.sendBeacon n d.beaconSafe

/-- The modes in which STATUS frames are sent (R233). -/
def Dev.sendsStatus (d : Dev) : Bool :=
  (d.mode = .boot && decide (8 ≤ d.boot.step)) || d.modeIn [.idle, .calibrate, .ready, .print, .hold, .shuttle, .shadow, .safe]

/-- A STATUS frame, every 50 µs; the frame before it must have returned 50 µs after this start (R221, R223). -/
def Dev.statusSend (d : Dev) (n : Fin 18) : Dev :=
  let l := d.lane n
  if isMir n || !d.active n || !d.sendsStatus || (match l.statStart with | some t => decide (d.now < t + 50000) | none => false) then d
  else
    let old := match l.statAt with | some t => some (l.statSeq, t, d.now + 50000) | none => l.statOld
    let s := (l.statSeq + 1) % 2 ^ 16
    (d.modLane n fun l => { l with statSeq := s, statAt := some d.now, statStart := some d.now, statOld := old }).emitOn n
      (.status n s (d.get (F.ZXL_LANE_STATUS_ENDPOINTS n)))

/-- A STATUS frame has not returned in time: counted (R223). -/
def Dev.statusLost (d : Dev) (n : Fin 18) : Dev :=
  match (d.lane n).statOld with
  | some (_, _, t) =>
    if t < d.now then (d.modLane n fun l => { l with statOld := none }).addSat F.ZXL_STAT_LOST_FRAMES 1 else d
  | none => d

/-! ### Slots (R221 to R223, R226, R228, R231) -/

def slotBits (v : BitVec 64) (lo w : Nat) : Nat := bits v.toNat lo w

/-- The slot last received from an endpoint. -/
def Dev.slotOf (d : Dev) (ep : Nat) : BitVec 64 :=
  BitVec.ofNat 64 ((d.rd (Reg.ZXL_EP_SLOT_LO ep)).toNat + (d.rd (Reg.ZXL_EP_SLOT_HI ep)).toNat * 2 ^ 32)

/-- Over-temperature bits are noted, and since when they read clear (R168, R170). -/
def Dev.slotOvt (d : Dev) (ep : Nat) (v : BitVec 64) : Dev :=
  (d.noz.heads.filter fun h => h.img.ep = ep).foldl (fun d h =>
    let hot := Nat.testBit (slotBits v 52 4) h.img.slot
    d.modHead h.img.h fun x =>
      { x with ovt := hot, clearAt := if hot then none else match x.clearAt with | some t => some t | none => some d.now }) d

/-- The heads whose bits have newly set in the slots of a frame join those of the slot pass under way (R171). -/
def Dev.noteHot (d : Dev) (was : List HeadSt) : Dev :=
  let new := d.noz.heads.filter fun h => h.ovt && was.any fun x => x.img.h = h.img.h && !x.ovt
  { d with noz := { d.noz with newHot := d.noz.newHot ++ new.map (·.img.h) } }

/-- A slot pass is over: the heads it found hot act, those of a bar together (R169, R171). -/
def Dev.passHot (d : Dev) : Dev :=
  let new := d.noz.heads.filter fun h => d.noz.newHot.contains h.img.h
  allBars.foldl (fun d (b : Fin 12) =>
    match new.filter fun h => h.img.bar = b.val with
    | [] => d
    | hs => d.headsHot b (hs.map (·.img.h))) { d with noz := { d.noz with newHot := [] } }

/-- When the STATUS frame of an endpoint's last slot was sent. -/
def Dev.slotSent (d : Dev) (ep : Nat) : Option Nat := (d.zxl.slotAt.find? fun x => x.1 = ep).map (·.2)

/-- A slot's ACK acknowledges a frame of a number sent to the endpoint; where the slot shows RX_CRC, none sent after its previous slot
(R226). -/
def Dev.acks (d : Dev) (ep : Nat) (v : BitVec 64) (seq at_ : Nat) : Bool :=
  decide ((slotBits v 8 8 + 256 - seq) % 256 ≤ 127)
    && (!Nat.testBit (slotBits v 56 7) 0 || (match d.slotSent ep with | some t => decide (at_ < t) | none => false))

/-- Frames that a slot's ACK acknowledges leave the endpoint's list, and so does the last one sent since its inhibit began (R226, R231). -/
def Dev.slotAck (d : Dev) (n : Fin 18) (ep : Nat) (v : BitVec 64) (sentAt : Nat) : Dev :=
  let push (p : Push) : Push := if d.acks ep v p.seq p.at_ then { p with eps := p.eps.filter fun e => e ≠ ep } else p
  let inh (i : EpInh) : EpInh :=
    match i.seq with
    | some (s, t) => if i.ep = ep && d.acks ep v s t then { i with seq := none } else i
    | none => i
  let d := d.modLane n fun l => { l with pushes := l.pushes.map push }
  { d with zxl := { d.zxl with inh := d.zxl.inh.map inh, slotAt := Sparse.insert d.zxl.slotAt ep sentAt } }

/-- Pushes acknowledged by every endpoint are done; waiting ones follow (R226). -/
def Dev.pushesDone (d : Dev) (n : Fin 18) : Dev :=
  let d := d.modLane n fun l => { l with pushes := l.pushes.filter fun p => !p.eps.isEmpty }
  let w := (d.lane n).waitQ
  (w.foldl (fun (d : Dev) p => d.push n p.eps p.tries p.frame) (d.modLane n fun l => { l with waitQ := [] })).lowPowerIdle n

/-- The last push sent to an inhibited endpoint since its inhibit began has been acknowledged, and none waits for it (R231). -/
def Dev.allAcked (d : Dev) (n : Fin 18) (i : EpInh) : Bool :=
  i.seq.isNone && !((d.lane n).waitQ.any fun p => p.eps.contains i.ep)

/-- The epoch of an endpoint against its bar's (R231), for frames sent after the last change. -/
def Dev.slotEpoch (d : Dev) (n : Fin 18) (e : EpImg) (v : BitVec 64) (sentAt : Nat) : Dev :=
  let b := barOf e.bar
  let ok := slotBits v 32 8 = d.get (F.ZXL_BAR_EPOCH_EPOCH b) % 256
  match d.inhOf e.ep false with
  | some i => if ok && d.allAcked n i then d.releaseEp e.ep false else d
  | none =>
    if !ok && decide (d.zxl.epochOld[b] < sentAt) && d.sendsMask then
      (d.inhibitEp e.ep 0).raise Ev.EP_EPOCH_MISMATCH b (some e.ep) [n.val, d.lineSoon b 1000 % 2 ^ 16, slotBits v 32 8]
    else d

def Dev.missedOf (d : Dev) (ep : Nat) : Nat := ((d.zxl.missed.find? fun m => m.1 = ep).map (·.2)).getD 0

def Dev.setMissed (d : Dev) (ep n : Nat) : Dev :=
  let r := d.zxl.missed.filter fun m => m.1 ≠ ep
  { d with zxl := { d.zxl with missed := if n = 0 then r else r ++ [(ep, n)] } }

/-- One slot of a returned STATUS frame. -/
def Dev.slotIn (d : Dev) (n : Fin 18) (ep : Nat) (v : BitVec 64) (sentAt : Nat) : Dev :=
  let d := (d.wr (Reg.ZXL_EP_SLOT_LO ep) (BitVec.ofNat 32 v.toNat)).wr (Reg.ZXL_EP_SLOT_HI ep) (BitVec.ofNat 32 (v.toNat / 2 ^ 32))
  match d.epImg ep with
  | none => d
  | some e =>
    let b := barOf e.bar
    if !Nat.testBit v.toNat 63 then
      let m := d.missedOf ep + 1
      let d := d.setMissed ep m
      if m = 20 then
        (d.inhibitEp ep 1).raise Ev.EP_SLOT_MISSING b (some ep) [n.val, d.lineSoon b 1000 % 2 ^ 16]
      else d
    else
      let d := d.setMissed ep 0
      let f := slotBits v 56 7
      let d : Dev := { d with zxl := { d.zxl with win := updAll d.zxl.win fun c w => if Nat.testBit f c then w ||| 2 ^ ep else w } }
      let d := d.slotOvt ep v
      let d := if Nat.testBit v.toNat 23 then
          (match d.mchg b with | some m => if slotBits v 24 8 = m.epoch % 256 then d.modeAck b ep else d | none => d)
        else d
      let d := d.slotAck n ep v sentAt
      d.slotEpoch n e v sentAt

/-- The highest temperature the endpoints of a bar report, if any does (R74). -/
def Dev.barTemp (d : Dev) (b : Fin 12) : Option Nat :=
  (d.epsOf b).foldl (fun m e =>
    let v := d.slotOf e.ep
    let t := slotBits v 40 8
    if Nat.testBit v.toNat 63 && t ≠ 0xFF then some (match m with | some x => max x t | none => t) else m) none

/-- A STATUS frame returns: a correct one feeds its slots, another is ignored and counted (R223). -/
def Dev.statusReturn (d : Dev) (n : Fin 18) (seq : Nat) (crcOk : Bool) (slots : List (BitVec 64)) : Dev :=
  let l := d.lane n
  let sentAt := match l.statOld with
    | some (s, t, lim) => if s = seq then (if d.now ≤ lim then some t else none)
                          else if l.statSeq = seq then l.statAt else none
    | none => if l.statSeq = seq then l.statAt else none
  match sentAt with
  | none => d
  | some t =>
    let d := d.modLane n fun l => { l with statAt := if l.statSeq = seq then none else l.statAt,
                                           statOld := match l.statOld with | some (s, x) => if s = seq then none else some (s, x) | none => none }
    if !crcOk then d.addSat F.ZXL_STAT_LOST_FRAMES 1
    else
      let num := d.get (F.ZXL_LANE_STATUS_ENDPOINTS n)
      let was := d.noz.heads
      let d := (((slots.take num).zipIdx).foldl (fun d s => d.slotIn n (64 * n.val + s.2) s.1 t) d).noteHot was
      let d := d.pushesDone n
      ((d.epsOn n).map (·.bar)).eraseDups.foldl (fun d b =>
        match d.barTemp (barOf b) with
        | some t => d.headTemp (barOf b) t
        | none => d) d

/-- The event of a fault class (R238). -/
def classEvent : Nat → EvKind
  | 0 => Ev.EP_RX_CRC | 1 => Ev.EP_FIRE_MISS | 2 => Ev.EP_STROBE_CUT | 3 => Ev.EP_HEAD_FAULT | 4 => Ev.EP_SUPPLY
  | 5 => Ev.EP_LATE_APPLY | _ => Ev.EP_STORE

/-- The endpoints of a class vector, lowest first. -/
def vecEps (v : Nat) : List Nat := (List.range 1024).filter fun i => Nat.testBit v i

/-- A 1 ms window ends: new endpoints raise the class's event once, an emptied class EP_FAULT_CLEAR; the bits accumulate (R223). The
slots of a STATUS frame that returns in the same cycle belong to the window, which ends once they are in. -/
def Dev.faultWindowClose (d : Dev) (more : Bool) : Dev :=
  if d.now < d.zxl.winAt + 1000000 then d
  else if more then { d with zxl := { d.zxl with winDue := true } }
  else
    let d := (List.finRange 7).foldl (fun (d : Dev) (c : Fin 7) =>
      let w := d.zxl.win[c]
      let p := d.zxl.prevWin[c]
      let eps := vecEps w
      let lowest := eps.headD 0
      let word := lowest / 64 + c.val * 2 ^ 8
      let d := if eps.any fun e => !Nat.testBit p e then
          { d with raised := d.raised ++ [{ d.event (classEvent c) 15 (some lowest) [word] with count := eps.length }] }
        else if p ≠ 0 ∧ w = 0 then d.raise Ev.EP_FAULT_CLEAR 15 none [c.val * 2 ^ 8]
        else d
      (List.range 32).foldl (fun d i =>
        let x := w / 2 ^ (32 * i) % 2 ^ 32
        if x = 0 then d else d.wr (Reg.ZXL_FVEC c i) (BitVec.ofNat 32 ((d.rd (Reg.ZXL_FVEC c i)).toNat ||| x))) d) d
    { d with zxl := { d.zxl with prevWin := d.zxl.win, win := Vector.replicate 7 0, winAt := d.now, winDue := false } }

/-- The last STATUS frame of a cycle is in: the slot pass acts, and a window that waited for it ends (R171, R223). -/
def Dev.passEnd (d : Dev) : Dev :=
  let d := if d.noz.newHot.isEmpty then d else d.passHot
  if d.zxl.winDue then d.faultWindowClose false else d

/-- A W1C write of ZXL_FVEC, in the class named by FSEL (R223). -/
def Dev.fvecClear (d : Dev) (w : Nat) (mask : Word) : Dev :=
  let c := d.get F.ZXL_FSEL_CLASS
  if c < 7 then d.wr (Reg.ZXL_FVEC c w) (d.rd (Reg.ZXL_FVEC c w) &&& ~~~mask) else d

/-! ### Endpoint commands (R224) -/

/-- Send the command in flight; where its lane has to leave L1 or L2 it waits, and its time counts from ACTIVE (R196). -/
def Dev.ecmdSend (d : Dev) (c : Ecmd) : Dev :=
  let c := d.cmdAt c
  ({ d with zxl := { d.zxl with ecmd := some c } } : Dev).emitCmd c

/-- A ZXL_ECMD write with OP 1 or 2: one command at a time. -/
def Dev.ecmdStart (d : Dev) (op ep reg : Nat) : Dev :=
  if d.zxl.ecmd.isSome then d
  else
    let d := ((d.set F.ZXL_ECMD_OP op).set F.ZXL_ECMD_EP ep).set F.ZXL_ECMD_REG reg
    let d := (d.set F.ZXL_ESTAT_RESULT 1).set F.ZXL_ESTAT_CODE 0
    let tag := (d.zxl.tag + 1) % 256
    let d : Dev := { d with zxl := { d.zxl with tag := tag } }
    let v := (d.rd Reg.ZXL_EDATA).toNat
    d.ecmdSend { lane := ep / 64, ep := ep, op := op, reg := reg, data := v, at_ := d.now, tries := 0, waiting := false, tag := tag,
                 words := if op = 2 then [v] else [] }

/-- OP 1 in every mode; in SHADOW only reads are sent (R233). -/
def Dev.ecmdRead (d : Dev) (ep reg : Nat) : Dev := d.ecmdStart 1 ep reg
def Dev.ecmdWrite (d : Dev) (ep reg : Nat) : Dev := if d.mode = .shadow then d else d.ecmdStart 2 ep reg

/-- OP 3: a broadcast write to a bar, which draws no RSP: it is done once it is sent, and acknowledged as R226 says. -/
def Dev.ecmdBroadcast (d : Dev) (b : Fin 12) (reg : Nat) : Dev :=
  if d.mode = .shadow || d.zxl.ecmd.isSome then d
  else
    let d := ((d.set F.ZXL_ECMD_OP 3).set F.ZXL_ECMD_EP b).set F.ZXL_ECMD_REG reg
    ((d.broadcast b reg none [(d.rd Reg.ZXL_EDATA).toNat]).set F.ZXL_ESTAT_RESULT 2).set F.ZXL_ESTAT_CODE 0

/-- The command in flight has ended. -/
def Dev.ecmdEnd (d : Dev) (c : Ecmd) (result code : Nat) : Dev :=
  let d : Dev := { d with zxl := { d.zxl with ecmd := none } }
  ((d.set F.ZXL_ESTAT_RESULT result).set F.ZXL_ESTAT_CODE code).lowPowerIdle (laneOf c.lane)

/-- The command awaits the RSP of a lane and TAG. -/
def Ecmd.awaits (c : Ecmd) (n tag : Nat) : Bool := c.lane = n && c.tag = tag && !c.waiting

/-- A command of the device has ended: with the last write of a bar's pending banks PREPARE goes out (R228). -/
def Dev.cmdEnd (d : Dev) (c : Ecmd) : Dev :=
  let d : Dev := { d with zxl := { d.zxl with cmds := d.zxl.cmds.filter fun x => x ≠ c } }
  (match c.bank with | some b => d.modePrepare (barOf b) | none => d).lowPowerIdle (laneOf c.lane)

/-- A correct RSP completes its command: the host's, or the device's. -/
def Dev.rspReceived (d : Dev) (n : Fin 18) (tag status : Nat) (word : Word) : Dev :=
  match d.zxl.ecmd.filter (·.awaits n tag), d.zxl.cmds.find? (·.awaits n tag) with
  | some c, _ =>
    let d := if c.op = 1 && status = 0 then d.wr Reg.ZXL_EDATA word else d
    d.ecmdEnd c (if status = 0 then 2 else 3) status
  | none, some c => d.cmdEnd c
  | none, none => d

/-- The time for a command's RSP has passed; an RSP of the same cycle, among those that wait, wins. -/
def Dev.cmdDue (d : Dev) (rsps : List (Nat × Nat)) (c : Ecmd) : Bool :=
  !c.waiting && decide (c.at_ + d.get F.ZXL_PCFG_CMD_TMO * 10000 ≤ d.now) && !rsps.any fun r => c.awaits r.1 r.2

/-- No correct RSP within CMD_TMO: up to 3 retries, then EP_NO_RESPONSE. -/
def Dev.cmdTimeout (d : Dev) (rsps : List (Nat × Nat)) : Dev :=
  let d := match d.zxl.ecmd.filter (d.cmdDue rsps) with
    | none => d
    | some c =>
      if c.tries < 3 then d.ecmdSend { c with tries := c.tries + 1 }
      else (d.ecmdEnd c 3 0xFF).raise Ev.EP_NO_RESPONSE 15 (some c.ep) [c.lane]
  (d.zxl.cmds.filter (d.cmdDue rsps)).foldl (fun d c =>
    if c.tries < 3 then ({ d with zxl := { d.zxl with cmds := d.zxl.cmds.filter fun x => x ≠ c } } : Dev).sendCmd { c with tries := c.tries + 1 }
    else (d.cmdEnd c).raise Ev.EP_NO_RESPONSE 15 (some c.ep) [c.lane]) d

/-! ### Resends, delays, mode changes, state pushes -/

/-- Pushes that have gone unacknowledged for 1 ms: a resend takes a new number; after 3 the endpoints are inhibited (R226). -/
def Dev.pushResend (d : Dev) (n : Fin 18) : Dev :=
  let due := (d.lane n).pushes.filter fun p => p.at_ + 1000000 ≤ d.now
  due.foldl (fun d p =>
    let d := d.modLane n fun l => { l with pushes := l.pushes.filter fun q => q.seq ≠ p.seq }
    if p.tries < 3 then d.push n p.eps (p.tries + 1) p.frame
    else p.eps.foldl (fun d ep =>
      let b := match d.epImg ep with | some e => e.bar | none => 15
      (d.inhibitEp ep 2).raise Ev.EP_PUSH_FAILED b (some ep) [n.val, d.lineSoon (barOf b) 1000 % 2 ^ 16]) d) d

/-- A pulse of DMEAS: every ACTIVE lane, in IDLE or CALIBRATE (R216). -/
def Dev.delayMeasure (d : Dev) : Dev :=
  if d.modeIn [.idle, .calibrate] then headLanes.foldl Dev.measureDelay d else d

/-- The chain delay of each endpoint in 1/16 ns: d = (T_ring − I − a) / 2, a the sum of v − u before it (R216). -/
def chainDelays (ring : Int) : List EpDelay → Int → List Int
  | [], _ => []
  | e :: r, a => (ring - e.i - a) / 2 :: chainDelays ring r (a + (e.v - e.u))

/-- Write an endpoint's new delay: plainly, or at the bar's first line issued at least so many ns from now (R216). -/
def Dev.setDelay (d : Dev) (e : EpImg) (v ns : Nat) : Dev :=
  let b := barOf e.bar
  let d := d.wr (Reg.ZXL_EPD_DELAY e.ep) (BitVec.ofNat 32 v)
  let d := if d.issues b then d.epCmd e.ep 3 epDelay (d.lineSoon b ns) [v] none else d.epWrite e.ep epDelay [v]
  d.releaseEp e.ep true

/-- The measurement ends with its last mark. A delay above 3,000 ns inhibits the endpoint, but for boot step 8 (R216). -/
def Dev.delayDone (d : Dev) (n : Fin 18) (ring : Int) (eps : List EpDelay) : Dev :=
  match (d.lane n).dmeas with
  | none => d
  | some t =>
    if d.now < t + 630000 || !d.active n then d
    else
      let d := d.modLane n fun l => { l with dmeas := none }
      ((chainDelays ring eps 0).zipIdx).foldl (fun d x =>
        match d.epImg (64 * n.val + x.2) with
        | none => d
        | some e =>
          if (48000 : Int) < x.1 then
            let d := d.raise Ev.EP_DELAY_LIMIT e.bar (some e.ep) [n.val, d.lineSoon (barOf e.bar) 1000 % 2 ^ 16, unsext 32 x.1]
            if d.mode = .boot then d else d.inhibitEp e.ep 3
          else d.setDelay e x.1.toNat (t + 1630000 - d.now)) d

/-- The endpoints whose acknowledgement of a bar's change a STATUS frame carries (R228). -/
def Dev.prepAcks (d : Dev) (b : Fin 12) : Instr → List Nat
  | .statusFrameReturn n _ true slots =>
    match d.mchg b with
    | some m => slots.zipIdx.filterMap fun s =>
        if Nat.testBit s.1.toNat 63 && Nat.testBit s.1.toNat 23 && slotBits s.1 24 8 = m.epoch % 256 then some (64 * n.val + s.2) else none
    | none => []
  | _ => []

/-- An acknowledgement is missing at DEADLINE (R230); those that arrive in the same cycle count. -/
def Dev.modeDeadline (d : Dev) (b : Fin 12) (acks : List Nat) : Dev :=
  match d.mchg b with
  | some m =>
    if m.prepared && !m.aborting && !d.modeAcked b { m with acked := m.acked ++ acks } && decide (m.at_ + d.mchgDeadline * 1000000 ≤ d.now) then d.modeAbort b else d
  | none => d

/-- The abort ends at the issue of line L − GUARD, or 1 ms after it began where the bar issues no lines (R230). -/
def Dev.modeAbortOver (d : Dev) (b : Fin 12) : Dev :=
  match d.mchg b with
  | some m =>
    let excess := if m.commit || !d.issues b then decide (m.at_ + 1000000 ≤ d.now)
      else decide (m.l ≤ d.get (F.ZXL_BAR_WIRE_COUNT b) + d.mchgGuard)
    if m.aborting && excess then d.modeAbortEnd b else d
  | none => d

/-- Every 10 ms the full state goes to an inhibited endpoint (R231), in the modes that send CMD frames (R233); a delay beyond its limit draws
no push (R216). -/
def Dev.statePush (d : Dev) (ep : Nat) : Dev :=
  match d.inhOf ep false, d.epImg ep with
  | some i, some e =>
    if d.sendsCmd && decide (i.at_ + 10000000 ≤ d.now) then
      let f (j : EpInh) : EpInh := if j.ep = ep && j.cause ≠ 3 then { j with at_ := d.now } else j
      ({ d with zxl := { d.zxl with inh := d.zxl.inh.map f } } : Dev).fullPush e
    else d
  | _, _ => d

end Sys2Proof.Machine
end

