-- ==== Sys2Proof/Machine/Ltc.lean ====
section
/-!
DEFINITION. The commands of the line timing block (spec/03_line_timing.md, R60 to R87; R215 for row B): issue, fire instant and
strobe end of lines, direct outputs, offsets and compare channels. Each function is one command of the family, on the block.
-/
namespace Sys2Proof.Machine

/-- Names of pins in the record of outputs. -/
abbrev pinCmpOut : Nat := 1
abbrev pinCamExp : Nat := 2

/-! ### Issue (R66, R67, R76, R149, R210, R215, R340) -/

/-- Lines pass their issue point: in PRINT and SHUTTLE while no transition is in progress (R22's example), and in SHADOW unless the
mirrored mode is HOLD (R340). -/
def Dev.linesRun (d : Dev) : Bool :=
  d.frz.isNone && ((d.printing && d.sys.trans.isNone) || (d.mode = .shadow && d.get F.DPX_STATUS_PMODE ≠ 5))

/-- A line whose issue falls below the turnaround speed is skipped and counted (R76). -/
def Dev.turnSkip (d : Dev) (b : Fin 12) (p : LinePos) : Dev :=
  (d.addSat (F.LTC_BAR_GATED_COUNT b) 1).modBar b fun s =>
    { s with skips := s.skips + 1, next := s.after (s.next + 1), lastLine := some p, heldAt := none,
             car := s.car.filter fun t => t.pos ≠ p, starved := s.starved.filter fun q => q ≠ p }

/-- Values that apply from a line: strobe width and derating, with EP_STROBE at the line, and the overrides of an out bank
(R73, R74, R165, R225). -/
def Dev.lineFields (d : Dev) (b : Fin 12) (p : LinePos) (k wire : Nat) : Dev :=
  let ob := d.effGet (F.NOZ_BAR_CFG_OUT_BANK b)
  let d := d.foldTl b p
  let steps := (d.bar b).derAt.filter fun x => decide (x.2 ≤ wire)
  let d := d.modBar b fun s => { s with derAt := s.derAt.filter fun x => !decide (x.2 ≤ wire) }
  let d := steps.foldl (fun (d : Dev) x => d.derApply b x.1 k) d
  let d := (d.showWidth b).sendWidth b wire
  let nb := d.effGet (F.NOZ_BAR_CFG_OUT_BANK b)
  if nb = ob then d else d.sendMask b wire (d.bankChange b ob nb)

/-- The fire instant: 4 µs after issue, or when the clock is predicted to reach k, whichever is later; 4 µs where the gate came
last or a correction moved the count past the issue point (R67). -/
def Dev.fireTime (d : Dev) (b : Fin 12) (k : Nat) : Nat :=
  let s := d.bar b
  if s.heldAt.isSome || s.moved || s.inc = 0 then d.now + 4000
  else
    let dist := if d.descending then s.count - k * lineOne else k * lineOne - s.count
    d.now + max 4000 (roundDiv (dist * 10) s.inc).toNat

/-- Send a FIRE block on every lane of the bar that carries it and whose endpoints hold EP_STROBE (R73, R206, R215). -/
def Dev.sendFire (d : Dev) (b : Fin 12) (row wire at_ : Nat) : Dev :=
  (d.lanesOf b).foldl (fun d n =>
    if d.carries n && (d.lane n).ready then
      d.emitOn n (.fire n.val b.val row (wire % 2 ^ 16) at_ (!(d.stbOf b).isEmpty) (d.laneAbt n))
    else d) d

/-- The distance of row B in 1/64 line (R159). -/
def Dev.rowBDist (d : Dev) (b : Fin 12) : Nat := d.get (F.NOZ_BAR_ROWB_LINES b) * 64 + d.get (F.NOZ_BAR_ROWB_PHASE b)

/-- Note the row B FIRE of an issued line: its gate position and its instant at the bar's rate (R215). -/
def Dev.noteRowB (d : Dev) (b : Fin 12) (e : Entry) (p : LinePos) (wire fireAt : Nat) : Dev :=
  match d.dual b, d.firePos b e p with
  | true, some f =>
    let x := d.rowBDist b
    let nm : Int := x * e.pitch / 64
    let f' := (((f : Int) + (if d.descending then -nm else nm)) % (fireMod : Int)).toNat
    let inc := (d.bar b).inc
    let t := if inc = 0 then 0 else x * 2 ^ 32 * 10 / (64 * inc)
    d.modBar b fun s => { s with rowB := s.rowB ++ [{ wire := wire, f := f', fireAt := fireAt + t }] }
  | _, _ => d

/-- A line that is not committed at its issue starves (R149); it counts in STARVED as it fires (R436). -/
def Dev.starve (d : Dev) (b : Fin 12) (p : LinePos) (k : Nat) : Dev :=
  let screened := match (d.bar b).scr with | some q => p.le q | none => false
  let d := d.modBar b fun s =>
    { s with starved := if screened || s.starved.contains p then s.starved else s.starved ++ [p],
             car := s.car.filter fun t => t.pos ≠ p }
  d.raiseC Ev.CAROUSEL_STARVED b b.val none [b.val, p.seq, k, 1] 1 [(3, 1)]

/-- A line passes its issue point without being sent or fired: in SHADOW, or in the gap after a take-over (R340, R346). -/
def Dev.linePassed (d : Dev) (b : Fin 12) (e : Entry) (p : LinePos) (wire : Nat) : Dev :=
  let from_ := d.dpx.pFired.getD b.val 0
  d.modDpxBar b fun s => { s with passed := (s.passed.filter fun x => from_ < x.1) ++ [(wire, (d.firePos b e p).getD 0)] }

/-- The first line issues after a take-over: the gap of the bar is reported (R346). -/
def Dev.gapEnd (d : Dev) (b : Fin 12) (wire : Nat) : Dev :=
  let s := d.dpx.bars[b]
  if s.gap.isNone then d
  else
    let first := d.dpx.pFired.getD b.val 0 + 1
    let n := wire - first
    let f (w : Nat) : Nat := ((s.passed.find? fun x => x.1 = w).map (·.2)).getD 0 / 2 ^ 8
    let d := (d.modDpxBar b fun s => { s with gap := none, passed := [] }).set (F.DPX_BAR_GAP_LINES b) (min 0xFFFF n)
    if n = 0 then d
    else d.raise Ev.DPX_GAP b.val none [b.val, first, n, f first % 2 ^ 32, f first / 2 ^ 32, f (wire - 1) % 2 ^ 32, f (wire - 1) / 2 ^ 32]

/-- A line whose issue point falls in the gap after a take-over is not issued; its issue count passes. -/
def Dev.gapLine (d : Dev) (b : Fin 12) (p : LinePos) (e : Entry) : Dev :=
  let wire := d.get (F.ZXL_BAR_WIRE_COUNT b) + 1
  let d := (d.set (F.ZXL_BAR_WIRE_COUNT b) wire).linePassed b e p wire
  (d.modBar b fun s => { s with next := s.after (s.next + 1), lastLine := some p, heldAt := none, car := s.car.filter fun t => t.pos ≠ p,
                                starved := s.starved.filter fun q => q ≠ p }).commitDue b

/-- Issue a line: wire number, FIRE blocks, commit of the lines then due (R67, R148, R210). -/
def Dev.issueLine (d : Dev) (b : Fin 12) (p : LinePos) (e : Entry) : Dev :=
  let k := d.kOf p
  let shadow := d.mode = .shadow
  let wire := d.get (F.ZXL_BAR_WIRE_COUNT b) + 1
  let d := d.lineFields b p k wire
  let slot := (d.bar b).car.find? fun s => s.pos = p && s.committed
  let d := match slot with
    | some s => if s.sent || shadow then d else d.sendLine b s
    | none => d
  let at_ := d.fireTime b k
  let d := d.set (F.ZXL_BAR_WIRE_COUNT b) wire
  let d : Dev := if shadow then d.linePassed b e p wire else ((d.gapEnd b wire).sendFire b 0 wire at_).noteRowB b e p wire at_
  let found := match slot with
    | some s => (s.bad, s.placed, s.lost)
    | none => match (d.bar b).lateRes.find? fun (x : LinePos × Nat × Nat × Nat) => x.1 = p with | some x => x.2 | none => (0, 0, 0)
  let line : Issued :=
    { pos := p, k := k, wire := wire, fireAt := at_, fired := false, endAt := 0, empty := slot.isNone,
      bad := found.1, placed := found.2.1, lost := found.2.2 }
  let d := d.modBar b fun s =>
    { s with issued := s.issued ++ [line], lateRes := s.lateRes.filter fun x => p.lt x.1,
             lastLine := some p, lastK := k, firstLine := some (s.firstLine.getD p), next := s.after (s.next + 1), heldAt := none, moved := false, gatedEvt := false }
  let d := d.set (F.JOB_BAR_STATE_STATE b) 1
  let d := if slot.isNone then d.starve b p k else d
  d.commitDue b

/-- After a bar's last line: the copy is passed. -/
def Dev.checkPassed (d : Dev) (b : Fin 12) : Dev :=
  match d.curEntry b with
  | some (e, c) => if (d.bar b).issued.isEmpty && d.copyOver b e c && e.has b c then d.copyPassed b e.seq c else d
  | none => d

/-- An ordinary buoy falls, unless a start buoy of the same cycle drops it (R62, R65). -/
def Dev.buoyFall (d : Dev) (b : Fin 12) : Dev := if d.clocksRun && d.buoyDue b && !d.boundaryDue b then d.buoy b else d

/-- LINE_ISSUE: the count has reached the issue point, the gate is open, and no issued line still awaits its fire instant. -/
def Dev.lineIssue (d : Dev) (b : Fin 12) : Dev :=
  match d.dueLine b with
  | none => d
  | some (p, e) =>
    let s := d.bar b
    if !d.linesRun || !d.reached b (d.kOf p) || !d.gateOpen b p e || decide (2 ≤ s.issued.length) || s.issued.any (!·.fired) then d
    else if d.shuttling && decide (d.get F.POS_SPEED_SPEED < d.get F.LTC_SHU_MINSPD_SPEED) then (d.turnSkip b p).checkPassed b
    else if (match d.dpx.bars[b].gap with | some t => decide (d.now < t) | none => false) then d.gapLine b p e
    else d.issueLine b p e

/-- LINE_GATED: held for 1 ms without interruption, once until a line issues (R66). -/
def Dev.lineGated (d : Dev) (b : Fin 12) : Dev :=
  let s := d.bar b
  match s.heldAt, d.dueLine b with
  | some t, some (p, _) =>
    if d.clocksRun && d.held b && decide (t + 1000000 ≤ d.now) && !s.gatedEvt then
      (d.modBar b fun s => { s with gatedEvt := true }).raise Ev.LINE_GATED b.val none [b.val, d.kOf p]
    else d
  | _, _ => d

/-- ROW_B_FIRE_ISSUE: the row B instant less 4 µs has come and its own gate is open; behind the gate it fires 4 µs later (R215). -/
def Dev.rowBFireIssue (d : Dev) (b : Fin 12) : Dev :=
  match (d.bar b).rowB with
  | [] => d
  | r :: rest =>
    if d.modeIn [.print, .shuttle, .hold] && decide (r.fireAt ≤ d.now + 4000) && d.gateAt r.f (d.get (F.LTC_BAR_PITCH_ACT_PITCH b)) then
      (d.sendFire b 1 r.wire (max r.fireAt (d.now + 4000))).modBar b fun s => { s with rowB := rest }
    else d

/-! ### Fire instant and strobe end (R68, R78, R173) -/

/-- The gains of a bar's bank in effect: as loaded, else as the bank holds them (R140). -/
def Dev.gainTable (d : Dev) (b : Fin 12) : List Nat :=
  match (d.bar b).gain with
  | some (_, t) => t
  | none =>
    let base := d.gainBase + (2 * b.val + d.effGet (F.SCR_BAR_CFG_GAIN_BANK b)) * 122880
    (d.bytes base 122880).map (·.toNat)

/-- Positions of a bar whose gain a band leaves alone: the spread set, and spans under INHIBIT (R278). -/
def Dev.keepGain (d : Dev) (b : Fin 12) : List Nat :=
  let hs := d.noz.heads.filter fun h => h.img.bar = b.val && h.span = 1
  d.spreadSet b (d.effGet (F.NOZ_BAR_CFG_OUT_BANK b)) ++ hs.flatMap fun h => (List.range h.img.count).map (h.img.first + ·)

/-- A band's line has fired: its first and last are noted, with how many fired as screened (R275), and what the update leaves alone
(R278). -/
def Dev.bandFired (d : Dev) (b : Fin 12) (i : Issued) : Dev :=
  if i.pos.copy % 2 = 0 then d
  else
    let n := ((d.entry i.pos.seq).map fun e => e.lines i.pos.copy).getD 0
    let last := decide (n ≤ i.pos.idx + 1)
    let d : Dev := { d with den := { d.den with bands := d.den.bands.map fun x =>
      if x.seq = i.pos.seq ∧ x.copy = i.pos.copy / 2 then
        { x with started := true, fired := x.fired || last, okLines := x.okLines + (if i.empty then 0 else 1),
                 gains := if x.started then x.gains else d.gainTable b,
                 keep := if x.started && !last then x.keep else x.keep ++ d.keepGain b }
      else x } }
    if last then d.addSat (F.DEN_BAR_BANDS_BANDS b) 1 else d

/-- What a fired line adds to the counters of starved, poisoned and failed lines and of spread dots: every counter counts fired lines
only (R116, R132, R149, R167, R436). -/
def Dev.countFired (d : Dev) (b : Fin 12) (i : Issued) : Dev :=
  let d := d.addSat (F.SCR_BAR_STARVED_LINES b) i.empty.toNat
  d.countLine b i.k i.bad i.placed i.lost

/-- The strobe of a line ends: the line counts as fired and as printed (R68, R160). -/
def Dev.lineFired (d : Dev) (b : Fin 12) (i : Issued) : Dev :=
  let d := d.modBar b fun s => { s with issued := s.issued.filter fun x => x.wire ≠ i.wire, firedAt := some d.now }
  let d := d.wr (Reg.LTC_BAR_LINE b) (BitVec.ofNat 32 i.k)
  let d := d.modDpx fun x => { x with fired := x.fired.set b i.wire }
  let d := d.wrPair (Reg.JOB_BAR_PRINTED_LO b) (Reg.JOB_BAR_PRINTED_HI b)
    ((d.pair (Reg.JOB_BAR_PRINTED_LO b) (Reg.JOB_BAR_PRINTED_HI b) + 1) % 2 ^ 48)
  (((d.countFired b i).countHeads b).bandFired b i).stbEnd b

/-- A line that fires is kept for the coverage of the modules that follow its bar, whether they take their levels from it yet or not, until
the web has carried it past them all; one that starved counts as empty (R295). -/
def Dev.noteCov (d : Dev) (b : Fin 12) (i : Issued) : Dev :=
  let mods := (List.range 16).filter fun m => Nat.testBit (d.effGet F.LMP_CFG_MODS) m && d.effGet (F.LMP_MOD_CFG_BAR m) = b.val
  let ahead (x : CovLine) : Bool := mods.any fun m =>
    decide (0 ≤ diff56 x.x (((((d.pos.web / 2 ^ 24 : Nat) : Int) - (d.effRd (Reg.LMP_MOD_OFS m)).toNat) % (webMod : Int)).toNat * 2 ^ 8))
  match d.entry i.pos.seq with
  | some e =>
    match d.firePos b e i.pos with
    | some f =>
      if !mods.isEmpty && d.effBit F.LMP_CFG_EN && d.modeIn [.print, .hold] then
        let x := ((f : Int) - (d.rd (Reg.LTC_BAR_OFFSET b)).toNat * 2 ^ 8) % (fireMod : Int)
        let levels := (((d.bar b).car.find? fun t => t.pos = i.pos).map (·.levels)).getD []
        { d with lmp := { d.lmp with cov := upd d.lmp.cov b fun l => l.filter ahead ++ [{ x := x.toNat, levels := if i.empty then [] else levels }] } }
      else d
    | none => d
  | none => d

/-- The CK9 edge nearest a fire instant (R78). -/
def nearEdge (t : Nat) : Nat := (t + 5) / 10 * 10

/-- FIRE_INSTANT: the previous strobe ends where it still runs, the slot is freed, outputs rise on the CK9 edge nearest the instant. In
SHADOW the line only leaves the carousel (R340). -/
def Dev.fireInstant (d : Dev) (b : Fin 12) : Dev :=
  match (d.bar b).issued.find? fun i => !i.fired && decide (nearEdge i.fireAt ≤ d.now) with
  | none => d
  | some i =>
    let free (d : Dev) : Dev := d.modBar b fun s => { s with car := s.car.filter fun t => t.pos ≠ i.pos }
    if d.mode = .shadow then
      ((((free d).lineReaches b i.pos).modBar b fun s => { s with issued := s.issued.filter fun x => x.wire ≠ i.wire }).commitDue b).checkPassed b
    else
      let prev := (d.bar b).issued.find? fun x => x.fired
      let d := match prev with | some x => d.lineFired b x | none => d
      let late := match prev with | some x => decide (d.now < x.endAt) | none => false
      let d := (free (d.noteCov b i)).stbRise b i.k late
      let w := d.get (F.LTC_BAR_STATUS_WIDTH_ACT b) * 10 + (if late then 10 else 0)
      let d := d.modBar b fun s => { s with issued := s.issued.map fun x =>
        if x.wire = i.wire then { x with fired := true, endAt := d.now + w } else x }
      (((d.modeFired b i.wire).spansAt b i.wire).lineReaches b i.pos).commitDue b

/-- STROBE_END: the width in effect has passed. -/
def Dev.strobeEnd (d : Dev) (b : Fin 12) : Dev :=
  match (d.bar b).issued.find? fun i => i.fired && decide (i.endAt ≤ d.now) with
  | none => d
  | some i => (d.lineFired b i).checkPassed b

/-- STB_CUT_CLEAR: a write of 1 clears CUT bits. -/
def Dev.stbCutClear (d : Dev) (mask : Word) : Dev := d.wr Reg.LTC_STB_STATUS (d.rd Reg.LTC_STB_STATUS &&& ~~~mask)

/-! ### Offsets and the compare pool (R71, R81) -/

def Dev.ltcRefused (d : Dev) (unit off : Nat) : Dev := d.raise Ev.LTC_SET_REFUSED 15 none [unit, 0, off]

/-- OFFSET_WRITE. -/
def Dev.offsetWrite (d : Dev) (b : Fin 12) (desc : Bool) (v : Word) : Dev :=
  let a := if desc then Reg.LTC_BAR_OFFSET_D b else Reg.LTC_BAR_OFFSET b
  if d.modeIn [.idle, .calibrate] && decide (v.toNat ≤ 4000000000) then d.wr a v else d.ltcRefused b (a % 0x100000)

/-- A pool entry lies in the range in effect of a channel that is not off. -/
def Dev.poolInUse (d : Dev) (i : Nat) : Bool :=
  (List.finRange 32).any fun n =>
    let (base, len) := d.cmpRange n
    d.get (F.LTC_CMP_CFG_MODE n) ≠ 0 && decide (base ≤ i) && decide (i < base + len)

/-- CMP_POOL_WRITE: the pair acts at its high word (R6); inside a running list it is discarded. DESIGN CHOICE (log 62): the bits that R80
calls "Reserved, 0" are stored as written, since the register's row gives ENTRY as RW [31:0]. -/
def Dev.cmpPoolWrite (d : Dev) (i : Nat) (hi : Word) : Dev :=
  let a := Reg.LTC_CMP_POOL_LO i
  if d.poolInUse i then
    let n := ((List.finRange 32).find? fun n =>
      let (base, len) := d.cmpRange n
      d.get (F.LTC_CMP_CFG_MODE n) ≠ 0 && decide (base ≤ i) && decide (i < base + len)).map (·.val)
    (d.wr a (d.effRd a)).ltcRefused (n.getD 0) (Reg.LTC_CMP_POOL_HI i % 0x100000)
  else (d.wr (Reg.LTC_CMP_POOL_HI i) hi).effWr a (d.rd a)

/-! ### Crossings (R82 to R85, R273) -/

/-- The density loop drives the channel: its MODE and LIST are ignored (R273). -/
def Dev.denDriven (d : Dev) (n : Fin 32) : Bool :=
  d.effBit F.DEN_CFG_EN && d.effBit F.DEN_CFG_TRIG_EN && d.effGet F.DEN_CFG_TRIG_CMP = n.val

/-- The web coordinate of a band's camera trigger. -/
def Dev.denTrigAt (d : Dev) (x : DenBand) : Nat :=
  (((x.y0 / 2 ^ 8 : Nat) : Int) + (d.effRd Reg.DEN_CAM_OFS).toNat - (d.rd Reg.DEN_TRIG_PRE).toNat).toNat % webMod

/-- Bands whose trigger the coordinate has crossed. -/
def Dev.denCrossed (d : Dev) (n : Fin 32) (x : Nat) : List DenBand :=
  d.den.bands.filter fun y => !y.trig && !crossed false d.cmp[n].x (d.denTrigAt y) && crossed false x (d.denTrigAt y)

/-- The lamp block drives the channel (R292). -/
def Dev.lampDriven (d : Dev) (n : Fin 32) : Bool := d.effBit F.LMP_CFG_EN && d.effGet F.LMP_CFG_LATCH_CMP = n.val

/-- Latch coordinates that have been crossed. -/
def Dev.lampCrossed (d : Dev) (n : Fin 32) (x : Nat) : List Nat :=
  d.lmp.coords.filter fun c => !crossed false d.cmp[n].x c && crossed false x c

/-- CMP_CROSSING: entries crossed in one evaluation move the pointer and make one pulse; whether one started. -/
def Dev.cmpCross (d : Dev) (n : Fin 32) : Dev × Bool :=
  if !d.cmpRuns then (d, false)
  else
    let x := d.cmpX n
    let owed := d.cmp[n].owed
    let (d, k) :=
      if d.denDriven n then
        let ys := d.denCrossed n x
        (({ d with den := { d.den with bands := d.den.bands.map fun y => if ys.contains y then { y with trig := true } else y } } : Dev), ys.length)
      else if d.lampDriven n then
        let cs := d.lampCrossed n x
        (({ d with lmp := { d.lmp with coords := d.lmp.coords.filter fun c => !cs.contains c } } : Dev), cs.length)
      else if d.cmpMode n = 0 then (d, 0)
      else d.cmpWalk n x 16385 0
    let d := d.modCmp n fun c => { c with x := x, owed := 0 }
    if k + owed = 0 then (d, false) else (d.cmpPulse n (k + owed), true)

/-- The level of a CMPOUT ball during and outside a pulse. -/
def Dev.cmpLevel (d : Dev) (n : Fin 32) (on : Bool) : Bool := on != d.bit (F.LTC_CMP_CFG_POL n)

/-- A band request of a bar (R272). -/
def Dev.bandRequest (d : Dev) (b : Nat) : Dev := d.set ⟨Reg.DEN_STATUS, 12 + b % 12, 1⟩ 1

/-- Where a started pulse goes, but for cameras and the lamp bus (R85). In SHADOW outputs are held inactive (R77), and bands are the
ringmaster's to decide. -/
def Dev.cmpRoute (d : Dev) (n : Fin 32) : Dev :=
  if d.mode = .shadow then d
  else
    match d.cmpTarget n with
    | 1 => d.emit (.pin pinCmpOut (d.effGet (F.LTC_CMP_CFG_PIN n)) (d.cmpLevel n true))
    | 7 => d.bandRequest (d.effGet (F.LTC_CMP_CFG_BAR n))
    | _ => d

/-- CMP_PULSE_END. -/
def Dev.cmpPulseEnd (d : Dev) (n : Fin 32) : Dev :=
  match d.cmp[n].pulse with
  | some t =>
    if t ≤ d.now then
      let d := d.modCmp n fun c => { c with pulse := none }
      if d.cmpTarget n = 1 && d.mode != .shadow then d.emit (.pin pinCmpOut (d.effGet (F.LTC_CMP_CFG_PIN n)) (d.cmpLevel n false)) else d
    else d
  | none => d

end Sys2Proof.Machine
end

