-- ==== Sys2Proof/Machine/RunCmd.lean ====
section
/-!
DEFINITION. The commands of the codec, the screening pipeline and the rows and nozzles (spec/05_block_code.md R131 to R134,
spec/06_screening.md R140 to R157, spec/07_rows_and_nozzles.md R164 to R176). Each function is one command, on the block.
-/
namespace Sys2Proof.Machine

/-! ### Block rows (R131 to R133) -/

/-- The block rows a reader takes for a line: those it needs, and the next one in printing order. -/
def Dev.rowsWanted (d : Dev) (b : Fin 12) (e : Entry) (p : LinePos) : List Nat :=
  let need := d.rowsNeeded b e p
  let more := if e.desc_ then need.map (· - 1) else need.map (· + 1)
  (need ++ more).filter fun r => decide (r < e.desc.nrows)

/-- A failing block row: recorded and reported, each row one occurrence (R132, R135); its lines count as they fire (R436). -/
def Dev.rowBad (d : Dev) (b : Fin 12) (p : LinePos) (row first n code : Nat) : Dev :=
  let d := (d.set F.CDC_ERR_LAST_CODE code).set F.CDC_ERR_LAST_BAR b
  let d := (d.wr Reg.CDC_ERR_ROW (BitVec.ofNat 32 row)).wr Reg.CDC_ERR_SEQ (BitVec.ofNat 32 p.seq)
  d.raiseC Ev.CDC_ROW_BAD b b.val none [b.val, p.seq, p.copy / 2, first, n, code] 1 [(4, n)]

/-- Decode a block row of the bar's current copy into decode staging: poison first, then the checks of R131. Rows of another copy,
and decoded rows that the printing order has left, are dropped; that a row failed stays known, so that a copy counts it once. -/
def Dev.decodeRow (d : Dev) (b : Fin 12) (e : Entry) (p : LinePos) (row : Nat) : Dev :=
  let j := e.desc
  let w := srcWidth j
  let a := j.plane b + row * j.stride
  let slot := d.bytes a j.stride
  let (first, n) := rowPrintLines j row
  let ext := rowExtent slot j.stride (blocksOf w) (blocksOf w + 1) 0 0
  let poison := d.poisonedIn a (max 1 ext)
  let (d, lines) : Dev × Option (List (List Nat)) :=
    if poison then (d.jobPoison b p first n, none)
    else
      match decRow slot j.stride w with
      | .ok blks => (d, some (blockLines w blks))
      | .error c => (d.rowBad b p row first n c, none)
  let need := d.rowsNeeded b e p
  let keep (t : Staged) : Bool :=
    t.seq = p.seq && t.copy = p.copy &&
      (t.lines.isNone || (if e.desc_ then decide (t.row ≤ need.foldl max 0) else decide (need.foldl min t.row ≤ t.row)))
  d.modBar b fun s =>
    { s with staging := (s.staging.filter keep) ++ [{ seq := p.seq, copy := p.copy, row := row, lines := lines, poison := poison }] }

/-- BLOCK_ROW_DECODE: a row that the bar's next line needs, or the row after, not yet in staging. -/
def Dev.blockRowDecode (d : Dev) (b : Fin 12) (row : Nat) : Dev :=
  if !d.screens then d
  else
    match d.nextScr b with
    | none => d
    | some p =>
      match d.entry p.seq with
      | none => d
      | some e =>
        if e.desc.cls = 0 && p.copy % 2 = 0 && (d.rowsWanted b e p).contains row && (d.stagedRow b p row).isNone then d.decodeRow b e p row
        else d

/-- CDC_CNT_CLR. -/
def Dev.cdcCntClr (d : Dev) : Dev := d.zeroCounts (allBars.map fun (b : Fin 12) => F.CDC_BAR_BAD_LINES b)

/-! ### Screening (R140, R150 to R153, R157) -/

/-- SCREEN_LINE: the array serves the bar's next line. -/
def Dev.screenNext (d : Dev) (b : Fin 12) : Dev :=
  match d.served, d.canScreen b with
  | some (x, c), some p =>
    if x = b && (c = 2 || c = 4) then
      match d.entry p.seq with
      | some e => d.screenLine b p e
      | none => d
    else d
  | _, _ => d

/-- CHECKPOINT_COPY: the working row becomes the committed row, and screening resumes (R150). -/
def Dev.checkpointCopy (d : Dev) (b : Fin 12) : Dev :=
  match d.served with
  | some (x, c) =>
    if x = b && c = 1 then
      match (d.bar b).scr with
      | some p => d.ckptCopy b p
      | none => d
    else d
  | none => d

/-- REPLAY_LINE. -/
def Dev.replayNext (d : Dev) (b : Fin 12) : Dev :=
  match d.served with
  | some (x, c) => if x = b && c = 3 then d.replayLine b else d
  | none => d

/-- GAIN_LOAD: a set changed the bank or GAIN_EN, or the bar's next line needs the table of a bank that the tile memory does not hold. -/
def Dev.gainLoad (d : Dev) (b : Fin 12) : Dev :=
  if !d.screens || (d.bar b).replaying then d
  else
    match d.nextScr b with
    | none => d
    | some p =>
      match d.entry p.seq with
      | none => d
      | some e =>
        match d.gainDue b e p with
        | some (q, g) => d.loadGain b g q
        | none => d

/-- The bar and matrix of SCR_MAT_SEL; a selector that names no bar reaches nothing. -/
def Dev.matSel (d : Dev) : Option (Fin 12 × Nat) :=
  let b := d.get F.SCR_MAT_SEL_BAR
  if h : b < 12 then some (⟨b, h⟩, d.get F.SCR_MAT_SEL_MAT) else none

/-- MATRIX_WRITE: the pair of a cell acts at its high word; a busy matrix refuses it (R142). -/
def Dev.matrixWrite (d : Dev) (x y : Nat) (hi : Word) : Dev :=
  match d.matSel with
  | none => d
  | some (b, m) =>
    let a := matCell b m (128 * y + x)
    if d.matBusy b m then
      (d.wr a (d.effRd a)).raise Ev.SCR_WRITE_REFUSED b.val none [b.val, 0, 0, m]
    else (d.wr (a + 4) (BitVec.ofNat 32 (hi.toNat % 2 ^ 12))).effWr a (d.rd a)

/-- SCR_CNT_CLR. -/
def Dev.scrCntClr (d : Dev) : Dev :=
  d.zeroCounts (allBars.flatMap fun (b : Fin 12) => [F.SCR_BAR_ROLLBACK_LINES b, F.SCR_BAR_ROLLBACK_COUNT b, F.SCR_BAR_STARVED_LINES b])

/-! ### Rows and nozzles (R166, R170 to R176) -/

/-- NOZ_WRITE_REFUSED with the register offset, and the record index of the head, where one applies (R177). -/
def Dev.nozRefused (d : Dev) (bar h off : Nat) : Dev := d.raise Ev.NOZ_WRITE_REFUSED bar none [bar + h * 2 ^ 16, 0, off % 0x100000]

/-- OUT_BANK_WRITE: an entry of a bank, or with none its length; a busy bank refuses it (R166). Position overrides that a write to the
bank in effect changes go out from the bar's next line (R163, R165, R175). DESIGN CHOICE (log 62): the bits that R164 calls "Reserved, 0"
are stored as written, since the register's row gives ENTRY as RW [31:0]. -/
def Dev.outBankWrite (d : Dev) (b : Fin 12) (bank : Nat) (i : Option Nat) (v : Word) : Dev :=
  let len := if bank = 0 then Reg.NOZ_BAR_OUTN0 b else Reg.NOZ_BAR_OUTN1 b
  if d.outBusy b bank then
    d.nozRefused b 0 (match i with | some i => 0xA04000 + 4 * i | none => len)
  else
    let w := match i with
      | some i => d.wr (Reg.NOZ_OUT_WIN (2 * b.val + bank) i) v
      | none => d.wr len (BitVec.ofNat 32 (v.toNat % 2 ^ 13))
    if d.effGet (F.NOZ_BAR_CFG_OUT_BANK b) ≠ bank then w
    else w.sendMask b (w.lineSoon b 1000) (overrideDiff (d.bankOverrides b bank) (w.bankOverrides b bank))

/-- The bit of a head sets again in this cycle: a STATUS frame that waits says so (R170). -/
def HeadSt.setsIn (h : HeadSt) (hot : List (Nat × Nat)) : Bool := hot.contains (h.img.ep, h.img.slot)

/-- OVT_RELEASE: the head's bit has read clear for OVT_REL ms; one that sets again in the same cycle, among those that wait, wins. -/
def Dev.ovtRelease (d : Dev) (h : Nat) (hot : List (Nat × Nat)) : Dev :=
  let rel := d.get F.NOZ_CFG_OVT_REL
  match d.head h with
  | some x =>
    match x.clearAt with
    | some t => if rel ≠ 0 && x.inhibit && !x.ovt && !x.setsIn hot && d.sendsMask && decide (t + rel * 1000000 ≤ d.now) then d.headCool h else d
    | none => d
  | none => d

/-- OVT_CLR: every head whose bit reads clear. -/
def Dev.ovtClr (d : Dev) (hot : List (Nat × Nat)) : Dev :=
  if d.sendsMask then (d.noz.heads.filter fun x => x.inhibit && !x.ovt && !x.setsIn hot).foldl (fun d x => d.headCool x.img.h) d else d

/-- NOZ_HEAD_ACT_WRITE: the high word of the count of the head of NOZ_HEAD_SEL, in IDLE only (R172). -/
def Dev.headActWrite (d : Dev) (hi : Word) : Dev :=
  let h := d.get F.NOZ_HEAD_SEL_HEAD
  match d.head h with
  | some x =>
    if d.mode = .idle then
      d.modHead h fun y => { y with ctr := (d.rd Reg.NOZ_HEAD_ACT_LO).toNat + hi.toNat % 2 ^ 16 * 2 ^ 32 }
    else d.nozRefused x.img.bar h Reg.NOZ_HEAD_ACT_HI
  | none => if d.mode = .idle then d else d.nozRefused 15 h Reg.NOZ_HEAD_ACT_HI

/-- LIFE_PERSIST: every 30 minutes (R174); the other occasions persist within their own commands. -/
def Dev.lifePersist (d : Dev) : Dev :=
  if d.noz.lastPersist + 1800000000000 ≤ d.now then
    ({ d with noz := { d.noz with lastPersist := d.now } } : Dev).saveHeads 0
  else d

/-- NOZ_CNT_CLR. -/
def Dev.nozCntClr (d : Dev) : Dev := d.zeroCounts (allBars.flatMap fun (b : Fin 12) => [F.NOZ_BAR_LOST_DOTS b, F.NOZ_BAR_SPREADS_DOTS b])

end Sys2Proof.Machine
end

