-- ==== Sys2Proof/Machine/JobCmd.lean ====
section
/-!
DEFINITION. The commands of the job block and of the commit registers (spec/04_jobs.md, R95 to R113, R130): the schedule ring,
ingest channels and capture. Each function is one command of the family, or a part of one. CONFIG_COMMIT is in Commit.lean.
-/
namespace Sys2Proof.Machine

/-! ### The ring (R95, R101) -/

/-- SCHED_RESET: in IDLE. -/
def Dev.schedReset (d : Dev) : Dev :=
  if d.mode = .idle then
    let d := ((d.wr Reg.JOB_SCHED_HEAD 0).wr Reg.JOB_SCHED_TAIL 0).wr Reg.JOB_SCHED_SEQ 0
    { d with job := { d.job with headSeq := 0, used := [] } }
  else d

/-- SCHED_TAIL_WRITE. -/
def Dev.schedTail (d : Dev) (v : Word) : Dev := d.set F.JOB_SCHED_TAIL_INDEX v.toNat

/-- SCHED_FETCH: some bar has started the last copy of the last entry held. -/
def Dev.schedFetch (d : Dev) : Dev := if d.fetchDue then d.fetch.recheckEnd.findAllLines else d

/-! ### Ingest (R105, R106, R130) -/

abbrev ingWord (ds : List Nat) (i : Nat) : Nat := ds.getD i 0

/-- The modes in which ingest runs. -/
def Dev.ingestRuns (d : Dev) : Bool := decide (2 ≤ d.mode.code) && decide (d.mode.code ≤ 9)

def Dev.ingSize (d : Dev) (c : Fin 4) : Nat := ringSize 4 32768 (d.get (F.JOB_ING_SIZE_ENTRIES c))

def Dev.modIng (d : Dev) (c : Fin 4) (f : Ing → Ing) : Dev := { d with job := { d.job with ing := upd d.job.ing c f } }

/-- Copy: whole units of 64 bytes as far as the data goes; the bytes written and the error. -/
def Dev.ingCopy (d : Dev) (dst count : Nat) (data : List (BitVec 8)) : Dev × Nat × Nat :=
  let n := min count (data.length / 64 * 64)
  (d.storeData dst (data.take n), n, if n < count then 3 else 0)

/-- Encode block rows from q on; the bytes written and the error. -/
def Dev.ingEncode (d : Dev) (c : Fin 4) (dst w ratio sstr dstr : Nat) (data : List (BitVec 8)) : Nat → Nat → Nat → Dev × Nat × Nat
  | 0, _, out => (d, out, 0)
  | n + 1, q, out =>
    let at_ (i : Nat) : Nat := (4 * q + i) * sstr
    if data.length < at_ 3 + w then (d, out, 3)
    else
      let lines := (List.range 4).map fun i => ((data.drop (at_ i)).take w).map (·.toNat)
      let r := encRow ratio (d.bit F.CDC_CFG_FILL_EN) (d.bit F.CDC_CFG_SPLIT_EN) w dstr lines
      let d := d.storeData (dst + q * dstr) r.bytes
      let out := out + r.bytes.length
      if r.whole then d.ingEncode c dst w ratio sstr dstr data n (q + 1) out
      else
        let d := (d.wr Reg.CDC_ENC_ROW (BitVec.ofNat 32 q)).set F.CDC_ENC_BLOCKS_BLOCKS r.blocks
        ((d.wr Reg.CDC_ENC_BYTES (BitVec.ofNat 32 r.bytes.length)).set F.CDC_ENC_CHAN_CHAN c, out, 6)

/-- The error a descriptor's own fields give: alignment, encode parameters, range. -/
def Dev.ingError (d : Dev) (ds : List Nat) : Nat :=
  let w5 := ingWord ds 5
  let op := bits w5 28 2
  let dst := ingWord ds 2 + ingWord ds 3 % 8 * 2 ^ 32
  let count := ingWord ds 4
  let w := bits w5 0 17
  if ingWord ds 0 % 4 ≠ 0 ∨ ingWord ds 2 % 64 ≠ 0 ∨ (op = 0 ∧ count % 64 ≠ 0) then 1
  else if 2 ≤ op ∨ (op = 1 ∧ (ingWord ds 6 < w ∨ w = 0 ∨ 122880 < w ∨ count = 0 ∨ ingWord ds 7 % 64 ≠ 0 ∨ !d.runs 5)) then 5
  else if d.cap < dst + (if op = 0 then count else count * ingWord ds 7) then 2
  else 0

/-- INGEST_DESCRIPTOR_START: the channel takes the descriptor at HEAD, with the bytes the host holds for it from its source address
on, and moves the data. -/
def Dev.ingestStart (d : Dev) (c : Fin 4) (ds : List Nat) (data : List (BitVec 8)) : Dev :=
  let size := d.ingSize c
  let orphan := d.job.ing[c].orphan
  let stands := if orphan.isSome then false else
    !d.bit (F.JOB_ING_CTL_EN c) || d.bit (F.JOB_ING_STATUS_STOPPED c)
      || d.get (F.JOB_ING_HEAD_INDEX c) % size = d.get (F.JOB_ING_TAIL_INDEX c) % size
  if !d.ingestRuns || d.unitHeld c.val || stands || d.job.ing[c].desc.isSome || !d.bit F.HST_STATUS_BME then d
  else
    let d := if orphan.isSome then d else d.set (F.JOB_ING_STATUS_RUN c) 1
    let dst := ingWord ds 2 + ingWord ds 3 % 8 * 2 ^ 32
    let w5 := ingWord ds 5
    let e := d.ingError ds
    let (d, out, err) : Dev × Nat × Nat :=
      if e ≠ 0 then (d, 0, e)
      else if bits w5 28 2 = 0 then d.ingCopy dst (ingWord ds 4) data
      else d.ingEncode c dst (bits w5 0 17) (bits w5 26 2) (ingWord ds 6) (ingWord ds 7) data (ingWord ds 4) 0 0
    d.modIng c fun _ => { desc := some ds, start := d.now, out := out, bad := err, orphan := orphan }

/-- The descriptor's STAT word and OUT go to host memory. -/
def Dev.ingStat (d : Dev) (c : Fin 4) (done : Bool) (err out : Nat) : Dev :=
  let a := (d.job.ing[c].orphan.getD (d.ingAddr c)) + 0x20
  d.emit (.host a (bytesLE 4 (done.toNat * 2 ^ 31 + err * 2 ^ 24) ++ bytesLE 4 (out % 2 ^ 32)))

/-- A descriptor fails: ERR is written, the channel stops, DMA_ERROR (R106); with PD5 off the registers are gone (R130). -/
def Dev.ingFail (d : Dev) (c : Fin 4) (err : Nat) : Dev :=
  let i := d.get (F.JOB_ING_HEAD_INDEX c) % d.ingSize c
  let orphan := d.job.ing[c].orphan.isSome
  let d := d.ingStat c false err d.job.ing[c].out
  let d := if orphan then d else ((d.set (F.JOB_ING_STATUS_RUN c) 0).set (F.JOB_ING_STATUS_STOPPED c) 1).set (F.JOB_ING_STATUS_ERR c) err
  let d := d.modIng c fun _ => {}
  d.raise Ev.DMA_ERROR 15 none [c.val, i, err]

/-- INGEST_DESCRIPTOR_DONE. -/
def Dev.ingestDone (d : Dev) (c : Fin 4) : Dev :=
  match d.job.ing[c].desc with
  | none => d
  | some ds =>
    let x := d.job.ing[c]
    if x.bad ≠ 0 then d.ingFail c x.bad
    else
      let d := d.ingStat c true 0 x.out
      if x.orphan.isSome then d.modIng c fun _ => {}
      else
      let size := d.ingSize c
      let next := (d.get (F.JOB_ING_HEAD_INDEX c) % size + 1) % size
      let d := (d.set (F.JOB_ING_HEAD_INDEX c) next).modIng c fun _ => {}
      let d := d.setB (F.JOB_ING_STATUS_RUN c) (next ≠ d.get (F.JOB_ING_TAIL_INDEX c) % size)
      if Nat.testBit (ingWord ds 5) 31 then d.signal (d.get (F.JOB_ING_CTL_VEC c)) else d

/-- DMA_TIMEOUT: not completed within CTL.TMO µs of its start; a completion at the same moment is its own command before. -/
def Dev.dmaTimeout (d : Dev) (c : Fin 4) : Dev :=
  let tmo := d.get (F.JOB_ING_CTL_TMO c)
  let x := d.job.ing[c]
  if x.orphan.isNone && x.desc.isSome && tmo ≠ 0 && decide (x.start + tmo * 1000 ≤ d.now) then
    let i := d.get (F.JOB_ING_HEAD_INDEX c) % d.ingSize c
    (d.raise Ev.DMA_TIMEOUT 15 none [c.val, i, 4]).ingFail c 4
  else d

/-- INGEST_RESTART: a write of CTL with EN = 1; a stopped channel resumes at HEAD. -/
def Dev.ingestRestart (d : Dev) (c : Fin 4) : Dev :=
  (d.set (F.JOB_ING_CTL_EN c) 1).set (F.JOB_ING_STATUS_STOPPED c) 0

/-! ### Capture (R107, R111) -/

/-- The modes in which SET is accepted. -/
abbrev setModes : List Mode := [.idle, .ready, .print, .hold, .shuttle, .calibrate]

/-- The anchor of SYS_COMMIT.KIND: the pair in effect, or for KIND 2 the low word as last written (R6, R107). -/
def Dev.anchorNow (d : Dev) : Nat × Nat :=
  let k := d.get F.SYS_COMMIT_KIND % 3
  (k, if k = 2 then (d.rd Reg.SYS_ANCHOR_LO).toNat
      else (d.effRd Reg.SYS_ANCHOR_LO).toNat + (d.effRd Reg.SYS_ANCHOR_HI).toNat % 2 ^ 16 * 2 ^ 32)

/-- Capture of what has been written, or its refusal; the set where one is made. -/
def Dev.capture (d : Dev) (modes : List Mode) : Dev × Option SetRec :=
  match d.setReason modes with
  | 0 =>
    let (k, a) := d.anchorNow
    let (d, s) := d.newSet k a d.writtenFields
    let d : Dev := { d with job := { d.job with written := [] } }
    ((d.set F.SYS_COMMIT_STATUS_RESULT 2).set F.SYS_COMMIT_STATUS_REASON 0, some s)
  | r => (d.commitRefused r 0, none)

end Sys2Proof.Machine
end

