-- ==== Sys2Proof/Machine/Den.lean ====
section
/-!
DEFINITION. The density loop (spec/11_density_loop.md, R268 to R285): decision and placement of witness bands, measurement,
estimation, update and restore. Each function is one command of the family, or a part of one.
-/
namespace Sys2Proof.Machine

/-! ### Registers as they act -/

def Dev.denH (d : Dev) : Nat := clampN 4 85 (d.get F.DEN_BAND_H)
def Dev.denSkip (d : Dev) : Nat := min (d.get F.DEN_BAND_SKIP) ((d.denH - 1) / 2)
def Dev.denMinl (d : Dev) : Nat := max 1 (d.get F.DEN_BAND_MINL)
def Dev.denDist (d : Dev) : Nat := max 100 (d.get F.DEN_DIST_MM) * 1000000
def Dev.denLast (d : Dev) : Nat := d.pair Reg.DEN_LAST_LO Reg.DEN_LAST_HI
def Dev.denCamOfs (d : Dev) : Nat := (d.effRd Reg.DEN_CAM_OFS).toNat
/-- WIDTH of a port as it acts (R240). -/
def Dev.frameWidth (d : Dev) (p : Fin 4) : Nat :=
  let w := clampN 16 122880 (d.get (F.VIS_CAM_GEOM_WIDTH p))
  if d.effGet (F.VIS_CAM_CFG_FMT p) = 1 then min w 16384 else w

def Dev.denOn (d : Dev) : Bool := d.effBit F.DEN_CFG_EN

/-- DEN_STATUS.STATE: computing while an update waits, measuring once a line has counted for a band, else whether one is decided. -/
def Dev.denShow (d : Dev) : Dev :=
  d.set F.DEN_STATUS_STATE (if !d.den.upds.isEmpty then 3 else if d.den.bands.any fun x => x.ns.any (0 < ·) then 2 else (!d.den.bands.isEmpty).toNat)

def Dev.modBand (d : Dev) (x : DenBand) (f : DenBand → DenBand) : Dev :=
  { d with den := { d.den with bands := d.den.bands.map fun y => if y.seq = x.seq ∧ y.copy = x.copy then f y else y } }

def Dev.dropBand (d : Dev) (x : DenBand) : Dev :=
  ({ d with den := { d.den with bands := d.den.bands.filter fun y => ¬ (y.seq = x.seq ∧ y.copy = x.copy) } } : Dev).denShow

/-- The detail words of y0. -/
def y0Words (bar y0 : Nat) : List Nat := [bar, y0 / 2 ^ 8 % 2 ^ 32, y0 / 2 ^ 40 % 2 ^ 16]

/-- An abandoned or unplaced update (R270, R281). -/
def Dev.denSkipped (d : Dev) (bar y0 code : Nat) : Dev :=
  let b := barOf bar
  ((d.set (F.DEN_BAR_STATUS_SKIPWHY b) code).addSat (F.DEN_BAR_COUNT_SKIPS b) 1).raise Ev.DEN_SKIPPED bar none (y0Words bar y0 ++ [code])

/-! ### Decision (R269 to R272) -/

/-- The camera can see the bar's band, and the image configures the bar (R271). -/
def Dev.denSees (d : Dev) (b : Fin 12) : Bool :=
  d.configured b && decide ((d.rd (Reg.LTC_BAR_OFFSET b)).toNat < d.denCamOfs)

/-- The next bar of the rotation, with the bars passed over marked. -/
def Dev.rotation (d : Dev) : Dev × Option (Fin 12) :=
  let bars := d.effGet F.DEN_CFG_BARS
  let start := d.get F.DEN_STATUS_ROT
  let order := (List.range 12).map fun i => barOf (start + i)
  let rec go (d : Dev) : List (Fin 12) → Dev × Option (Fin 12)
    | [] => (d, none)
    | b :: r =>
      if !Nat.testBit bars b then go d r
      else if d.denSees b then (d.set (F.DEN_BAR_STATUS_NOVIEW b) 0, some b)
      else go (d.set (F.DEN_BAR_STATUS_NOVIEW b) 1) r
  go d order

/-- The bar after a bar in the rotation. -/
def Dev.rotNext (d : Dev) (b : Fin 12) : Nat :=
  let bars := d.effGet F.DEN_CFG_BARS
  (((List.range 12).map fun i => (b.val + 1 + i) % 12).find? fun x => Nat.testBit bars x).getD 0

/-- J of the copy that follows a copy, and whether it is copy 0 of an entry with ANCHOR = 1. -/
def Dev.jNext (d : Dev) (e : Entry) (c : Nat) : Option (Nat × Bool) :=
  if e.hasCopy (c + 1) then (e.j (2 * (c + 1))).map fun j => (j, false)
  else if d.job.final = some e.seq then none
  else (d.entry (e.seq + 1)).bind fun n => (n.j 0).map fun j => (j, n.anchor = 1)

/-- Put a band after a copy: later entries reached through ANCHOR = 0 move with an insertion (R270). -/
def Dev.placeBand (d : Dev) (e : Entry) (x : Band) : Dev :=
  let es := d.job.entries.map fun y =>
    if y.seq = e.seq then { y with bands := y.bands ++ [x] }
    else if e.seq < y.seq ∧ y.anchor ≠ 1 ∧ x.ins ≠ 0 then { y with j0 := none } else y
  { d with job := { d.job with entries := fixAnchors none es } }

/-- A due band of a bar is placed, or not for want of room (R270). -/
def Dev.denPlace (d : Dev) (b : Fin 12) (e : Entry) (c : Nat) (jEnd : Nat) : Dev × Bool :=
  let n := 3 * d.denH
  let len := n * e.pitch
  let margin := d.get F.DEN_MARGIN_NM * 2 ^ 8
  let nx := d.jNext e c
  let gutter := match nx with
    | none => true
    | some (j, _) => decide (((len + 2 * margin : Nat) : Int) ≤ diff56 j jEnd)
  let place : Option (Nat × Nat) :=
    if gutter then some ((jEnd + margin) % fireMod, 0)
    else if d.effBit F.DEN_CFG_INSERT && !(match nx with | some (_, a) => a | none => false) then some (jEnd, len)
    else none
  match place with
  | none => (d.denSkipped b jEnd 6, false)
  | some (y0, ins) =>
    let lv := (d.rd (Reg.DEN_BAR_LEVELS b)).toNat
    let d := d.placeBand e { copy := c, bar := b, y0 := y0, n := n, levels := [lv % 2 ^ 8, lv / 2 ^ 8 % 2 ^ 8, lv / 2 ^ 16 % 2 ^ 8], ins := ins }
    let x : DenBand := { seq := e.seq, copy := c, bar := b, y0 := y0, h := d.denH, skip := d.denSkip, minl := d.denMinl, pitch := e.pitch }
    let d : Dev := { d with den := { d.den with bands := d.den.bands ++ [x] } }
    let d := d.denShow.set F.DEN_STATUS_BAR b
    let d := d.wrPair Reg.DEN_LAST_LO Reg.DEN_LAST_HI (y0 / 2 ^ 8)
    (d.raise Ev.DEN_BAND_DECIDED b.val none (y0Words b y0 ++ [if ins = 0 then 1 else 2, e.seq, c]), true)

/-- The decision at a copy's first issued line: a compare request first, then the rotation (R269, R271, R272). DESIGN CHOICE (log entry 65): a
request for a bar that the image does not configure is dropped. -/
def Dev.denDecide (d : Dev) (e : Entry) (c : Nat) : Dev :=
  match e.j (2 * c) with
  | none => d
  | some j =>
    let jEnd := (j + e.desc.lines * e.pitch) % fireMod
    let req := (List.range 12).find? fun b => Nat.testBit (d.get F.DEN_STATUS_REQ) b
    let far := decide (0 ≤ diff56 jEnd ((d.denLast + d.denDist) * 2 ^ 8))
    match req with
    | some b =>
      let (d, ok) := if d.configured (barOf b) then d.denPlace (barOf b) e c jEnd else (d, true)
      if ok then d.set ⟨Reg.DEN_STATUS, 12 + b, 1⟩ 0 else d
    | none =>
      if d.den.rotReq || far then
        match d.rotation with
        | (d, some b) =>
          let (d, ok) := d.denPlace b e c jEnd
          if ok then ({ d with den := { d.den with rotReq := false } } : Dev).set F.DEN_STATUS_ROT (d.rotNext b) else d
        | (d, none) => d
      else d

/-- BAND_DECISION, within LINE_ISSUE: the first line of a copy that any bar issues; a fetch due at the moment is made first. -/
def Dev.bandDecision (d : Dev) (p : LinePos) : Dev :=
  let known := match d.den.decided with | some (s, c) => decide (p.seq < s) || (p.seq = s && decide (p.copy / 2 ≤ c)) | none => false
  if p.copy % 2 = 1 || known then d
  else
    let d := if d.fetchDue then d.fetch else d
    let d : Dev := { d with den := { d.den with decided := some (p.seq, p.copy / 2) } }
    if d.denOn && d.mode = .print && d.live 11 then
      match d.entry p.seq with
      | some e => d.denDecide e (p.copy / 2)
      | none => d
    else d

/-! ### Measurement (R274) -/

/-- The level for which a camera line counts. -/
def DenBand.level (x : DenBand) (u u1 : Int) : Option Nat :=
  (List.range 3).find? fun r =>
    decide (((r * x.h + x.skip) * x.pitch : Nat) ≤ u) && decide (u1 ≤ ((r * x.h + x.h - x.skip) * x.pitch : Nat))

def addLists (a b : List Nat) : List Nat := if a.isEmpty then b else (a.zip b).map fun t => t.1 + t.2

/-- The camera line before `web` is judged for a band, now that the next line's coordinate is known. -/
def Dev.denLine (d : Dev) (x : DenBand) (web : Nat) : DenBand :=
  match x.prev with
  | none => x
  | some (w, t, tag, num, vals) =>
    let u (w : Nat) : Int := diff56 ((w + webMod - d.denCamOfs % webMod) % webMod * 2 ^ 8) x.y0
    let excess := decide (((3 * x.h - x.skip) * x.pitch : Nat) < u web)
    let x := { x with done := x.done || excess }
    if !webAfter web w then x
    else
      match x.level (u w) (u web) with
      | none => x
      | some r =>
        { x with sums := x.sums.set r (addLists (x.sums.getD r []) vals), ns := x.ns.set r (x.ns.getD r 0 + 1),
                 bad := if (match x.tag with | some t2 => t2 != tag | none => false) then x.bad ||| 2 else x.bad,
                 tag := some tag, frames := if x.frames.contains num then x.frames else x.frames ++ [num],
                 first := match x.first with | some f => some f | none => some (w, t), lastWeb := w }

/-- A camera line of the loop's port: its coordinate, time, settings tag, frame number and density values on the component of each
band's bar. -/
def Dev.denFeed (d : Dev) (port web : Nat) (time : Time) (tag num : Nat) (vals : List (List Nat)) : Dev :=
  if !d.denOn || d.effGet F.DEN_CFG_PORT ≠ port || d.den.bands.isEmpty then d
  else
    let d : Dev := { d with den := { d.den with bands := d.den.bands.map fun x =>
      if x.done then x
      else
        let x := d.denLine x web
        { x with prev := some (web, time, tag, num, vals.map fun p => p.getD (d.get (F.DEN_BAR_CFG_COMP (barOf x.bar))) 0) } } }
    d.denShow

/-- A frame of the loop's port has ended with flags: bands that counted its lines are bad (R275). -/
def Dev.denFrame (d : Dev) (port num flags : Nat) : Dev :=
  if !d.denOn || d.effGet F.DEN_CFG_PORT ≠ port || flags = 0 then d
  else
    let mark (x : DenBand) : DenBand :=
      if x.frames.contains num then { x with bad := x.bad ||| 4, flags := x.flags ||| flags } else x
    { d with den := { d.den with bands := d.den.bands.map mark } }

/-! ### Estimation and update (R275 to R279) -/

/-- Division toward zero. -/
def truncDiv (a b : Int) : Int := if b = 0 then 0 else Int.tdiv a b

/-- Column of nozzle j in 16.16 (R276). -/
def Dev.denX (d : Dev) (j : Nat) : Int := (j * (d.effRd Reg.DEN_MAP_SCALE).toNat : Nat) + sext 32 (d.effRd Reg.DEN_MAP_OFS).toNat

/-- The covered columns: x_lo and x_hi. -/
def Dev.denCols (d : Dev) (b : Fin 12) (width : Nat) : Nat × Nat :=
  let lim (i : Int) : Nat := (clampI 0 ((width : Int) - 1) i).toNat
  (lim (-((-(d.denX 0)) / 2 ^ 16)), lim (d.denX (d.nozzles b - 1) / 2 ^ 16))

/-- Column means of a level, and the bar mean over the covered columns (R276). -/
def colMeans (sums : List Nat) (n : Nat) : List Nat := sums.map (· / max 1 n)

def barMean (m : List Nat) (lo hi : Nat) : Nat :=
  let c := hi + 1 - lo
  (((m.drop lo).take c).foldl (· + ·) 0 + c / 2) / max 1 c

def Dev.denWeights (d : Dev) (b : Fin 12) : List Nat :=
  [d.get (F.DEN_BAR_WEIGHT_W0 b), d.get (F.DEN_BAR_WEIGHT_W1 b), d.get (F.DEN_BAR_WEIGHT_W2 b)]

def sum3 (f : Nat → Int) : Int := f 0 + f 1 + f 2

/-- The relative deviation of a column (R277). -/
def deviation (w : List Nat) (means : List (List Nat)) (mu : List Nat) (x : Nat) : Int :=
  clampI (-32767) 32767 (truncDiv
    (65536 * sum3 fun r => (w.getD r 0 : Int) * (((means.getD r []).getD x 0 : Int) - (mu.getD r 0 : Int)))
    (sum3 fun r => (w.getD r 0 : Int) * (mu.getD r 0 : Int)))

/-- The deviation of nozzle j, interpolated between columns (R277). -/
def nozzleDev (e : Nat → Int) (x : Int) (lo hi : Nat) : Int :=
  let c0 : Int := x / 2 ^ 16
  let f : Int := x / 2 ^ 8 % 256
  if c0 < lo then e lo
  else if (hi : Int) ≤ c0 then e hi
  else e c0.toNat + ((e (c0.toNat + 1) - e c0.toNat) * f + 128) / 256

/-- The new gain of a position, and whether a limit acted (R278). -/
def newGain (g : Nat) (e : Int) (dstep gmin gmax : Nat) : Nat × Bool :=
  let p : Int := (128 + g : Nat) * e
  let q := (p + 2 ^ 18) / 2 ^ 19
  let q := if q = 0 ∧ 2 ^ 16 ≤ p.natAbs then (if 0 < p then 1 else -1) else q
  let r := clampI (-(dstep : Int)) dstep q
  let n := clampI gmin gmax ((g : Int) - r)
  (n.toNat, r ≠ q || n ≠ (g : Int) - r)

/-- The new gains of a bar from a band: the table, the largest and the summed change, the positions where a limit acted, and those
that end at a limit. -/
def Dev.denGains (d : Dev) (b : Fin 12) (x : DenBand) (e : Nat → Int) (lo hi : Nat) : List Nat × Nat × Nat × Nat × Nat :=
  let step := max 1 (d.get (F.DEN_BAR_CFG_DSTEP b))
  let gmin := d.get (F.DEN_BAR_CFG_GMIN b)
  let gmax := d.get (F.DEN_BAR_CFG_GMAX b)
  let n := d.nozzles b
  let one (j g : Nat) : Nat × Bool :=
    if n ≤ j || x.keep.contains j then (g, false) else newGain g (nozzleDev e (d.denX j) lo hi) step gmin gmax
  let res := x.gains.mapIdx fun j g => (g, one j g)
  let diff (t : Nat × Nat × Bool) : Nat := t.2.1 - t.1 + (t.1 - t.2.1)
  (res.map (·.2.1), res.foldl (fun m t => max m (diff t)) 0, res.foldl (fun a t => a + diff t) 0, res.countP (·.2.2),
   (res.zipIdx).countP fun t => decide (t.2 < n) && !x.keep.contains t.2 && (t.1.2.1 = gmin || t.1.2.1 = gmax))

/-- The new tone offset, and its change (R279). -/
def Dev.denTone (d : Dev) (b : Fin 12) (mu : List Nat) : Option (Nat × Int) :=
  let w := d.denWeights b
  let tg := [d.get (F.DEN_BAR_TGT01_TGT0 b), d.get (F.DEN_BAR_TGT01_TGT1 b), d.get (F.DEN_BAR_TGT2_TGT2 b)]
  let den := sum3 fun r => (w.getD r 0 : Int) * (tg.getD r 0 : Int)
  if !d.bit (F.DEN_BAR_CFG_TONE b) || den = 0 then none
  else
    let dt := truncDiv (65536 * sum3 fun r => (w.getD r 0 : Int) * ((tg.getD r 0 : Int) - (mu.getD r 0 : Int))) den
    let step : Int := d.get (F.DEN_BAR_TONE_TSTEP b)
    let dT := clampI (-step) step ((dt * (d.get (F.DEN_BAR_TONE_TGAIN b) : Int) + 2 ^ 15) / 2 ^ 16)
    let t := clampI (d.getI (F.DEN_BAR_TLIM_TMIN b)) (d.getI (F.DEN_BAR_TLIM_TMAX b)) (d.effGetI (F.SCR_BAR_TOFS_OFS b) + dT)
    some (unsext 10 t, dT)

/-- The column sums of a level, one per camera column (R274, R275). -/
def Dev.denSums (d : Dev) (x : DenBand) (r : Nat) : List Nat :=
  let s := x.sums.getD r []
  let wide := (x.sums.map List.length).foldl max 0
  if s.isEmpty then
    List.replicate (if wide = 0 then d.frameWidth ⟨d.effGet F.DEN_CFG_PORT % 4, Nat.mod_lt _ (by decide)⟩ else wide) 0
  else s

/-- A column record of one level (R259, TYPE 0x03), with its sums in the band's component. -/
def Dev.denRecord (d : Dev) (x : DenBand) (r : Nat) : List (BitVec 8) :=
  let s := d.denSums x r
  let c := d.get (F.DEN_BAR_CFG_COMP (barOf x.bar))
  let (w, t) := x.first.getD (0, {})
  let n := 64 + 12 * s.length
  bytesLE 4 (0x03000000 + x.tag.getD 0 % 256 * 2 ^ 16 + x.flags * 2 ^ 8 + d.effGet F.DEN_CFG_PORT)
    ++ bytesLE 4 (x.frames.headD 0) ++ bytesLE 4 (w % 2 ^ 32) ++ bytesLE 4 (w / 2 ^ 32) ++ bytesLE 4 (x.lastWeb % 2 ^ 32)
    ++ bytesLE 4 (x.lastWeb / 2 ^ 32) ++ bytesLE 4 (t.sec % 2 ^ 32) ++ bytesLE 4 (t.frac * 2 ^ 16 + t.sec / 2 ^ 32 % 2 ^ 16)
    ++ bytesLE 4 t.ns ++ bytesLE 4 (x.ns.getD r 0) ++ bytesLE 4 n ++ bytesLE 4 s.length ++ List.replicate 16 0
    ++ s.flatMap fun v => (List.range 3).flatMap fun i => bytesLE 4 (if i = c then v else 0)

/-- A record is ready for the statistics channel. -/
def Dev.statReady (d : Dev) (bs : List (BitVec 8)) : Dev :=
  let ch : Fin 2 := ⟨d.get F.VIS_CFG_CH % 2, Nat.mod_lt _ (by decide)⟩
  { d with egress := upd d.egress ch fun l => l ++ [{ src := 0x10, bytes := bs }] }

/-- A bad band (R275). -/
def Dev.bandBad (d : Dev) (x : DenBand) (why : Nat) : Dev :=
  let b := barOf x.bar
  ((d.set (F.DEN_BAR_STATUS_BADWHY b) why).addSat (F.DEN_BAR_BANDS_BAD b) 1).raise Ev.DEN_BAND_BAD x.bar none (y0Words x.bar x.y0 ++ [why])

/-- The update of a good band, or its abandonment. -/
def Dev.denUpdate (d : Dev) (b : Fin 12) (x : DenBand) (w : List Nat) (means : List (List Nat)) (mu : List Nat) (lo hi : Nat) : Dev :=
  let upd := d.bit (F.DEN_BAR_CFG_UPDATE b)
  let (d, gains) : Dev × Option (List Nat) :=
    if upd then
      let dev := (List.range (hi + 1)).map fun c => deviation w means mu c
      let (g, mx, sum, cl, ends) := d.denGains b x (fun c => dev.getD c 0) lo hi
      let d := (d.set (F.DEN_BAR_RESULT_MAXD b) mx).set (F.DEN_BAR_RESULT_MEAND b) (min 255 (sum * 16 / max 1 (d.nozzles b)))
      let d := d.set (F.DEN_BAR_RESULT_CLAMPED b) (min 0xFFFF cl)
      (if ends = 0 then d else d.raise Ev.DEN_GAIN_LIMIT x.bar none (y0Words x.bar x.y0 ++ [ends]), some g)
    else (d, none)
  let tone := d.denTone b mu
  if !upd && tone.isNone then d
  else if d.bit (F.DEN_BAR_STATUS_PAUSED b) then d.denSkipped x.bar x.y0 5
  else if x.host then d.denSkipped x.bar x.y0 1
  else
    let u : DenUpd := { bar := x.bar, y0 := x.y0, pitch := x.pitch, gains := gains, tofs := tone.map (·.1), dT := (tone.map (·.2)).getD 0,
                        host := false, since := d.now }
    { d with den := { d.den with upds := d.den.upds ++ [u] } }

/-- A band is judged (R275, R276): its records, its means, then an update or the reasons against it, one of which is that the device left PRINT
and HOLD before its last counted line. -/
def Dev.bandJudge (d : Dev) (x : DenBand) (left : Bool) : Dev :=
  let b := barOf x.bar
  let d := (List.range 3).foldl (fun (d : Dev) r => d.statReady (d.denRecord x r)) d
  let (lo, hi) := d.denCols b (d.denSums x 0).length
  let means := (List.range 3).map fun r => colMeans (d.denSums x r) (x.ns.getD r 0)
  let mu := means.map fun m => barMean m lo hi
  let d := (d.set (F.DEN_BAR_MEAN01_MU0 b) (mu.getD 0 0)).set (F.DEN_BAR_MEAN01_MU1 b) (mu.getD 1 0)
  let d := d.set (F.DEN_BAR_MEAN2_MU2 b) (mu.getD 2 0)
  let w := d.denWeights b
  let zero := sum3 (fun r => (w.getD r 0 : Int) * (mu.getD r 0 : Int)) = 0
  let why := x.bad ||| (if x.okLines = 3 * x.h then 0 else 1) ||| (if x.ns.any (· < x.minl) then 8 else 0)
    ||| (if zero then 16 else 0) ||| (if left then 32 else 0)
  (if why ≠ 0 then d.bandBad x why else d.denUpdate b x w means mu lo hi).dropBand x

/-- DEN_ESTIMATE: the camera has passed the oldest band. -/
def Dev.denEstimate (d : Dev) : Dev :=
  match d.den.bands with
  | [] => d
  | x :: _ => if !x.done || !d.denOn then d else d.bandJudge x false

/-! ### Capture, restore (R280 to R282) -/

/-- The newest word of a staged register on its way: of the last pending set that carries it, else in effect. -/
def Dev.newestWord (d : Dev) (a : Nat) : Word :=
  match (d.job.sets.filterMap fun s => (s.fields.find? fun f => f.1 = a).map (·.2)).getLast? with
  | some w => w
  | none => d.effRd a

/-- The fields of a set of the loop: the other gain bank, and the offset where it changes. -/
def Dev.denFields (d : Dev) (b : Fin 12) (swap : Bool) (tofs : Option Nat) : List (Nat × Word) :=
  let f := F.SCR_BAR_CFG_GAIN_BANK b
  let cfg := d.newestWord (Reg.SCR_BAR_CFG b)
  (if swap then [(Reg.SCR_BAR_CFG b, f.into cfg (1 - f.of cfg))] else [])
    ++ (match tofs with | some t => [(Reg.SCR_BAR_TOFS b, (F.SCR_BAR_TOFS_OFS b).into 0 t)] | none => [])

/-- Capture a set of the loop's own, anchored ahead of the mark where lines issue, else for capture (R280, R282). -/
def Dev.denSet (d : Dev) (b : Fin 12) (fs : List (Nat × Word)) (anchored : Bool) (pitch : Nat) : Dev × Nat :=
  let lead := max (d.get F.DEN_LEAD_NM) (32 * pitch / 2 ^ 8)
  let d := fs.foldl (fun (d : Dev) f =>
    if f.1 = Reg.SCR_BAR_CFG b then d.set (F.SCR_BAR_CFG_GAIN_BANK b) ((F.SCR_BAR_CFG_GAIN_BANK b).of f.2)
    else d.set (F.SCR_BAR_TOFS_OFS b) ((F.SCR_BAR_TOFS_OFS b).of f.2)) d
  let (d, s) := d.newSet (if anchored then 1 else 0) ((d.pos.hwm / 2 ^ 24 + lead) % webMod) fs
  let d := d.placeSet s
  let d := if anchored then d
    else match d.set? s.seq with
      | some s => allBars.foldl (fun d (b : Fin 12) => if Nat.testBit s.applied b then d else d.applyAtOnce b s) d
      | none => d
  (d, s.seq)

def Dev.dropUpd (d : Dev) (u : DenUpd) : Dev :=
  ({ d with den := { d.den with upds := d.den.upds.filter fun v => v ≠ u } } : Dev).denShow

/-- The bar's bank that is not selected. -/
def Dev.otherBank (d : Dev) (b : Fin 12) : Nat := 1 - (F.SCR_BAR_CFG_GAIN_BANK b).of (d.newestWord (Reg.SCR_BAR_CFG b))

/-- Why a RESTORE is refused; 0 where it is accepted (R282). -/
def Dev.restoreWhy (d : Dev) (b : Fin 12) : Nat :=
  if !d.bit (F.DEN_BAR_STATUS_PREV_VALID b) then 1 else if !d.modeIn setModes then 2 else if 8 ≤ d.job.sets.length then 3 else 0

/-- DEN_CAPTURE: in PRINT, once the other bank is free: the table is written, the offset kept, the set captured (R280). In the cycle of a host
SET pulse the update is abandoned (`sets`), as in that of a RESTORE of its bar that is accepted (`restores`; R281). -/
def Dev.denCapture (d : Dev) (sets : Bool) (restores : List (Fin 12)) : Dev :=
  match d.den.upds with
  | [] => d
  | u :: _ =>
    let b := barOf u.bar
    let g := d.otherBank b
    if d.mode ≠ .print then d
    else if restores.contains b && d.restoreWhy b = 0 then (d.dropUpd u).denSkipped u.bar u.y0 7
    else if u.host || sets || d.den.setAt = some d.now then (d.dropUpd u).denSkipped u.bar u.y0 1
    else if d.bit (F.DEN_BAR_STATUS_PAUSED b) then (d.dropUpd u).denSkipped u.bar u.y0 5
    else if u.gains.isSome && d.gainBusy b g then d
    else if 8 ≤ d.job.sets.length then (d.dropUpd u).denSkipped u.bar u.y0 2
    else
      let d := match u.gains with
        | some t => (d.set (F.DEN_BAR_STATUS_PREV_VALID b) 0).storeData (d.gainBase + (2 * b.val + g) * 122880) (t.map (BitVec.ofNat 8))
        | none => d
      let d := d.set (F.DEN_BAR_TOFS_PREV_OFS b) (d.effGet (F.SCR_BAR_TOFS_OFS b))
      let (d, seq) := d.denSet b (d.denFields b u.gains.isSome u.tofs) true u.pitch
      let d : Dev := { d with den := { d.den with ownSets := d.den.ownSets ++ [(b.val, seq)] } }
      let d := (d.set (F.DEN_BAR_LASTSET_SEQ b) seq).addSat (F.DEN_BAR_COUNT_UPDATES b) 1
      let d := d.raise Ev.DEN_UPDATE u.bar none (y0Words u.bar u.y0 ++ [seq % 2 ^ 16, (d.rd (Reg.DEN_BAR_RESULT b)).toNat, unsext 32 u.dT])
      d.dropUpd u

/-- DEN_BUSY_TIMEOUT: the bank stayed busy for 10 ms (R281). -/
def Dev.denBusyTimeout (d : Dev) : Dev :=
  match d.den.upds with
  | [] => d
  | u :: _ =>
    if u.gains.isSome && d.gainBusy (barOf u.bar) (d.otherBank (barOf u.bar)) && decide (u.since + 10000000 ≤ d.now) then
      (d.dropUpd u).denSkipped u.bar u.y0 3
    else d

/-- DEN_RESTORE: the previous bank and offset come back, or DEN_REFUSED (R282). -/
def Dev.denRestore (d : Dev) (b : Fin 12) : Dev :=
  if d.restoreWhy b ≠ 0 then d.raise Ev.DEN_REFUSED b.val none [b.val, 0, 0, d.restoreWhy b]
  else
    let d := (d.den.upds.filter fun u => u.bar = b.val).foldl (fun d u => (d.dropUpd u).denSkipped u.bar u.y0 7) d
    let (d, seq) := d.denSet b (d.denFields b true (some (d.get (F.DEN_BAR_TOFS_PREV_OFS b)))) d.printing
      (d.get (F.LTC_BAR_PITCH_ACT_PITCH b))
    let d := (d.set (F.DEN_BAR_STATUS_PAUSED b) 1).set (F.DEN_BAR_STATUS_PREV_VALID b) 0
    (d.set (F.DEN_BAR_LASTSET_SEQ b) seq).raise Ev.DEN_RESTORED b.val none [b.val, 0, 0, seq % 2 ^ 16]

/-- DEN_RESUME. -/
def Dev.denResume (d : Dev) (b : Fin 12) : Dev := d.set (F.DEN_BAR_STATUS_PAUSED b) 0

/-- BAND_NOW. -/
def Dev.bandNow (d : Dev) : Dev := { d with den := { d.den with rotReq := true } }

/-- DEN_CNT_CLR. -/
def Dev.denCntClr (d : Dev) : Dev :=
  d.zeroCounts (allBars.flatMap fun (b : Fin 12) =>
    [F.DEN_BAR_COUNT_SKIPS b, F.DEN_BAR_COUNT_UPDATES b, F.DEN_BAR_BANDS_BAD b, F.DEN_BAR_BANDS_BANDS b])

/-! ### What other commands tell the loop -/

/-- The host stages or captures a change of a bar's gain selection or offset: updates since band line 0 are abandoned (R281). -/
def Dev.denHost (d : Dev) (b : Fin 12) : Dev :=
  { d with den := { d.den with bands := d.den.bands.map fun x => if x.bar = b.val ∧ x.started then { x with host := true } else x,
                               upds := d.den.upds.map fun u => if u.bar = b.val then { u with host := true } else u } }

/-- A set of the loop has applied on its bar: the bank and offset before it can be restored (R280). -/
def Dev.denOwn (d : Dev) (b : Fin 12) (seq : Nat) : Dev :=
  let d := d.set (F.DEN_BAR_STATUS_PREV_VALID b) 1
  { d with den := { d.den with ownSets := d.den.ownSets.filter fun t => t ≠ (b.val, seq) } }

/-- A set applies from a line: inside a band it makes the band bad (R275). -/
def Dev.denInBand (d : Dev) (b : Fin 12) (p : LinePos) : Dev :=
  let inBand (x : DenBand) : Bool := x.bar = b.val && p.seq = x.seq && p.copy = 2 * x.copy + 1 && p.idx ≠ 0
  { d with den := { d.den with bands := d.den.bands.map fun x => if inBand x then { x with bad := x.bad ||| 2 } else x } }

/-- A mode is entered: outside PRINT and HOLD bands and updates are given up (R281, R283); at entry to PRINT DEN_LAST is the mark. -/
def Dev.denMode (d : Dev) (entered : Mode) : Dev :=
  let d := if entered = .print then d.wrPair Reg.DEN_LAST_LO Reg.DEN_LAST_HI (d.pos.hwm / 2 ^ 24) else d
  if entered = .print || entered = .hold then d
  else
    let d := d.den.bands.foldl (fun d x => d.bandJudge x (!x.done)) d
    d.den.upds.foldl (fun d u => (d.dropUpd u).denSkipped u.bar u.y0 4) d

end Sys2Proof.Machine
end

