-- ==== Sys2Proof/Machine/Pixel.lean ====
section
/-!
DEFINITION. The arithmetic of the vision pipeline (spec/10_vision.md, R240, R241, R250 to R262) on lines of transfers: pure functions
of the words of a port's registers. The ports are in Vis.lean.
-/
namespace Sys2Proof.Machine

/-- Saturation to 16 bits. -/
def limit16 (i : Int) : Nat := (clampI 0 65535 i).toNat

/-- A coordinate reflected into 0 to w - 1 (R253). -/
def mirror (w : Nat) (i : Int) : Nat :=
  let r : Int := if i < 0 then -i else if (w : Int) ≤ i then 2 * ((w : Int) - 1) - i else i
  (clampI 0 ((w : Int) - 1) r).toNat

/-- How a port's pixels are laid out: FMT (0 mono, 1 Bayer, 2 RGB), Bayer PHASE and BITS. -/
structure PixFmt where
  fmt : Nat
  phase : Nat
  nbits : Nat
  deriving DecidableEq, Repr

/-- Transfers per pixel. -/
def PixFmt.per (f : PixFmt) : Nat := if f.fmt = 2 then 3 else 1

/-- The gain index, or component, of transfer i of line y for flat field (R252). -/
def PixFmt.lane (f : PixFmt) (y i : Nat) : Nat := if f.fmt = 1 then y % 2 else if f.fmt = 2 then i % 3 else 0

/-- The check word of a line (R241): CRC-16, polynomial 0x1021, initial value 0xFFFF, most significant bit first. -/
def crc16Byte (c : Nat) (b : Nat) : Nat :=
  (List.range 8).foldl (fun c _ => if 0x8000 ≤ c then (c * 2 % 2 ^ 16) ^^^ 0x1021 else c * 2) (c ^^^ (b * 2 ^ 8))

def lineCrc (nbits : Nat) (xs : List Nat) : Nat :=
  xs.foldl (fun c t => if nbits ≤ 8 then crc16Byte c (t % 2 ^ 8) else crc16Byte (crc16Byte c (t / 2 ^ 8 % 2 ^ 8)) (t % 2 ^ 8)) 0xFFFF

/-- A line made to hold w pixels: the last pixel repeats, excess is dropped (R240). -/
def fitLine (per w : Nat) (xs : List Nat) : List Nat :=
  let n := xs.length / per
  if w ≤ n then xs.take (w * per)
  else
    let last := (xs.drop ((n - 1) * per)).take per
    xs.take (n * per) ++ ((List.range (w - n)).flatMap fun _ => if n = 0 then List.replicate per 0 else last)

/-! ### Black level, defects, flat field (R250 to R252) -/

def blackLine (f : PixFmt) (blk : List Nat) (y : Nat) (xs : List Nat) : List Nat :=
  xs.mapIdx fun i t =>
    let c := if f.fmt = 1 then 2 * (y % 2) + i % 2 else if f.fmt = 2 then i % 3 else 0
    t * 2 ^ (16 - f.nbits) % 2 ^ 16 - blk.getD c 0

/-- The defects of a line: words of the list (word 0, word 1), valid, in the frame's width (R251). -/
def defectAt (defs : List (Nat × Nat)) (w y x : Nat) : Bool :=
  defs.any fun e => e.2 / 2 ^ 31 = 1 && e.1 % 2 ^ 17 = x && decide (x < w) && (e.2 / 2 ^ 30 % 2 = 1 || e.2 % 2 ^ 16 = y)

def defectLine (f : PixFmt) (defs : List (Nat × Nat)) (w y : Nat) (xs : List Nat) : List Nat :=
  if defs.isEmpty then xs
  else
    xs.mapIdx fun i v =>
      let x := i / f.per
      let c := i % f.per
      let step : Int := if f.fmt = 1 then 2 else 1
      if defectAt defs w y x then
        let at_ (k : Int) : Nat := xs.getD (mirror w k * f.per + c) 0
        (at_ (x - step) + at_ (x + step) + 1) / 2
      else v

/-- Flat field with the table's gains, four to a column (R252). -/
def flatLine (f : PixFmt) (gain : Nat → Nat → Nat) (y : Nat) (xs : List Nat) : List Nat :=
  xs.mapIdx fun i v => limit16 (((v * gain (i / f.per) (f.lane y i) + 8192 : Nat) : Int) / 2 ^ 14)

/-! ### Demosaic (R253) -/

/-- The colour of a Bayer site: 0 R, 1 G, 2 B (R239). -/
def siteColour (phase x y : Nat) : Nat :=
  ((match phase with
    | 0 => [0, 1, 1, 2]
    | 1 => [1, 0, 2, 1]
    | 2 => [1, 2, 0, 1]
    | _ => [2, 1, 1, 0] : List Nat)).getD (x % 2 + 2 * (y % 2)) 0

/-- A value of a frame, reflected at its edges. -/
def site (fr : List (List Nat)) (w : Nat) (x y : Int) : Int :=
  (((fr.getD (mirror fr.length y) []).getD (mirror w x) 0 : Nat) : Int)

def greenAt (fr : List (List Nat)) (phase w x y : Nat) : Nat :=
  let v (dx dy : Int) : Int := site fr w (x + dx) (y + dy)
  if siteColour phase x y = 1 then (v 0 0).toNat
  else
    let gh := (v (-1) 0 - v 1 0).natAbs + (2 * v 0 0 - v (-2) 0 - v 2 0).natAbs
    let gv := (v 0 (-1) - v 0 1).natAbs + (2 * v 0 0 - v 0 (-2) - v 0 2).natAbs
    let eh := (2 * v (-1) 0 + 2 * v 1 0 + 2 * v 0 0 - v (-2) 0 - v 2 0 + 2) / 4
    let ev := (2 * v 0 (-1) + 2 * v 0 1 + 2 * v 0 0 - v 0 (-2) - v 0 2 + 2) / 4
    limit16 (if gh < gv then eh else if gv < gh then ev else (eh + ev + 1) / 2)

/-- The difference colour less green at a site. -/
def diffAt (fr : List (List Nat)) (phase w : Nat) (x y : Int) : Int :=
  site fr w x y - greenAt fr phase w (mirror w x) (mirror fr.length y)

def colourAt (fr : List (List Nat)) (phase w c x y : Nat) : Nat :=
  if siteColour phase x y = c then (site fr w x y).toNat
  else
    let g : Int := greenAt fr phase w x y
    let d (dx dy : Int) : Int := diffAt fr phase w (x + dx) (y + dy)
    if siteColour phase x y = 1 then
      if siteColour phase (x + 1) y = c then limit16 (g + (d (-1) 0 + d 1 0 + 1) / 2)
      else limit16 (g + (d 0 (-1) + d 0 1 + 1) / 2)
    else limit16 (g + (d (-1) (-1) + d 1 (-1) + d (-1) 1 + d 1 1 + 2) / 4)

/-- The three components of every pixel of line y after demosaic; mono passes as component 0. -/
def components (f : PixFmt) (fr : List (List Nat)) (w y : Nat) : List (List Nat) :=
  (List.range w).map fun x =>
    let l := fr.getD y []
    match f.fmt with
    | 1 => [colourAt fr f.phase w 0 x y, greenAt fr f.phase w x y, colourAt fr f.phase w 2 x y]
    | 2 => [l.getD (3 * x) 0, l.getD (3 * x + 1) 0, l.getD (3 * x + 2) 0]
    | _ => [l.getD x 0, 0, 0]

/-! ### Colour matrix, LUT, density (R254 to R256) -/

def matrixOut (m : List Int) (p : List Nat) : List Nat :=
  (List.range 3).map fun c =>
    limit16 (((List.range 3).foldl (fun (a : Int) i => a + m.getD (3 * c + i) 0 * p.getD i 0) 0 + 2048) / 2 ^ 12)

def lutOut (l : Nat → Nat) (v : Nat) : Nat :=
  let i := v / 64
  let a : Int := l i
  let b : Int := l (i + 1)
  (a + ((b - a) * (v % 64 : Nat) + 32) / 64).toNat

/-- 4,096 log10(w / v) is at least n - 1/2. -/
def logAtLeast (w v n : Nat) : Bool := n = 0 || decide (v ^ 8192 * 10 ^ (2 * n - 1) ≤ w ^ 8192)

/-- The exact rounded density, by bisection (R256). -/
def densityExact (w v : Nat) : Nat :=
  let rec go : Nat → Nat → Nat → Nat
    | 0, lo, _ => lo
    | f + 1, lo, hi =>
      if hi ≤ lo + 1 then lo
      else if logAtLeast w v ((lo + hi) / 2) then go f ((lo + hi) / 2) hi else go f lo ((lo + hi) / 2)
  go 16 0 20000

/-- The density of a value: 0 at or above white, else within one unit of the exact rounded value (R256). -/
def density (white v : Nat) : Nat :=
  if white ≤ v then 0 else densityExact white (max v 1) + Config.densityStep white v % 3 - 1

/-! ### Streams (R257) -/

def sizeOut (n step : Nat) : Nat := (n * 2048 + step - 1) / step

/-- Scale one row of values: each output the filter of its phase over 8 inputs, edges replicated. -/
def scaleRow (coef : Nat → Nat → Int) (step : Nat) (xs : List Nat) : List Nat :=
  (List.range (sizeOut xs.length step)).map fun i =>
    let pos : Nat := i * step
    let base : Nat := pos / 2 ^ 11
    let ph : Nat := pos / 2 ^ 6 % 32
    limit16 (((List.range 8).foldl (fun (a : Int) t =>
      a + coef ph t * xs.getD (clampI 0 ((xs.length : Int) - 1) ((base : Int) - 3 + t)).toNat 0) 0 + 512) / 2 ^ 10)

/-- Columns of a list of equally long rows. -/
def transposeN (w : Nat) (rows : List (List Nat)) : List (List Nat) := (List.range w).map fun x => rows.map fun r => r.getD x 0

/-- Scale a plane: horizontally, then vertically. -/
def scalePlane (coef : Nat → Nat → Int) (hstep vstep : Nat) (rows : List (List Nat)) : List (List Nat) :=
  let h := rows.map (scaleRow coef hstep)
  let w := (h.headD []).length
  let v := (transposeN w h).map (scaleRow coef vstep)
  transposeN ((v.headD []).length) v

/-- Crop, scale and format a frame of pixels (each with `n` components in use). -/
def streamBytes (coef : Nat → Nat → Int) (x0 w y0 h hstep vstep n : Nat) (out16 : Bool) (fr : List (List (List Nat))) : List (BitVec 8) :=
  let crop := ((fr.drop y0).take h).map fun l => (l.drop x0).take w
  let planes := (List.range n).map fun c => scalePlane coef hstep vstep (crop.map fun l => l.map fun p => p.getD c 0)
  let first := planes.headD []
  (List.range first.length).flatMap fun y => (List.range (first.headD []).length).flatMap fun x =>
    planes.flatMap fun pl =>
      let v := (pl.getD y []).getD x 0
      if out16 then bytesLE 2 v else bytesLE 1 (v / 2 ^ 8)

/-! ### Statistics (R260) -/

/-- A sharpness sum over a rectangle. -/
def sharpness (fr : List (List (List Nat))) (c x0 w y0 h : Nat) : Nat :=
  let p (x y : Nat) : Int :=
    let q : Nat := match (fr[y]?).bind (·[x]?) with
      | some q => q.getD c 0 / 16
      | none => Config.edgePixel x y % 2 ^ 12
    (q : Int)
  let rows := (List.range (min h (fr.length - y0))).map (y0 + ·)
  let cols := (List.range (min w ((fr.headD []).length - x0))).map (x0 + ·)
  min (2 ^ 48 - 1) (rows.foldl (fun a y => cols.foldl (fun a x =>
    a + ((p (x + 1) y - p x y).natAbs ^ 2 + (p x (y + 1) - p x y).natAbs ^ 2)) a) 0)

/-- The histogram of a component over a rectangle: counts of value >> 8. -/
def histogram (fr : List (List (List Nat))) (c x0 w y0 h : Nat) : List Nat :=
  let vals := ((fr.drop y0).take h).flatMap fun l => ((l.drop x0).take w).map fun p => p.getD c 0 / 2 ^ 8
  (List.range 256).map fun i => vals.countP (· = i)

end Sys2Proof.Machine
end

