-- ==== Sys2Proof/Machine/Vis.lean ====
section
/-!
DEFINITION. Camera ports and the image pipeline (spec/10_vision.md, R239 to R267): frames and lines of the ports, raw slots, staged
settings on their way to a port, records and streams. Each function is one command of the family, or a part of one.
-/
namespace Sys2Proof.Machine

/-! ### Ports -/

def Dev.port (d : Dev) (p : Fin 4) : VisPort := d.vis.ports[p]

def Dev.modPort (d : Dev) (p : Fin 4) (f : VisPort → VisPort) : Dev := { d with vis := { d.vis with ports := upd d.vis.ports p f } }

/-- Vision runs in the modes from IDLE to SAFE (R265). -/
def Dev.visRuns (d : Dev) : Bool := decide (2 ≤ d.mode.code) && decide (d.mode.code ≤ 9)

/-- The port takes its inputs (R247). -/
def Dev.portOn (d : Dev) (p : Fin 4) : Bool := d.visRuns && d.effBit (F.VIS_CAM_CFG_EN p) && !d.unitHeld (0x20 + p.val)

/-- LINES as it acts (R242). -/
def Dev.frameLines (d : Dev) (p : Fin 4) : Nat := max 1 (d.get (F.VIS_CAM_FRAMING_LINES p))

/-- A word that a frame was taken with. -/
def VFrame.word (fr : VFrame) (a : Nat) : Nat := ((fr.words.find? fun w => w.1 = a).map (·.2.toNat)).getD 0

/-- A field of such a word. -/
def VFrame.fld (fr : VFrame) (f : Fld) : Nat := fr.word f.reg / 2 ^ f.lo % 2 ^ f.w

/-- The pixels of a frame, by the configuration it was taken with (R247). -/
def VFrame.pixFmt (fr : VFrame) (p : Fin 4) : PixFmt :=
  { fmt := fr.fld (F.VIS_CAM_CFG_FMT p), phase := fr.fld (F.VIS_CAM_CFG_PHASE p), nbits := clampN 8 16 (fr.fld (F.VIS_CAM_CFG_BITS p)) }

def VFrame.width (fr : VFrame) (p : Fin 4) : Nat :=
  let w := clampN 16 122880 (fr.fld (F.VIS_CAM_GEOM_WIDTH p))
  if fr.fld (F.VIS_CAM_CFG_FMT p) = 1 then min w 16384 else w

/-- Detail words of an event of a port. -/
def Dev.portEvent (d : Dev) (k : EvKind) (p : Fin 4) (frame : Nat) (more : List Nat) : Dev := d.raise k 15 none ([p.val, frame] ++ more)

/-- A compare channel is routed to the port (R85, R242). -/
def Dev.trigRouted (d : Dev) (p : Fin 4) : Bool :=
  (List.finRange 32).any fun n => d.cmpTarget n = 2 + p.val && (d.cmpMode n ≠ 0 || d.denDriven n)

/-- A camera trigger of the port: the exposure output, the frame that may start, the timeout interval, the column window (R242, R243,
R246, R261). None comes in SAFE. -/
def Dev.cameraTrigger (d : Dev) (p : Fin 4) : Dev :=
  if !d.portOn p || d.mode = .safe then d
  else
    let w := (F.VIS_CAM_EXP_WIDTH p).of (d.effRd (Reg.VIS_CAM_EXP p))
    let pol := (F.VIS_CAM_EXP_POL p).of (d.effRd (Reg.VIS_CAM_EXP p))
    let d := d.modPort p fun s => { s with trig := true, tmoFrom := some d.now, exp := if w = 0 then s.exp else some (d.now + w * 100) }
    let d := if w = 0 || d.shareZ 3 then d else d.emit (.pin pinCamExp p (pol = 0))
    if d.bit F.VIS_STAT_CFG_ENC && d.bit F.VIS_COL_CFG_START && d.get F.VIS_STAT_CFG_COL_SRC = p.val then
      { d with vis := { d.vis with colTrigs := d.vis.colTrigs ++ [d.now] } }
    else d

/-- An exposure output goes inactive. -/
def Dev.expOff (d : Dev) (p : Fin 4) : Dev :=
  let d := d.modPort p fun s => { s with exp := none }
  if d.shareZ 3 then d else d.emit (.pin pinCamExp p ((F.VIS_CAM_EXP_POL p).of (d.effRd (Reg.VIS_CAM_EXP p)) ≠ 0))

/-- The exposure outputs go inactive (R243, R265). -/
def Dev.exposuresOff (d : Dev) : Dev :=
  (List.finRange 4).foldl (fun (d : Dev) (p : Fin 4) =>
    if (d.port p).exp.isSome then
      d.expOff p
    else d) d

/-- EXPOSURE_END. -/
def Dev.exposureEnd (d : Dev) (p : Fin 4) : Dev :=
  match (d.port p).exp with
  | some t =>
    if t ≤ d.now then
      d.expOff p
    else d
  | none => d

/-! ### Staged settings (R263, R264) -/

/-- The port a staged camera register or stream register belongs to: a stream follows the port it takes. -/
def Dev.portOfReg (d : Dev) (a : Nat) : Option Nat :=
  if 0xC00100 ≤ a ∧ a < 0xC00300 then some ((a - 0xC00100) / 0x80)
  else if 0xC00400 ≤ a ∧ a < 0xC00480 then some (d.effGet (F.VIS_VS_CFG_SRC ((a - 0xC00400) / 0x20)))
  else none

/-- The entries a captured SENS sends: those of its bank, without the invalid ones. -/
def Dev.sensorList (d : Dev) (p : Fin 4) (w : Word) : List Nat :=
  let bank := (F.VIS_CAM_SENS_BANK p).of w
  let n := min 16 ((F.VIS_CAM_SENS_COUNT p).of w)
  (List.range n).map fun i => (d.rd (Reg.VIS_TAB (8 * p.val + 4 + bank) i)).toNat

/-- The camera fields of a set take effect on a port. -/
def Dev.camFields (d : Dev) (seq : Nat) (fs : List (Nat × Word)) : Dev :=
  fs.foldl (fun d f => if d.newest f.1 seq then (d.effWr f.1 f.2).noteField f.1 seq else d) d

/-! ### I²C and the staged settings of a port (R244, R263, R264) -/

/-- The list that is next or being sent: of the first set that has reached the port and has not sent its own. -/
def Dev.listNow (d : Dev) (p : Fin 4) : Option VisSet := (d.port p).sets.find? fun x => x.reached && x.list.isSome && !x.sent

/-- A direct transaction is on the bus. -/
def Dev.i2cBusy (d : Dev) (p : Fin 4) : Bool := match (d.port p).i2c with | some t => t.started | none => false

/-- The device and register of a list entry. -/
def listDest (wide : Bool) (w : Nat) : Nat × Nat := (bits w 24 7, if wide then bits w 8 16 else bits w 8 8)

/-- A list starts once the bus is free: its valid entries are sent in order, with REG16 and SPEED as they are now (R263). -/
def Dev.listStart (d : Dev) (p : Fin 4) : Dev :=
  match d.listNow p with
  | none => d
  | some x =>
    if d.i2cBusy p || x.wide.isSome then d
    else
      let wide := d.bit (F.VIS_CAM_I2C_REG16 p)
      let speed := d.get (F.VIS_CAM_I2C_DATA_SPEED p)
      let d := (x.list.getD []).foldl (fun (d : Dev) w =>
        if bits w 31 1 = 0 then d else d.emit (.i2c p true (listDest wide w).1 (listDest wide w).2 (w % 256) speed)) d
      d.modPort p fun s => { s with sets := s.sets.map fun y => if y.seq = x.seq then { y with wide := some wide } else y }

/-- The direct transaction starts once no list is ready (R244), and while the port's balls are driven (R333). -/
def Dev.i2cStart (d : Dev) (p : Fin 4) : Dev :=
  match (d.port p).i2c, d.listNow p with
  | some t, none =>
    if t.started || d.shareZ 3 then d
    else (d.modPort p fun s => { s with i2c := some { t with started := true } }).emit
      (.i2c p (!t.rd) t.dev t.reg t.data (d.get (F.VIS_CAM_I2C_DATA_SPEED p)))
  | _, _ => d

/-- A set reaches a port; its list, if it has one, is sent from then on. -/
def Dev.visReach (d : Dev) (p : Fin 4) (seq : Nat) : Dev :=
  let come (x : VisSet) : VisSet := if x.seq = seq ∧ !x.reached then { x with reached := true, came := d.now, at_ := d.now } else x
  (d.modPort p fun s => { s with sets := s.sets.map come }).listStart p

/-- A captured set sets out to a port: it reaches it at once with BAR = 0xF and in a mode that issues no lines. -/
def Dev.visCapture (d : Dev) (s : SetRec) (p : Fin 4) : Dev :=
  let fs := s.fields.filter fun f => d.portOfReg f.1 = some p.val
  let sens := (fs.find? fun f => f.1 = Reg.VIS_CAM_SENS p).map (·.2)
  let list : Option (List Nat) := sens.bind fun w => let l := d.sensorList p w; if l.isEmpty then none else some l
  let lat := (F.VIS_CAM_SENS_I2C_LAT p).of (sens.getD (d.effRd (Reg.VIS_CAM_SENS p)))
  let x : VisSet := { seq := s.seq, fields := fs, list := list, left := if list.isSome then lat + 1 else 1 }
  let d := d.modPort p fun t => { t with sets := t.sets ++ [x] }
  if d.effGet (F.VIS_CAM_CFG_BAR p) = 15 || !d.modeIn [.print, .shuttle, .shadow] then d.visReach p s.seq else d

/-- A set has arrived on a bar: it reaches the ports that follow the bar. -/
def Dev.visArrive (d : Dev) (b : Fin 12) (seq : Nat) : Dev :=
  (List.finRange 4).foldl (fun (d : Dev) (p : Fin 4) => if d.effGet (F.VIS_CAM_CFG_BAR p) = b.val then d.visReach p seq else d) d

/-- A frame starts: the sets that wait for it count it, unless they arrived or completed their list at this moment; when all that had
reached the port before are due they take effect together, in order. -/
def Dev.visApply (d : Dev) (p : Fin 4) (num : Nat) : Dev :=
  let ready (x : VisSet) : Bool := x.reached && (x.list.isNone || x.sent)
  let here (x : VisSet) : Bool := x.reached && decide (x.came < d.now)
  let d := d.modPort p fun s => { s with sets := s.sets.map fun x => if ready x && decide (x.at_ < d.now) then { x with left := x.left - 1 } else x }
  let due := (d.port p).sets.filter here
  if due.isEmpty || (due.any fun x => !ready x || x.left ≠ 0) then d
  else
    let d := d.modPort p fun s => { s with sets := s.sets.filter fun x => !here x }
    due.foldl (fun d x =>
      let d := (d.camFields x.seq x.fields).modPort p fun s => { s with tag := x.seq }
      let d := (d.set (F.VIS_CAM_APPLIED_TAG p) x.seq).set (F.VIS_CAM_APPLIED_FRAME p) num
      d.portEvent Ev.VIS_SET_APPLIED p num [x.seq % 256]) d

/-- I2C_WRITE and I2C_READ: a write of VIS_CAM_I2C with OP 1 or 2; nothing while a transaction is busy. The transaction goes out in the next
cycle, so that a list which becomes ready in this one goes first (log entry 34). -/
def Dev.i2cGo (d : Dev) (p : Fin 4) (rd : Bool) (v : Word) : Dev :=
  if (d.port p).i2c.isSome then d
  else
    let a := Reg.VIS_CAM_I2C p
    let d := d.wr a ((F.VIS_CAM_I2C_RESULT p).into ((F.VIS_CAM_I2C_OP p).into (v &&& 0xFFF0FFFF) (if rd then 2 else 1)) 1)
    let reg := d.get (F.VIS_CAM_I2C_REG p)
    let reg := if d.bit (F.VIS_CAM_I2C_REG16 p) then reg else reg % 256
    let t : I2c := { rd := rd, dev := d.get (F.VIS_CAM_I2C_ADDR p), reg := reg, data := d.get (F.VIS_CAM_I2C_DATA_DATA p), started := false }
    d.modPort p fun s => { s with i2c := some t }

def Dev.i2cNack (d : Dev) (p : Fin 4) (dev reg : Nat) : Dev :=
  d.portEvent Ev.VIS_I2C_NACK p (d.get (F.VIS_CAM_FRAME_FRAME p)) [dev * 2 ^ 16 + reg]

/-- I2C_DONE. -/
def Dev.i2cDone (d : Dev) (p : Fin 4) (ack : Bool) (data : Nat) : Dev :=
  match (d.port p).i2c with
  | none => d
  | some t =>
    if !t.started then d
    else
      let d := (d.modPort p fun s => { s with i2c := none }).listStart p
      if ack then
        let d := d.set (F.VIS_CAM_I2C_RESULT p) 2
        if t.rd then d.set (F.VIS_CAM_I2C_DATA_DATA p) data else d
      else (d.set (F.VIS_CAM_I2C_RESULT p) 3).i2cNack p t.dev t.reg

/-- SENSOR_LIST_DONE: the entries have been sent; those that drew a NACK are reported. -/
def Dev.sensorListDone (d : Dev) (p : Fin 4) (nacks : List Nat) : Dev :=
  match d.listNow p with
  | none => d
  | some x =>
    match x.wide with
    | none => d
    | some wide =>
      let d := ((x.list.getD []).zipIdx).foldl (fun (d : Dev) e =>
        if bits e.1 31 1 ≠ 0 && nacks.contains e.2 then d.i2cNack p (listDest wide e.1).1 (listDest wide e.1).2 else d) d
      (d.modPort p fun s => { s with sets := s.sets.map fun y => if y.seq = x.seq then { y with sent := true, at_ := d.now } else y }).listStart p

/-! ### The pipeline (R250 to R256) -/

/-- The words that a frame is taken and processed with: the port's configuration and camera fields, and the staged fields of the streams. -/
def Dev.frameWords (d : Dev) (p : Fin 4) : List (Nat × Word) :=
  ([Reg.VIS_CAM_GEOM p, Reg.VIS_CAM_BUF_SLOT p].map fun a => (a, d.rd a)) ++
  ((List.range 4).flatMap fun s => [Reg.VIS_VS_CROP_X s, Reg.VIS_VS_CROP_Y s, Reg.VIS_VS_STEP s].map fun a => (a, d.effRd a)) ++
  ([Reg.VIS_CAM_CFG p, Reg.VIS_CAM_BUF_LO p, Reg.VIS_CAM_BUF_HI p, Reg.VIS_CAM_BLK01 p, Reg.VIS_CAM_BLK23 p, Reg.VIS_CAM_FF_LO p, Reg.VIS_CAM_FF_HI p, Reg.VIS_CAM_CCM0 p, Reg.VIS_CAM_CCM1 p,
    Reg.VIS_CAM_CCM2 p, Reg.VIS_CAM_CCM3 p, Reg.VIS_CAM_CCM4 p, Reg.VIS_CAM_WHITE01 p, Reg.VIS_CAM_WHITE2 p]).map fun a => (a, d.effRd a)

/-- A line after black level, defects and flat field. -/
def Dev.rawLine (d : Dev) (p : Fin 4) (fr : VFrame) (y : Nat) : List Nat :=
  let f := fr.pixFmt p
  let w := fr.width p
  let b01 := fr.word (Reg.VIS_CAM_BLK01 p)
  let b23 := fr.word (Reg.VIS_CAM_BLK23 p)
  let xs := blackLine f [b01 % 2 ^ 16, b01 / 2 ^ 16, b23 % 2 ^ 16, b23 / 2 ^ 16] y ((fr.lines[y]?.map (·.xs)).getD [])
  let defs := (List.range (min 1024 (d.get (F.VIS_CAM_DEFN_COUNT p)))).map fun i =>
    ((d.rd (Reg.VIS_TAB (8 * p.val) (2 * i))).toNat, (d.rd (Reg.VIS_TAB (8 * p.val) (2 * i + 1))).toNat)
  let xs := defectLine f defs w y xs
  let ffh := fr.word (Reg.VIS_CAM_FF_HI p)
  if ffh / 2 ^ 31 = 0 then xs
  else
    let base := fr.word (Reg.VIS_CAM_FF_LO p) / 64 * 64 + ffh % 8 * 2 ^ 32
    flatLine f (fun x i => ofBytesLE (d.bytes (base + 8 * x + 2 * i) 2)) y xs

/-- The signed coefficients of the colour matrix, row by row (R254). -/
def VFrame.matrix (fr : VFrame) (p : Fin 4) : List Int :=
  let h (a i : Nat) : Int := sext 16 (fr.word a / 2 ^ (16 * i))
  [h (Reg.VIS_CAM_CCM0 p) 0, h (Reg.VIS_CAM_CCM0 p) 1, h (Reg.VIS_CAM_CCM1 p) 0, h (Reg.VIS_CAM_CCM1 p) 1, h (Reg.VIS_CAM_CCM2 p) 0,
   h (Reg.VIS_CAM_CCM2 p) 1, h (Reg.VIS_CAM_CCM3 p) 0, h (Reg.VIS_CAM_CCM3 p) 1, h (Reg.VIS_CAM_CCM4 p) 0]

/-- The components of a line after the LUT, from the frame's lines after flat field. -/
def Dev.lutLine (d : Dev) (p : Fin 4) (fr : VFrame) (raw : List (List Nat)) (y : Nat) : List (List Nat) :=
  let f := fr.pixFmt p
  let lut (c v : Nat) : Nat := lutOut (fun i => (d.rd (Reg.VIS_TAB (8 * p.val + 1 + c) i)).toNat % 2 ^ 16) v
  (components f raw (fr.width p) y).map fun q =>
    if f.fmt = 1 ∨ f.fmt = 2 then (matrixOut (fr.matrix p) q).mapIdx lut else [lut 0 (q.getD 0 0), 0, 0]

/-- The density stage (R256). -/
def VFrame.densLine (fr : VFrame) (p : Fin 4) (l : List (List Nat)) : List (List Nat) :=
  let w2 := fr.word (Reg.VIS_CAM_WHITE2 p)
  let w01 := fr.word (Reg.VIS_CAM_WHITE01 p)
  if bits w2 16 1 = 0 then l
  else
    let mono := !((fr.pixFmt p).fmt = 1 || (fr.pixFmt p).fmt = 2)
    l.map fun q => q.mapIdx fun c v => if mono && c ≠ 0 then 0 else density (([w01 % 2 ^ 16, w01 / 2 ^ 16, w2 % 2 ^ 16] : List Nat).getD c 0) v

/-! ### Records (R259 to R262) -/

/-- The 64-byte header of a STAT2 record. -/
def visHeader (type tag flags port num first last : Nat) (t : Time) (lines bytes cols : Nat) : List (BitVec 8) :=
  bytesLE 4 (type * 2 ^ 24 + tag % 256 * 2 ^ 16 + flags % 64 * 2 ^ 8 + port) ++ bytesLE 4 num
    ++ bytesLE 4 (first % 2 ^ 32) ++ bytesLE 4 (first / 2 ^ 32) ++ bytesLE 4 (last % 2 ^ 32) ++ bytesLE 4 (last / 2 ^ 32)
    ++ bytesLE 4 (t.sec % 2 ^ 32) ++ bytesLE 4 (t.frac * 2 ^ 16 + t.sec / 2 ^ 32 % 2 ^ 16) ++ bytesLE 4 t.ns
    ++ bytesLE 4 lines ++ bytesLE 4 bytes ++ bytesLE 4 cols ++ List.replicate 16 0

/-- Header of a frame's record. -/
def VFrame.header (fr : VFrame) (type bytes : Nat) : List (BitVec 8) :=
  let first := fr.lines.head?
  let last := fr.lines.getLast?
  visHeader type fr.tag fr.flags fr.port fr.num ((first.map (·.web)).getD fr.web) ((last.map (·.web)).getD fr.web)
    ((first.map (·.time)).getD fr.time) fr.lines.length bytes 0

/-- The column window closes: its record (R261). -/
def Dev.closeCol (d : Dev) (split : Bool) : Dev :=
  match d.vis.col with
  | none => d
  | some c =>
    let n := c.sums.length
    let bs := visHeader 3 c.tag (c.flags ||| if split then 32 else 0) c.port c.num c.webFirst c.webLast c.time c.lines (64 + 12 * n) n
      ++ c.sums.flatMap fun q => (List.range 3).flatMap fun i => bytesLE 4 (q.getD i 0)
    ({ d with vis := { d.vis with col := none } } : Dev).statReady bs

/-- The column window is one of another port, or settings have taken effect since its last line. -/
def ColWin.endsAt (c : ColWin) (fr : VFrame) : Bool := c.port != fr.port || c.tag != fr.tag

/-- A processed line joins the column accumulators: windows open at a frame's first line, or at the first line that starts at or after a
trigger which came while none was open; a set that has taken effect closes the window, and none opens at that frame start (R261). DESIGN
CHOICE (log entry 65): a change of COL_SRC closes the window at the first line of the new port, without SPLIT; while ENC is 0 lines pass by
and an open window waits. -/
def Dev.colFeed (d : Dev) (fr : VFrame) (y : Nat) (lut dens : List (List Nat)) : Dev :=
  if !d.bit F.VIS_STAT_CFG_ENC || d.get F.VIS_STAT_CFG_COL_SRC ≠ fr.port then d
  else
    let line := fr.lines[y]?
    let (web, time, at_) := ((line.map fun l => (l.web, l.time, l.at_)).getD (fr.web, fr.time, fr.start))
    let ends := match d.vis.col with | some c => c.endsAt fr | none => false
    let split := ends && (d.vis.col.map (·.port)) == some fr.port
    let d := if ends then d.closeCol split else d
    let trigs := if split then d.vis.colTrigs.filter fun t => decide (fr.start < t) else d.vis.colTrigs
    let start := if d.bit F.VIS_COL_CFG_START then trigs.any fun t => decide (t ≤ at_) else y = 0 && !split
    let d : Dev := { d with vis := { d.vis with colTrigs := trigs.filter fun t => decide (at_ < t) } }
    let d : Dev :=
      if d.vis.col.isNone && start then
        let c : ColWin := { port := fr.port, left := max 1 (d.get F.VIS_COL_CFG_LINES), sums := [], tag := fr.tag, flags := 0, num := fr.num,
                            webFirst := web, webLast := web, time := time, lines := 0 }
        { d with vis := { d.vis with col := some c } }
      else d
    match d.vis.col with
    | none => d
    | some c =>
      let v := if d.bit F.VIS_COL_CFG_TAP then lut else dens
      let sums := if c.sums.isEmpty then v else (c.sums.zip v).map fun t => (t.1.zip t.2).map fun u => (u.1 + u.2) % 2 ^ 32
      let c := { c with left := c.left - 1, sums := sums, flags := c.flags ||| fr.flags, webLast := web, lines := c.lines + 1 }
      let d : Dev := { d with vis := { d.vis with col := some c } }
      if c.left = 0 then d.closeCol false else d

/-- A line leaves the pipeline: the density loop and the column accumulators take it. -/
def Dev.lineOut (d : Dev) (p : Fin 4) (fr : VFrame) (raw : List (List Nat)) (y : Nat) : Dev :=
  let used := d.denOn && d.effGet F.DEN_CFG_PORT = p.val || (d.bit F.VIS_STAT_CFG_ENC && d.get F.VIS_STAT_CFG_COL_SRC = p.val)
  if !used then d
  else
    let lut := d.lutLine p fr raw y
    let dens := fr.densLine p lut
    let (web, time) := ((fr.lines[y]?.map fun l => (l.web, l.time)).getD (fr.web, fr.time))
    (d.denFeed p.val web time fr.tag fr.num dens).colFeed fr y lut dens

/-- A frame's statistics record (R260, R262). -/
def Dev.frameStats (d : Dev) (fr : VFrame) (lut : List (List (List Nat))) : Dev :=
  if !d.bit F.VIS_STAT_CFG_EN2 || d.get F.VIS_STAT_CFG_SRC ≠ fr.port then d
  else
    let comp := d.get F.VIS_STAT_CFG_SHP_COMP
    let shp := (List.range 16).map fun w =>
      sharpness lut comp (2 * d.get (F.VIS_SHP_WX_X0 w)) (2 * d.get (F.VIS_SHP_WX_W w)) (d.get (F.VIS_SHP_WY_Y0 w)) (d.get (F.VIS_SHP_WY_H w))
    let hist (c : Nat) : List Nat :=
      histogram lut c (2 * d.get F.VIS_HIST_WX_X0) (2 * d.get F.VIS_HIST_WX_W) (d.get F.VIS_HIST_WY_Y0) (d.get F.VIS_HIST_WY_H)
    if d.bit F.VIS_STAT_CFG_FMT then
      d.statReady (bytesLE 4 fr.num ++ bytesLE 4 (fr.flags % 64) ++ (shp.flatMap fun v => bytesLE 4 (min (2 ^ 32 - 1) v))
        ++ (hist 1).flatMap fun v => bytesLE 4 v)
    else
      d.statReady (fr.header 2 3264 ++ (shp.flatMap fun v => bytesLE 8 v)
        ++ (List.range 3).flatMap fun c => (hist c).flatMap fun v => bytesLE 4 v)

/-- The streams of a frame (R257). -/
def Dev.frameStreams (d : Dev) (p : Fin 4) (fr : VFrame) (lut dens : List (List (List Nat))) : Dev :=
  (List.range 4).foldl (fun (d : Dev) s =>
    if !d.effBit (F.VIS_VS_CFG_EN s) || d.effGet (F.VIS_VS_CFG_SRC s) ≠ p.val then d
    else
      let coef (ph t : Nat) : Int := sext 12 ((d.rd (Reg.VIS_TAB (8 * s + 6) (4 * ph + t / 2))).toNat / 2 ^ (16 * (t % 2)))
      let fmt := (fr.pixFmt p).fmt
      let bs := streamBytes coef (2 * fr.fld (F.VIS_VS_CROP_X_X0 s)) (2 * fr.fld (F.VIS_VS_CROP_X_W s)) (fr.fld (F.VIS_VS_CROP_Y_Y0 s))
        (fr.fld (F.VIS_VS_CROP_Y_H s)) (clampN 2048 32768 (fr.fld (F.VIS_VS_STEP_H s))) (clampN 2048 32768 (fr.fld (F.VIS_VS_STEP_V s)))
        (if fmt = 1 ∨ fmt = 2 then 3 else 1) (d.effBit (F.VIS_VS_CFG_OUT16 s)) (if d.effBit (F.VIS_VS_CFG_TAP s) then dens else lut)
      let ch : Fin 2 := ⟨d.effGet (F.VIS_VS_CFG_CH s) % 2, Nat.mod_lt _ (by decide)⟩
      { d with egress := upd d.egress ch fun l => l ++ [{ src := s, bytes := bs }] }) d

/-- Streams and statistics of a whole frame. -/
def Dev.frameOut (d : Dev) (p : Fin 4) (fr : VFrame) (raw : List (List Nat)) : Dev :=
  let lut := (List.range fr.lines.length).map fun y => d.lutLine p fr raw y
  let dens := lut.map fun l => fr.densLine p l
  (d.frameStats fr lut).frameStreams p fr lut dens

/-- The pipeline lets each line out as it comes: in-line, and not Bayer. -/
def VFrame.lineByLine (fr : VFrame) (p : Fin 4) : Bool := p.val = 0 && (fr.pixFmt p).fmt ≠ 1

/-- A whole frame passes the pipeline. -/
def Dev.processFrame (d : Dev) (p : Fin 4) (fr : VFrame) : Dev :=
  let raw := (List.range fr.lines.length).map fun y => d.rawLine p fr y
  let d := if fr.lineByLine p then d else (List.range fr.lines.length).foldl (fun d y => d.lineOut p fr raw y) d
  d.frameOut p fr raw

/-! ### Raw slots (R248, R249) -/

/-- The raw slots by the words of a frame: their size, and where slot i lies. -/
def VFrame.slotBytes (fr : VFrame) (p : Fin 4) : Nat := fr.fld (F.VIS_CAM_BUF_SLOT_SLOT p) * 64
def VFrame.slotAt (fr : VFrame) (p : Fin 4) (i : Nat) : Nat :=
  (fr.word (Reg.VIS_CAM_BUF_LO p) + fr.fld (F.VIS_CAM_BUF_HI_ADDR p) * 2 ^ 32) / 64 * 64 + i * fr.slotBytes p
def Dev.slotCount (d : Dev) (p : Fin 4) : Nat := max 2 (d.get (F.VIS_CAM_BUF_SLOT_SLOTS p))

/-- The transfers of a frame as a slot holds them. -/
def VFrame.rawBytes (fr : VFrame) : List (BitVec 8) := fr.lines.flatMap fun l => l.xs.flatMap fun t => bytesLE 2 t

/-- Write a frame into a slot, truncated where it does not fit. -/
def Dev.writeSlot (d : Dev) (p : Fin 4) (fr : VFrame) (i : Nat) : Dev × VFrame :=
  let data := fr.rawBytes
  let fr := if fr.slotBytes p < 64 + data.length then { fr with flags := fr.flags ||| 1 } else fr
  (d.storeData (fr.slotAt p i) ((fr.header 1 (64 + data.length) ++ data).take (fr.slotBytes p)), fr)

/-- The lines of a frame as they are read back from its slot, those that lie whole within it. -/
def Dev.readSlot (d : Dev) (p : Fin 4) (fr : VFrame) (i : Nat) : VFrame :=
  let w := fr.width p * (fr.pixFmt p).per
  let base := fr.slotAt p i + 64
  { fr with lines := (fr.lines.zipIdx.filter fun t => decide (64 + 2 * w * (t.2 + 1) ≤ fr.slotBytes p)).map fun t =>
      { t.1 with xs := (List.range w).map fun x => ofBytesLE (d.bytes (base + 2 * (w * t.2 + x)) 2) } }

/-! ### Frames -/

/-- FSTAT and the counters of a frame's flags, and VIS_FRAME_BAD. -/
def Dev.frameFlags (d : Dev) (p : Fin 4) (num flags lines : Nat) (new : Nat) : Dev :=
  let d := (d.set (F.VIS_CAM_FSTAT_FLAGS p) flags).set (F.VIS_CAM_FSTAT_LINES p) lines
  let c (d : Dev) (i : Nat) (f : Fld) : Dev := if Nat.testBit new i then d.addSat f 1 else d
  let d := c (c (c d 0 (F.VIS_CAM_ERR0_SHORT p)) 1 (F.VIS_CAM_ERR0_LONG p)) 2 (F.VIS_CAM_ERR1_CRCERR p)
  if new = 0 then d else d.raiseO Ev.VIS_FRAME_BAD p.val 15 [p.val, num, flags, 1] [(3, 1)] [(2, flags)]

/-- A record of the frame that waits for egress, with LONG added: its statistics, or a column window that its lines joined. -/
def EgrRec.long (r : EgrRec) (fr : VFrame) : EgrRec :=
  let w (i n : Nat) : Nat := ofBytesLE ((r.bytes.drop i).take n)
  let mark (i : Nat) : EgrRec := { r with bytes := r.bytes.set i (BitVec.ofNat 8 (w i 1 ||| 2)) }
  if r.src ≠ 0x10 then r
  else if r.bytes.length = 1096 then (if w 0 4 = fr.num then mark 4 else r)
  else if w 0 1 % 4 ≠ fr.port then r
  else if w 3 1 = 2 then (if w 4 4 = fr.num then mark 1 else r)
  else if w 4 4 ≤ fr.num && !webAfter fr.web (w 0x10 6) then mark 1 else r

/-- A line too many after a frame has ended (R245): LONG joins the flags of the frame wherever they still are: the raw frame and the header
of its slot, an open column window, a record that has not left. One frame is one VIS_FRAME_BAD: where it was flagged already, the flag only
joins the open window of that event. -/
def Dev.lateLong (d : Dev) (p : Fin 4) (fr : VFrame) : Dev :=
  let new := { fr with flags := fr.flags ||| 2 }
  let this (x : VFrame) : Bool := x.port = fr.port && x.num = fr.num
  let mark (x : VFrame) : VFrame := if this x then { x with flags := x.flags ||| 2 } else x
  let col := d.vis.col.map fun c => if c.port = fr.port && decide (c.num ≤ fr.num) then { c with flags := c.flags ||| 2 } else c
  let d := d.modPort p fun s => { s with ended := some new }
  let d : Dev := { d with vis := { d.vis with waiting := d.vis.waiting.map mark, m2m := d.vis.m2m.map mark, col := col },
                          egress := updAll d.egress fun _ l => l.map fun r => r.long fr }
  let d := match fr.slot with | some i => d.storeData (fr.slotAt p i + 1) [BitVec.ofNat 8 (new.flags % 64)] | none => d
  let d := d.denFrame p.val fr.num 2
  if fr.flags = 0 then d.frameFlags p fr.num new.flags fr.lines.length 2
  else
    let key := Ev.VIS_FRAME_BAD.code * 2 ^ 24 + p.val
    let d : Dev := { d with coal := d.coal.map fun c => if c.key = key then c.fold 0 [] [(2, 2)] else c }
    (d.set (F.VIS_CAM_FSTAT_FLAGS p) new.flags).addSat (F.VIS_CAM_ERR0_LONG p) 1

/-- A frame ends: flags, then the pipeline for CAM0, the raw slot for the others (R245, R248, R249). -/
def Dev.endFrame (d : Dev) (p : Fin 4) (fr : VFrame) : Dev :=
  let fr := if fr.lines.length < d.frameLines p then { fr with flags := fr.flags ||| 1 } else fr
  let d := d.modPort p fun s => { s with frame := none, line := none, ended := some fr }
  let (d, fr) :=
    if p.val ≠ 0 then
      match fr.slot with
      | some i =>
        let (d, fr) := d.writeSlot p fr i
        let d := d.modPort p fun s => { s with ended := some fr }
        (({ d with vis := { d.vis with waiting := d.vis.waiting ++ [fr] } } : Dev), fr)
      | none => (d, fr)
    else if d.effBit (F.VIS_CAM_CFG_RAWCOPY p) then
      let i := (d.port p).ring % d.slotCount p
      let (d, _) := d.writeSlot p fr i
      (d.modPort p fun s => { s with ring := (i + 1) % d.slotCount p, ended := some { fr with slot := some i } }, fr)
    else (d, fr)
  let d := (d.frameFlags p fr.num fr.flags fr.lines.length fr.flags).denFrame p.val fr.num fr.flags
  let d := match d.vis.col with
    | some c => if c.num ≤ fr.num && c.port = p.val && p.val = 0 then
        ({ d with vis := { d.vis with col := some { c with flags := c.flags ||| fr.flags } } } : Dev) else d
    | none => d
  if p.val = 0 then d.processFrame p fr else d

/-- FRAME_START (R242, R245, R246, R264). -/
def Dev.frameStart (d : Dev) (p : Fin 4) : Dev :=
  let own := d.effBit (F.VIS_CAM_CFG_FSTART p)
  if !d.portOn p || (own && !(d.port p).trig) then d
  else
    let d := match (d.port p).frame with | some fr => d.endFrame p fr | none => d
    let num := (d.port p).next
    let d := d.visApply p num
    let s := d.port p
    let free := (List.range (d.slotCount p)).find? fun i => !s.slots.contains i
    let slot := if p.val = 0 then none else free
    let drop := p.val ≠ 0 && free.isNone
    let fr : VFrame := { port := p, num := num, tag := s.tag, start := d.now, web := d.pos.web / 2 ^ 24, time := d.time,
                         flags := if s.late then 16 else 0, slot := slot, words := d.frameWords p, dropped := drop }
    let d := d.wr (Reg.VIS_CAM_FRAME p) (BitVec.ofNat 32 num)
    let d := d.modPort p fun s =>
      { s with frame := some fr, line := none, ended := none, next := (num + 1) % 2 ^ 32, late := false, trig := if own then false else s.trig,
               tmoFrom := if d.trigRouted p then none else some d.now,
               slots := match slot with | some i => s.slots ++ [i] | none => s.slots }
    if drop then (d.addSat (F.VIS_CAM_DROP_FRAMES p) 1).portEvent Ev.VIS_OVERRUN p num [] else d

/-- LINE_START: the coordinate and the time of the line; beyond LINES it is an excess line (R242, R245). -/
def Dev.lineStart (d : Dev) (p : Fin 4) : Dev :=
  if !d.portOn p then d
  else
    match (d.port p).frame, (d.port p).ended with
    | some fr, _ =>
      if fr.lines.length < d.frameLines p then
        d.modPort p fun s => { s with line := some { web := d.pos.web / 2 ^ 24, time := d.time, at_ := d.now } }
      else
        (d.addSat (F.VIS_CAM_EXCESS_LINES p) 1).modPort p fun s => { s with frame := some { fr with flags := fr.flags ||| 2 } }
    | none, some fr =>
      if fr.lines.length < d.frameLines p then d
      else
        let d := d.addSat (F.VIS_CAM_EXCESS_LINES p) 1
        if Nat.testBit fr.flags 1 then d else d.lateLong p fr
    | none, none => d

/-- CAMERA_LINE_END: the line is made to hold WIDTH pixels and its check word compared (R240, R241). -/
def Dev.cameraLineEnd (d : Dev) (p : Fin 4) (ts : List Nat) : Dev :=
  match (d.port p).frame, (d.port p).line with
  | some fr, some l =>
    if !d.portOn p then d
    else
      let f := fr.pixFmt p
      let ts := ts.map (· % 2 ^ f.nbits)
      let crc := d.effBit (F.VIS_CAM_CFG_CRC_EN p)
      let n := if crc then ts.length - 2 else ts.length
      let px := ts.take n
      let ck := ((ts.drop n).getD 0 0) % 256 * 256 + ((ts.drop n).getD 1 0) % 256
      let bad := crc && (decide (ts.length < 2) || lineCrc f.nbits px != ck)
      let w := fr.width p
      let err := decide (px.length ≠ w * f.per)
      let fr := { fr with lines := fr.lines ++ [{ l with xs := fitLine f.per w px, lineErr := err, crcErr := bad }],
                          flags := fr.flags ||| (if bad then 4 else 0) ||| (if err then 8 else 0) }
      let d := d.modPort p fun s => { s with frame := some fr, line := none }
      if fr.lineByLine p then
        let y := fr.lines.length - 1
        d.lineOut p fr (List.replicate y [] ++ [d.rawLine p fr y]) y
      else d
  | _, _ => d

/-- FRAME_END: LINES lines have ended, or VSYNC has (FSTART = 0). -/
def Dev.frameEnd (d : Dev) (p : Fin 4) : Dev :=
  match (d.port p).frame with
  | none => d
  | some fr =>
    if d.portOn p && (decide (d.frameLines p ≤ fr.lines.length) || !d.effBit (F.VIS_CAM_CFG_FSTART p)) then d.endFrame p fr else d

/-- A frame start at the port is one that starts a frame (R242). -/
def Dev.startsFrame (d : Dev) (p : Fin 4) : Bool := d.portOn p && (!d.effBit (F.VIS_CAM_CFG_FSTART p) || (d.port p).trig)

/-- VSYNC_TIMEOUT (R246); a frame start of the same cycle (`starts`) wins. -/
def Dev.vsyncTimeout (d : Dev) (p : Fin 4) (starts : Bool) : Dev :=
  let tmo := d.get (F.VIS_CAM_FRAMING_TMO p)
  match (d.port p).tmoFrom with
  | some t =>
    if d.portOn p && tmo ≠ 0 && decide (t + tmo * 10000 ≤ d.now) && !(starts && d.startsFrame p) then
      let d := (d.modPort p fun s => { s with tmoFrom := none, late := true }).addSat (F.VIS_CAM_ERR1_TMO p) 1
      d.portEvent Ev.VIS_VSYNC_TMO p (d.get (F.VIS_CAM_FRAME_FRAME p)) []
    else d
  | none => d

/-- M2M_FRAME: the raw frame that started first, ties to the lower port. -/
def Dev.m2mFrame (d : Dev) : Dev :=
  if d.vis.m2m.isSome || !d.visRuns then d
  else
    let before (a b : VFrame) : Bool := decide (a.start < b.start) || (a.start = b.start && decide (a.port ≤ b.port))
    match d.vis.waiting.foldl (fun (m : Option VFrame) x => match m with | some y => if before y x then some y else some x | none => some x) none with
    | none => d
    | some x => { d with vis := { d.vis with waiting := d.vis.waiting.filter fun y => y ≠ x, m2m := some x } }

/-- M2M_FRAME_DONE: the frame has passed the pipeline, and its slot is free. -/
def Dev.m2mDone (d : Dev) : Dev :=
  match d.vis.m2m with
  | none => d
  | some fr =>
    let p : Fin 4 := ⟨fr.port % 4, Nat.mod_lt _ (by decide)⟩
    let d : Dev := { d with vis := { d.vis with m2m := none } }
    match fr.slot with
    | none => d
    | some i => (d.processFrame p (d.readSlot p fr i)).modPort p fun s => { s with slots := s.slots.filter fun j => j ≠ i }

/-! ### Tables and counters (R263, R265, R266) -/

/-- A set in effect or pending on a port selects a list bank. -/
def Dev.bankSelected (d : Dev) (p : Fin 4) (bank : Nat) : Bool :=
  let a := Reg.VIS_CAM_SENS p
  let f := F.VIS_CAM_SENS_BANK p
  ((d.job.fieldSeq.any fun x => x.1 = a) && f.of (d.effRd a) = bank)
    || (((d.port p).sets.flatMap (·.fields)) ++ d.job.sets.flatMap (·.fields)).any fun x => x.1 = a && f.of x.2 = bank

/-- The writable bits of word i of a table; none beyond the table. -/
def visMask (table i : Nat) : Nat :=
  match table with
  | 0 => if i % 2 = 0 then 0x1FFFF else 0xC000FFFF
  | 1 | 2 | 3 => if i < 1025 then 0xFFFF else 0
  | 4 | 5 => if i < 16 then 0xFFFFFFFF else 0
  | 6 => if i < 128 then 0x0FFF0FFF else 0
  | _ => 0

/-- A write that the mode or a list in use forbids is discarded and reported (R263, R265). -/
def Dev.visRefused (d : Dev) (p : Fin 4) (off : Nat) : Dev := d.portEvent Ev.VIS_WRITE_REFUSED p (d.get (F.VIS_CAM_FRAME_FRAME p)) [off]

/-- VIS_TABLE_WRITE. -/
def Dev.visTableWrite (d : Dev) (i : Nat) (v : Word) : Dev :=
  let unit := d.get F.VIS_TAB_SEL_UNIT
  let table := d.get F.VIS_TAB_SEL_TABLE
  let p : Fin 4 := ⟨unit % 4, Nat.mod_lt _ (by decide)⟩
  let ok := if table = 4 ∨ table = 5 then !d.bankSelected p (table - 4) else d.modeIn [.idle, .calibrate]
  if visMask table i = 0 then d
  else if ok then d.wr (Reg.VIS_TAB (8 * unit + table) i) (v &&& BitVec.ofNat 32 (visMask table i))
  else d.visRefused p (0x10000 + 4 * i)

/-- VIS_CNT_CLR. -/
def Dev.visCntClr (d : Dev) : Dev :=
  d.zeroCounts ([F.VIS_STAT_STATUS_LOST, F.VIS_STAT_STATUS_RECORDS] ++ (List.range 4).flatMap fun n =>
    [F.VIS_CAM_ERR0_SHORT n, F.VIS_CAM_ERR0_LONG n, F.VIS_CAM_ERR1_CRCERR n, F.VIS_CAM_ERR1_TMO n, F.VIS_CAM_EXCESS_LINES n,
     F.VIS_CAM_DROP_FRAMES n, F.VIS_VS_STATUS_DROP n, F.VIS_VS_STATUS_FRAMES n])

/-- CFG of a port changes at configuration commit: a frame in progress is discarded, numbering restarts where the port comes on (R242, R247). -/
def Dev.portCfg (d : Dev) (p : Fin 4) (wasOn : Bool) : Dev :=
  let slot := ((d.port p).frame).bind (·.slot)
  d.modPort p fun s =>
    { s with frame := none, line := none, ended := none, trig := false, tmoFrom := none, late := false,
             next := if wasOn then s.next else 0, slots := match slot with | some i => s.slots.filter (· ≠ i) | none => s.slots }

end Sys2Proof.Machine
end

