-- ==== Sys2Proof/Machine/Lmp.lean ====
section
/-!
DEFINITION. Pinning lamps and the beacon panel (spec/12_lamps.md, R287 to R304): staging and LATCH, coverage, the headroom loop, module
status and hours, the panel. Each function is one command of the family, or a part of one.
-/
namespace Sys2Proof.Machine

def Dev.lampMod (d : Dev) (m : Fin 16) : LampMod := d.lmp.mods[m]

def Dev.modLamp (d : Dev) (m : Fin 16) (f : LampMod → LampMod) : Dev := { d with lmp := { d.lmp with mods := upd d.lmp.mods m f } }

/-- Modules that LMP_CFG.MODS enables. -/
def Dev.lampsOn (d : Dev) : List (Fin 16) := (List.finRange 16).filter fun m => Nat.testBit (d.effGet F.LMP_CFG_MODS) m

/-- The block is on and the bus is driven: from boot step 10, unless that was skipped, to CALIBRATE, and in SAFE (R287, R300, R384); not by a
deposed ringmaster that shares the lamp balls (R333). -/
def Dev.busDriven (d : Dev) : Bool :=
  d.effBit F.LMP_CFG_EN && !d.boot.lampOff && !d.unitHeld 0x60 &&
    (d.modeIn [.idle, .ready, .print, .hold, .shuttle, .calibrate] || (d.mode = .boot && d.boot.released) ||
      (d.mode = .safe && !d.shareZ 2))

/-- LMPEN: low in SAFE, from the start of the orderly stop, and wherever the bus is not driven (R287, R399). -/
def Dev.lmpen (d : Dev) : Bool := d.busDriven && d.mode != .safe && !d.stopping

def Dev.lampSegs (d : Dev) (m : Fin 16) : Nat := clampN 1 32 (d.effGet (F.LMP_MOD_CFG_SEGS m))

def Dev.lampLost (d : Dev) (m : Fin 16) : Bool := d.get (F.LMP_MOD_STATUS_STATE m) = 2

/-- A level word: EN, CUR, DUTY at their places in a window entry. -/
def lampWord (en : Bool) (cur duty : Nat) : Nat := en.toNat * 2 ^ 31 + cur % 256 * 2 ^ 16 + duty % 2 ^ 16

/-- A segment is lit: enabled with a duty. -/
def lampLit (w : Nat) : Bool := bits w 31 1 = 1 && w % 2 ^ 16 ≠ 0

/-- The level of segment s of a module in a mode (R300). In HOLD it is held, but for a module whose fields a set has changed there; after a
take-over it is the mirrored one for the next LATCH (R345). -/
def Dev.lampLevel (d : Dev) (m : Fin 16) (s : Nat) : Nat :=
  let w := (d.effRd (Reg.LMP_LEVEL m s)).toNat
  let win := lampWord (bits w 31 1 = 1) (bits w 16 8) (w % 2 ^ 16)
  let dark := 0
  let lit := if d.pos.markDesc then d.effBit (F.LMP_MOD_CFG_DESC m) else d.effBit (F.LMP_MOD_CFG_ASC m)
  match if d.mode != .hold then (d.lampMod m).held else none with
  | some l => l.getD s 0
  | none =>
  match d.mode with
  | .idle | .calibrate => win
  | .ready => lampWord (bits w 31 1 = 1) (bits w 16 8) (d.effGet (F.LMP_MOD_CTL_STBY m))
  | .print => if d.effBit (F.LMP_MOD_CTL_MODE m) then lampWord (bits w 31 1 = 1) (bits w 16 8) ((d.lampMod m).cov.getD s 0) else win
  | .hold =>
    let was := ((d.lampMod m).held.getD []).getD s 0
    if !(d.lampMod m).changed then was
    else if d.sys.holdFrom = .shuttle then (if lit then win else dark)
    else if d.effBit (F.LMP_MOD_CTL_MODE m) then lampWord (bits w 31 1 = 1) (bits w 16 8) (was % 2 ^ 16) else win
  | .shuttle => if lit then win else dark
  | _ => dark

def Dev.lampWant (d : Dev) (m : Fin 16) : List Nat := (List.range (d.lampSegs m)).map (d.lampLevel m)

/-! ### The bus (R288, R289, R463) -/

/-- The bytes of a frame: sync, address, command, length, data, and the CRC-16 over address to data, high byte first. -/
def LampFrame.bytes (f : LampFrame) : List Nat :=
  let body := [f.addr, f.cmd, f.data.length] ++ f.data
  let c := body.foldl crc16Byte 0xFFFF
  0xA5 :: body ++ [c / 256, c % 256]

/-- The bits of a byte on the line: a start bit, the data bits, least significant first, and a stop bit. -/
def lampBits (b : Nat) : List Bool := false :: ((List.range 8).map fun i => Nat.testBit b i) ++ [true]

/-- A frame joins those that wait for the bus. -/
def Dev.lampQueue (d : Dev) (f : LampFrame) : Dev := { d with lmp := { d.lmp with queue := d.lmp.queue ++ [f] } }

/-- IDENT to a module. -/
def Dev.lampAskId (d : Dev) (m : Fin 16) : Dev := d.lampQueue ⟨m, 0x04, []⟩

/-- CONFIG to a module (R288, R298). -/
def Dev.lampConfig (d : Dev) (m : Fin 16) : Dev :=
  let p := d.effGet F.LMP_PWM_PERIOD
  d.lampQueue ⟨m, 0x01, [p / 256, p % 256, max 1 (d.effGet F.LMP_PWM_WDOG), d.effGet F.LMP_DIAG_STRETCH_STRETCH]⟩

/-- STAGE to a module: every segment from 0, in place of what still waits for it. -/
def Dev.lampSend (d : Dev) (m : Fin 16) (ls : List Nat) : Dev :=
  let f : LampFrame := ⟨m, 0x02, 0 :: ls.flatMap fun w => [w / 256 % 256, w % 256, bits w 16 8, bits w 31 1 * 128]⟩
  let keep := d.lmp.queue.filter fun g => ¬ (g.addr = m.val ∧ g.cmd = 0x02)
  ({ d with lmp := { d.lmp with queue := keep ++ [f] } } : Dev).modLamp m fun s => { s with staged := some ls }

/-- A STAGE frame waits or is on the bus. -/
def Dev.stagesWait (d : Dev) : Bool :=
  (d.lmp.queue.any fun f => f.cmd = 0x02) || (match d.lmp.sending with | some (f, _) => f.cmd = 0x02 | none => false)

/-- A frame whose last byte has gone is sent; after POLL and IDENT a response is awaited (R290). -/
def Dev.lampSent (d : Dev) (f : LampFrame) (t : Nat) : Dev :=
  let ask := if f.cmd = 0x03 ∨ f.cmd = 0x04 then some (f.addr, f.cmd, t) else d.lmp.ask
  ({ d with lmp := { d.lmp with sending := none, restAt := t, ask := ask } } : Dev).emit (.lamp f.bytes)

/-- The frame that goes next: with a LATCH due only STAGE, ahead of any POLL (R293). -/
def Dev.lampNext (d : Dev) : Option LampFrame :=
  if d.lmp.due.isSome then d.lmp.queue.find? fun f => f.cmd = 0x02 else d.lmp.queue.head?

/-- A CK9 cycle of the bus: the byte in progress ends after 500 ns, the next follows it; on a free bus the next frame starts, LMP_DE rising
100 ns before its first bit, which keeps frames 2 bit times apart. While a response is awaited or on the bus nothing is sent. Where the bus
is not driven nothing is kept. -/
def Dev.lampTick (d : Dev) : Dev :=
  if !d.busDriven then
    if d.lmp.queue.isEmpty && d.lmp.sending.isNone && d.lmp.ask.isNone then d
    else { d with lmp := { d.lmp with queue := [], sending := none, ask := none, respEnd := 0 } }
  else
    match d.lmp.sending with
    | some (f, i, t) =>
      if d.now < t then d
      else if i + 1 < f.bytes.length then { d with lmp := { d.lmp with sending := some (f, i + 1, t + 500) } }
      else d.lampSent f t
    | none =>
      if d.lmp.ask.isSome || d.now < d.lmp.respEnd || d.now < d.lmp.restAt || d.now < d.lmp.breakEnd then d
      else
        match d.lampNext with
        | none => d
        | some f => { d with lmp := { d.lmp with queue := d.lmp.queue.erase f, sending := some (f, 0, d.now + 600) } }

/-- LMP_DE: high while a frame or a break is on the bus. -/
def Dev.lampDe (d : Dev) : Bool := d.busDriven && (d.lmp.sending.isSome || decide (d.now < d.lmp.breakEnd))

/-- LMP_TXD: the bit in progress, 0 in a break, else idle. -/
def Dev.lampTxd (d : Dev) : Bool :=
  match d.lmp.sending with
  | some (f, i, t) => if t ≤ d.now + 500 then (lampBits (f.bytes.getD i 0)).getD ((d.now + 500 - t) / 50) true else true
  | none => !decide (d.now < d.lmp.breakEnd ∧ d.lmp.breakEnd ≤ d.now + 1600)

/-! ### Latch coordinates and settings (R292 to R294) -/

/-- A LATCH is requested by something other than the compare channel: a mode, a direction change, a set at capture, LATCH_NOW. -/
def Dev.lampAsk (d : Dev) : Dev :=
  if d.busDriven then { d with lmp := { d.lmp with due := some (d.lmp.due.getD d.now) } } else d

/-- A coordinate joins the list; coordinates that coincide make one LATCH. -/
def Dev.addCoord (d : Dev) (x : Nat) : Dev :=
  if d.lmp.coords.contains x then d
  else
    let before := d.lmp.coords.filter fun c => webAfter x c
    let after := d.lmp.coords.filter fun c => !webAfter x c
    { d with lmp := { d.lmp with coords := before ++ x :: after } }

/-- The module a staged lamp register belongs to. -/
def lampOfReg (a : Nat) : Option Nat :=
  if 0xE00100 ≤ a ∧ a < 0xE00500 then some ((a - 0xE00100) / 0x40)
  else if 0x14000000 ≤ a ∧ a < 0x14000800 then some ((a - 0x14000000) / 128)
  else none

/-- The web coordinate at which line k of a set reaches a module (R294). -/
def Dev.lampCoord (d : Dev) (m : Fin 16) (seq : Nat) : Option Nat :=
  let b := barOf (d.effGet (F.LMP_MOD_CFG_BAR m))
  match d.set? seq with
  | none => none
  | some s => (s.lines[b]).bind fun p => (d.entry p.seq).bind fun e => (d.firePos b e p).map fun f =>
      ((((f / 2 ^ 8 : Nat) : Int) - (d.rd (Reg.LTC_BAR_OFFSET b)).toNat + (d.effRd (Reg.LMP_MOD_OFS m)).toNat) % (webMod : Int)).toNat

/-- Sets whose line has become known take their coordinate; one that the web has passed is latched at once. -/
def Dev.lampPlace (d : Dev) : Dev :=
  d.lmp.sets.foldl (fun (d : Dev) s =>
    if s.now || s.at_.isSome then d
    else
      match d.lampCoord ⟨s.mod % 16, Nat.mod_lt _ (by decide)⟩ s.seq with
      | none => d
      | some x =>
        let passed := !webAfter x d.web
        let d : Dev := { d with lmp := { d.lmp with sets := d.lmp.sets.map fun t => if t = s then { t with at_ := some x, now := passed } else t } }
        if passed then d.lampAsk else d.addCoord x) d

/-- A captured set's lamp fields set out: at capture with BAR = 0xF or in a mode that issues no lines. -/
def Dev.lampCapture (d : Dev) (s : SetRec) (m : Fin 16) : Dev :=
  let fs := s.fields.filter fun f => lampOfReg f.1 = some m.val
  if fs.isEmpty then d
  else
    let now := d.effGet (F.LMP_MOD_CFG_BAR m) ≥ 12 || !d.printing
    let d : Dev := { d with lmp := { d.lmp with sets := d.lmp.sets ++ [{ seq := s.seq, mod := m, fields := fs, now := now }] } }
    if now then d.lampAsk else d

/-- A set has arrived on a bar before its coordinate was known: it is latched at once. -/
def Dev.lampArrive (d : Dev) (b : Fin 12) (seq : Nat) : Dev :=
  let hit (t : LampSet) : Bool := t.seq = seq && t.at_.isNone && !t.now && d.effGet (F.LMP_MOD_CFG_BAR t.mod) = b.val
  if d.lmp.sets.any hit then
    ({ d with lmp := { d.lmp with sets := d.lmp.sets.map fun t => if hit t then { t with now := true } else t } } : Dev).lampAsk
  else d

/-- Captured sets, and sets that have arrived on bars, are handed to the camera ports and the lamp modules (R264, R294). -/
def Dev.handOver (d : Dev) : Dev :=
  let caps := d.job.captured
  let d : Dev := { d with job := { d.job with captured := [] } }
  let d := caps.foldl (fun d s => (List.finRange 16).foldl (fun (d : Dev) (m : Fin 16) => d.lampCapture s m)
    ((List.finRange 4).foldl (fun (d : Dev) (p : Fin 4) => d.visCapture s p) d)) d
  let d := d.lampPlace
  allBars.foldl (fun (d : Dev) (b : Fin 12) =>
    let got := (d.bar b).arrived
    if got.isEmpty then d
    else got.foldl (fun (d : Dev) seq => (d.visArrive b seq).lampArrive b seq) (d.modBar b fun s => { s with arrived := [] })) d

/-- The fields that the next LATCH carries take effect: those latched now, and those of the coordinate that comes next or has passed. -/
def Dev.lampTake (d : Dev) : Dev :=
  let next := d.lmp.coords.head?
  let goes (t : LampSet) : Bool :=
    t.now || (match t.at_ with | some x => !webAfter x d.web || (d.lmp.due.isNone && some x = next) | none => false)
  let d0 := d
  let d : Dev := { d with lmp := { d.lmp with sets := d.lmp.sets.filter fun t => !goes t } }
  (d0.lmp.sets.filter goes).foldl (fun (d : Dev) t =>
    let d : Dev := t.fields.foldl (fun (d : Dev) f => if d.newest f.1 t.seq then (d.effWr f.1 f.2).noteField f.1 t.seq else d) d
    if d.mode = .hold then d.modLamp ⟨t.mod % 16, Nat.mod_lt _ (by decide)⟩ fun s => { s with changed := true } else d) d

/-- Modules whose levels for the next LATCH differ from what they hold staged. -/
def Dev.lampDiff (d : Dev) : List (Fin 16) := d.lampsOn.filter fun m => !d.lampLost m && (d.lampMod m).staged ≠ some (d.lampWant m)

/-- Staging is complete: every module has what the next LATCH gives it. -/
def Dev.lampStaged (d : Dev) : Bool := d.lampTake.lampDiff.isEmpty && !d.stagesWait

/-- LAMP_STAGE: in HOLD only sets change what is staged, for no tick is latched. -/
def Dev.lampStage (d : Dev) : Dev :=
  if d.busDriven then
    let d := d.lampTake
    let ms := d.lampDiff
    let d := ms.foldl (fun d m => d.lampSend m (d.lampWant m)) d
    if ms.isEmpty then d else d.mirrorSend 0xA6 ((ms.flatMap fun m => m.val :: d.lampWant m) ++ d.lmp.coords)
  else d

/-- A pulse of the latch channel (R292, R293): within a break, or while a LATCH waits, it is merged; before staging is complete it is
late, and counted. -/
def Dev.lampPulse (d : Dev) : Dev :=
  if !d.busDriven then d
  else if d.lmp.due.isSome || d.now < d.lmp.breakEnd then d.addSat F.LMP_LATCH_MERGED 1
  else
    let late := !d.lampStaged
    let d : Dev := { d with lmp := { d.lmp with due := some d.now, late := late } }
    if late then d.addSat F.LMP_LATCH_LATE 1 else d

/-- LAMP_LATCH: once staging is complete and no module is responding, the break, and with it the levels staged. It follows the byte in
progress; a frame it interrupts is sent again (R289). A late one is reported with its delay, at most once per 1 ms (R293). -/
def Dev.lampLatch (d : Dev) : Dev :=
  match d.lmp.due with
  | none => d
  | some t =>
    if !d.busDriven || !d.lampStaged || d.now < d.lmp.respEnd then d
    else
      let d := d.lampsOn.foldl (fun (d : Dev) (m : Fin 16) => d.modLamp m fun s =>
        { s with lit := s.staged.getD s.lit, held := if d.mode = .hold then s.held else none }) d
      let (start, again) : Nat × List LampFrame := match d.lmp.sending with | some (f, _, e) => (e, [f]) | none => (d.now, [])
      let d := (d.emit .lampBreak).add F.LMP_LATCH_COUNT 1
      let due := match d.lmp.lateAt with | some a => decide (a + 1000000 ≤ d.now) | none => true
      let tell := d.lmp.late && due
      let d := if tell then d.raise Ev.LMP_LATCH_LATE 15 none [0, 0, start - t] else d
      { d with lmp := { d.lmp with due := none, late := false, breakEnd := start + 1600, lateAt := if tell then some d.now else d.lmp.lateAt,
                                   sending := none, queue := again ++ d.lmp.queue } }

/-- LATCH_NOW. -/
def Dev.latchNow (d : Dev) : Dev := d.lampAsk

/-! ### Coverage (R295, R296) -/

/-- The coordinate of a tick. -/
def Dev.tickAt (d : Dev) (i : Nat) : Nat := (d.effPair Reg.LMP_COV_BASE_LO Reg.LMP_COV_BASE_HI + i * (d.rd Reg.LMP_COV_STEP).toNat) % webMod

/-- The number of the first tick ahead of the web. -/
def Dev.firstTick (d : Dev) : Nat :=
  let x := webDiff d.web (d.effPair Reg.LMP_COV_BASE_LO Reg.LMP_COV_BASE_HI)
  if x < 0 then 0 else x.toNat / max 1 (d.rd Reg.LMP_COV_STEP).toNat + 1

/-- Modules that take their levels from coverage. -/
def Dev.covMods (d : Dev) : List (Fin 16) :=
  d.lampsOn.filter fun m => d.effBit (F.LMP_MOD_CTL_MODE m) && d.effGet (F.LMP_MOD_CFG_BAR m) < 12

/-- A material point lies in the window of a module that ends before a tick at T: [T - OFS, T - OFS + STEP), in 2^-8 nm. -/
def Dev.covIn (d : Dev) (m : Fin 16) (t x : Nat) : Bool :=
  let lo := (((t : Int) - (d.effRd (Reg.LMP_MOD_OFS m)).toNat) % (webMod : Int)).toNat * 2 ^ 8
  decide (0 ≤ diff56 x lo) && decide (diff56 x lo < ((d.rd Reg.LMP_COV_STEP).toNat * 2 ^ 8 : Nat))

/-- The lines of a window that the bar has still to fire. -/
def Dev.covDue (d : Dev) (m : Fin 16) (t : Nat) : Nat :=
  let b := barOf (d.effGet (F.LMP_MOD_CFG_BAR m))
  let ofs := (d.rd (Reg.LTC_BAR_OFFSET b)).toNat * 2 ^ 8
  let from_ : Option LinePos := match (d.bar b).issued.find? fun i => !i.fired with
    | some i => some i.pos
    | none => match (d.bar b).lastLine with
      | some p => d.nextLine b p
      | none => d.nextLineFrom b (d.job.entries.length + 1) (d.bar b).cur
  let rec go : Nat → Option LinePos → Nat → Nat
    | 0, _, k => k
    | _, none, k => k
    | f + 1, some p, k =>
      match (d.entry p.seq).bind fun e => d.firePos b e p with
      | none => k
      | some fp =>
        let x := (((fp : Int) - ofs) % (fireMod : Int)).toNat
        if d.covIn m t x then go f (d.nextLine b p) (k + 1)
        else if k = 0 && 0 < diff56 (((t : Int) - (d.effRd (Reg.LMP_MOD_OFS m)).toNat) % (webMod : Int)).toNat (x / 2 ^ 8) then go f (d.nextLine b p) k
        else k
  go 65536 from_ 0

/-- The duty a coverage gives (R295, steps 5 to 7). -/
def covDuty (dmin dmax c n : Nat) : Nat :=
  let cov := if n = 0 then 0 else 65535 * c / n
  (((dmin : Int) + (((dmax : Int) - (dmin : Int)) * cov + 32767) / 2 ^ 16)).toNat

/-- The duties of a module at a tick. -/
def Dev.covLevels (d : Dev) (m : Fin 16) (t due : Nat) : List Nat :=
  let b := barOf (d.effGet (F.LMP_MOD_CFG_BAR m))
  let lines := d.lmp.cov[b].filter fun l => d.covIn m t l.x
  let first := d.effGet (F.LMP_MOD_FIRST_POS m)
  let w := d.effGet (F.LMP_MOD_SEGW_POS m)
  (List.range (d.lampSegs m)).map fun s =>
    let c := lines.foldl (fun a l => a + ((l.levels.drop (first + s * w)).take w).foldl (· + ·) 0) 0
    covDuty (d.effGet (F.LMP_MOD_LVL_DMIN m)) (d.effGet (F.LMP_MOD_LVL_DMAX m)) (c + 3 * w * due) (3 * w * (lines.length + due))

/-- COVERAGE_TICK: staging for the next tick begins once the lines of every window have fired, or 1.2 ms before the tick, the lines then due
counting at level 3. -/
def Dev.coverageTick (d : Dev) : Dev :=
  if d.mode ≠ .print || !d.busDriven || d.covMods.isEmpty || d.rd Reg.LMP_COV_STEP = 0 then d
  else
    let t := d.tickAt d.lmp.tick
    let due := d.covMods.map fun m => (m, d.covDue m t)
    let near := !webAfter t ((((d.web : Nat) : Int) + d.speedI * 1200000 / 1000000000) % (webMod : Int)).toNat
    if (due.any fun x => x.2 ≠ 0) && !near then d
    else
      let d := due.foldl (fun (d : Dev) x =>
        let d0 := d
        let d := d.modLamp x.1 fun s => { s with cov := d0.covLevels x.1 t x.2 }
        let again := match d.lmp.covLateAt[x.1] with | some a => decide (a + 1000000 ≤ d.now) | none => true
        if x.2 ≠ 0 && again then
          ({ d with lmp := { d.lmp with covLateAt := d.lmp.covLateAt.set x.1 (some d.now) } } : Dev).raise Ev.LMP_COV_LATE 15 none [x.1.val, 0, x.2]
        else d) d
      let d : Dev := { d with lmp := { d.lmp with tick := d.lmp.tick + 1 } }
      if webAfter t d.web then d.addCoord t else d.lampAsk

/-! ### Polls, headroom, status (R290, R297, R298) -/

/-- The headroom loop over what the round reported. -/
def Dev.headroom (d : Dev) : Dev :=
  let hs := d.lampsOn.filterMap fun m => if d.lampLost m || !((d.lampMod m).lit.any lampLit) then none else (d.lampMod m).hr
  match hs with
  | [] => d
  | h :: r =>
    let hmin := r.foldl min h
    let d := d.set F.LMP_HRC_STATUS_HMIN hmin
    let low := decide (hmin < d.get F.LMP_HRC_TGT_LOW)
    let d := if low && !d.lmp.low then d.raise Ev.LMP_HEADROOM_LOW 15 none [0, 0, hmin] else d
    let d : Dev := { d with lmp := { d.lmp with low := low } }
    if !d.bit F.LMP_HRC_CFG_EN || d.mode = .safe || d.stopping then d
    else
      let step : Int := d.get F.LMP_HRC_CFG_STEPMAX
      let dl := clampI (-step) step (((hmin : Int) - d.get F.LMP_HRC_TGT_TARGET) * d.get F.LMP_HRC_CFG_KI / 256)
      let dl := if d.bit F.LMP_HRC_CFG_POL then -dl else dl
      d.set F.LMP_HRC_STATUS_CODE (clampI (d.get F.LMP_HRC_LIM_MIN) (d.get F.LMP_HRC_LIM_MAX) ((d.get F.LMP_HRC_STATUS_CODE : Int) - dl)).toNat

/-- LAMP_POLL: a round begins, every module's POLL joining the queue; the loop runs over the round before. -/
def Dev.lampPoll (d : Dev) : Dev :=
  let round := max 250 (d.effGet F.LMP_BUS_POLL) * 1000
  let dueNow := match d.lmp.pollAt with | some t => decide (t + round ≤ d.now) | none => true
  if !d.busDriven || !dueNow then d
  else
    let d := d.headroom
    let d : Dev := { d with lmp := { d.lmp with pollAt := some d.now } }
    d.lampsOn.foldl (fun (d : Dev) (m : Fin 16) =>
      let d := d.modLamp m fun s => { s with hr := none }
      if d.lmp.queue.contains ⟨m, 0x03, []⟩ then d else d.lampQueue ⟨m, 0x03, []⟩) d

/-- LMP_STATUS and the state of a module. -/
def Dev.lampState (d : Dev) (m : Fin 16) (st : Nat) : Dev :=
  let d := d.set (F.LMP_MOD_STATUS_STATE m) st
  (d.setB ⟨Reg.LMP_STATUS, 16 + m.val, 1⟩ (st = 2)).setB ⟨Reg.LMP_STATUS, m.val, 1⟩ (st = 1)

/-- A record of a module's life: warnings at 90 % and 100 % of the rated hours, once each (R299). -/
def Dev.lampLife (d : Dev) (m : Fin 16) : Dev :=
  let sec := (d.rd (Reg.LMP_MOD_HOURS m)).toNat
  let rated := d.get (F.LMP_MOD_RATED_HOURS m) * 3600
  let d := if rated ≠ 0 && decide (rated * 9 ≤ sec * 10) && !d.bit (F.LMP_MOD_STATUS_LIFE_WARN m) then
    (d.set (F.LMP_MOD_STATUS_LIFE_WARN m) 1).raise Ev.LMP_LIFE_WARN 15 none [m.val] else d
  if rated ≠ 0 && decide (rated ≤ sec) && !d.bit (F.LMP_MOD_STATUS_LIFE_END m) then
    (d.set (F.LMP_MOD_STATUS_LIFE_END m) 1).raise Ev.LMP_LIFE_END 15 none [m.val] else d

/-- An IDENT response: a module with another ID takes over the record (R299). -/
def Dev.lampIdent (d : Dev) (m : Fin 16) (id rated : Nat) : Dev :=
  let old := (d.rd (Reg.LMP_MOD_ID m)).toNat
  let w := 0x200 + 4 * m.val
  let d := if rated = d.get (F.LMP_MOD_RATED_HOURS m) then d else (d.set (F.LMP_MOD_RATED_HOURS m) rated).prsWrite (w + 2) (rated * 2 ^ 16)
  if id = old then d.lampLife m
  else
    let d := ((d.wr (Reg.LMP_MOD_ID m) (BitVec.ofNat 32 id)).wr (Reg.LMP_MOD_HOURS m) 0).modLamp m fun s => { s with saved := 0 }
    let d := (d.set (F.LMP_MOD_STATUS_LIFE_WARN m) 0).set (F.LMP_MOD_STATUS_LIFE_END m) 0
    ((d.prsWrite w id).prsWrite (w + 1) 0).raise Ev.LMP_MODULE_CHANGED 15 none [m.val, 0, old]

/-- Bits newly set in a word, one event each. -/
def Dev.newBits (d : Dev) (k : EvKind) (m old new : Nat) : Dev :=
  ((List.range 32).filter fun i => Nat.testBit new i && !Nat.testBit old i).foldl (fun d i => d.raise k 15 none [m, 2 ^ i]) d

/-- The bus time of a response: 19 bytes of POLL's, 14 of IDENT's. -/
def lampNs : LampAnswer → Nat
  | .poll .. => 9500
  | .ident .. => 7000

/-- The command a response answers. -/
def lampCmd : LampAnswer → Nat
  | .poll .. => 0x03
  | .ident .. => 0x04

/-- A response begins: the bus is the module's until its end. -/
def Dev.lampTaken (d : Dev) (r : LampAnswer) : Dev :=
  { d with lmp := { d.lmp with ask := none, respEnd := d.now + lampNs r, restAt := d.now + lampNs r } }

/-- LAMP_RESPONSE: a response to the request that awaits one. One with a wrong CRC is counted and discarded; a LOST module that answers is
back: IDENT, CONFIG and its current levels go out to it (R290). Its content counts from its begin. -/
def Dev.lampResponse (d : Dev) (m : Fin 16) (crcOk : Bool) (r : LampAnswer) : Dev :=
  match d.lmp.ask with
  | none => d
  | some (a, cmd, _) =>
    if !d.busDriven || a ≠ m.val || cmd ≠ lampCmd r then d
    else if !crcOk then (d.lampTaken r).addSat (F.LMP_MOD_ERR_CRC m) 1
    else
      let d := d.lampTaken r
      match r with
      | .ident id rated _ _ => (if d.get (F.LMP_MOD_STATUS_STATE m) = 0 then d.lampState m 1 else d).lampIdent m id.toNat rated
      | .poll status hr op un temp =>
        let d := d.modLamp m fun s => { s with miss := 0, hr := some hr.val }
        let d := if d.lampLost m then
            let d := ((d.raise Ev.LMP_MODULE_BACK 15 none [m.val]).lampAskId m).lampConfig m
            d.lampSend m (d.lampWant m)
          else d
        let d := (d.lampState m 1).set (F.LMP_MOD_STATUS_FLAGS m) status.val
        let d := (d.set (F.LMP_MOD_STATUS_TEMP m) temp.val).set (F.LMP_MOD_STATUS_HEADROOM m) hr.val
        let d := d.newBits Ev.LMP_OPEN m (d.rd (Reg.LMP_MOD_OPEN m)).toNat op.toNat
        let d := d.newBits Ev.LMP_UNVERIFIED m (d.rd (Reg.LMP_MOD_UNVER m)).toNat un.toNat
        (d.wr (Reg.LMP_MOD_OPEN m) op).wr (Reg.LMP_MOD_UNVER m) un

/-- LAMP_RSP_TIMEOUT: RSP_TMO has passed since the request's end; a response that begins in the same cycle (`comes`) wins. A missed POLL counts
toward LOST; a module that does not answer IDENT at boot step 10 is LOST (R290, R304). -/
def Dev.lampTimeout (d : Dev) (m : Fin 16) (comes : Bool) : Dev :=
  match d.lmp.ask with
  | none => d
  | some (a, cmd, t) =>
    if !d.busDriven || a ≠ m.val || comes || !decide (t + d.effGet F.LMP_BUS_RSP_TMO * 100 ≤ d.now) then d
    else
      let d : Dev := { d with lmp := { d.lmp with ask := none } }
      let lost (d : Dev) : Dev := if d.lampLost m then d else (d.lampState m 2).raise Ev.LMP_MODULE_LOST 15 none [m.val]
      if cmd = 0x04 then (if d.mode = .boot then lost d else d)
      else
        let miss := (d.lampMod m).miss + 1
        let d := (d.modLamp m fun s => { s with miss := miss }).addSat (F.LMP_MOD_ERR_MISS m) 1
        if max 1 (d.effGet F.LMP_BUS_MISS) ≤ miss then lost d else d

/-- LAMP_ON_SECOND: each second in which a module has a lit segment (R299). -/
def Dev.lampSecond (d : Dev) : Dev :=
  if !decide (d.lmp.secAt + 1000000000 ≤ d.now) then d
  else
    let d : Dev := { d with lmp := { d.lmp with secAt := d.lmp.secAt + 1000000000 } }
    if !d.lmpen then d
    else d.lampsOn.foldl (fun (d : Dev) (m : Fin 16) =>
      if (d.lampMod m).lit.any lampLit then (d.addSat (F.LMP_MOD_HOURS_SECONDS m) 1).lampLife m else d) d

/-- HOURS_SAVE, and the occasions of R174: changed on-seconds are persisted. -/
def Dev.hoursSave (d : Dev) : Dev :=
  (List.finRange 16).foldl (fun (d : Dev) (m : Fin 16) =>
    let sec := (d.rd (Reg.LMP_MOD_HOURS m)).toNat
    if sec = (d.lampMod m).saved then d
    else (d.modLamp m fun s => { s with saved := sec }).prsWrite (0x200 + 4 * m.val + 1) sec) d

/-- LMP_CNT_CLR. -/
def Dev.lmpCntClr (d : Dev) : Dev :=
  d.zeroCounts ([F.LMP_LATCH_LATE, F.LMP_LATCH_MERGED] ++ (List.range 16).flatMap fun m => [F.LMP_MOD_ERR_CRC m, F.LMP_MOD_ERR_MISS m])

/-! ### Modes (R300) -/

/-- A mode is entered: a LATCH with its levels; in SAFE every segment is dark and CODE is SAFE's. HOLD keeps what is lit. PRINT sets the next
tick, one that has been latched or passed never again, and lets go coordinates that the web passed in HOLD. -/
def Dev.lampMode (d : Dev) (entered : Mode) : Dev :=
  let d := if entered = .safe || entered = .shutdown then d.set F.LMP_HRC_STATUS_CODE (d.get F.LMP_HRC_SAFE_CODE) else d
  let d0 := d
  let held (m : Fin 16) (s : LampMod) : Option (List Nat) :=
    if entered = .hold then some (if s.lit.isEmpty then List.replicate (d0.lampSegs m) 0 else s.lit) else none
  let d : Dev := { d with lmp := { d.lmp with mods := updAll d.lmp.mods fun m s => { s with held := held m s, changed := false } } }
  let d : Dev := if entered = .print then
      let tick := if d.sys.prev = .hold then max d.lmp.tick d.firstTick else d.firstTick
      { d with lmp := { d.lmp with tick := tick, coords := d.lmp.coords.filter fun x => webAfter x d.web } }
    else if entered = .hold || entered = .shuttle then d
    else { d with lmp := { d.lmp with coords := [], sets := d.lmp.sets.map fun t => { t with now := true } } }
  if entered = .hold then d else d.lampAsk

/-! ### The panel (R301, R302) -/

/-- An LED state shows light in a frame: 0 off, 1 on, 2 slow, 3 fast. -/
def ledOn (st frame : Nat) : Bool :=
  match st with
  | 0 => false
  | 1 => true
  | 2 => frame / 500 % 2 = 0
  | _ => frame / 125 % 2 = 0

/-- The LED of a row and column: the device's own, or none where LMP_PNL_LED drives it. -/
def Dev.autoLed (d : Dev) (r c : Nat) : Option Nat :=
  if c < 12 && r < 4 then
    let b := barOf c
    let heads := d.noz.heads.filter fun h => h.img.bar = c
    match r with
    | 0 => some (if d.mode = .hold then 2 else if d.issues b then 1 else 0)
    | 1 => some (if (d.epsOf b).any fun e => d.zxl.win.toList.any fun v => Nat.testBit v e.ep then 3 else 0)
    | 2 => some (if heads.any fun h => h.span = 1 then 1 else 0)
    | _ => some (if heads.any (·.lifeEnd) then 1 else if heads.any (·.lifeWarn) then 2 else 0)
  else if c = 12 then
    let st := d.laneSt (laneOf r)
    some (if st = laneActive then 1 else if st = laneFailed then 3 else if st = laneOff || st = laneExcluded then 0 else 2)
  else if c = 13 then
    let m := r % 16
    match d.get (F.LMP_MOD_STATUS_STATE m) with
    | 1 => some (if d.rd (Reg.LMP_MOD_OPEN m) = 0 && d.rd (Reg.LMP_MOD_UNVER m) = 0 then 1 else 2)
    | 2 => some 3
    | _ => some 0
  else none

/-- The sinks of a row in a frame. -/
def Dev.rowCols (d : Dev) (r frame : Nat) : Nat :=
  (List.range 16).foldl (fun a c =>
    let host := d.get ⟨Reg.LMP_PNL_LED r, 2 * c, 2⟩
    let st := if d.bit F.LMP_PNL_CFG_AUTO then (d.autoLed r c).getD host else host
    if ledOn st frame then a + 2 ^ c else a) 0

/-- PANEL_ROW_SWITCH, every 62.5 µs: the row before goes off; the next row and its sinks come on after the pre-charge. The scan runs in every
mode in which the panel is driven. -/
def Dev.panelSwitch (d : Dev) : Dev :=
  if !d.bit F.LMP_PNL_CFG_EN || !(decide (2 ≤ d.mode.code) && decide (d.mode.code ≤ 9)) then
    { d with lmp := { d.lmp with cols := 0, rowNext := 0 } }
  else if d.now < d.lmp.rowNext then d
  else
    let r := (d.lmp.row + 1) % 16
    let frame := if r = 0 then d.lmp.frame + 1 else d.lmp.frame
    { d with lmp := { d.lmp with row := r, frame := frame, cols := d.rowCols r frame, rowAt := d.now + d.get F.LMP_PNL_CFG_PRE * 10,
                                 rowNext := d.now + 62500 } }

/-- The row source and the sinks that are on: none during the pre-charge. -/
def Dev.panelRow (d : Dev) : Option Nat := if d.lmp.rowNext = 0 || d.now < d.lmp.rowAt then none else some d.lmp.row

def Dev.panelCols (d : Dev) : Nat := if d.panelRow.isNone then 0 else d.lmp.cols

end Sys2Proof.Machine
end

