-- ==== Sys2Proof/Machine/Drc.lean ====
section
/-!
DEFINITION. The LPDDR5 controller (spec/13_dram.md, R305 to R331): units, ECC and poison, refresh debt and temperature classes, the
row-disturbance tracker, drift, operating points, and spare ranks. Each function is one command of the family, or a part of one.
-/
namespace Sys2Proof.Machine

def Dev.chRank (d : Dev) (i : Fin 8) : ChanRank := d.drc.cr[i]

def Dev.modCr (d : Dev) (i : Fin 8) (f : ChanRank → ChanRank) : Dev := { d with drc := { d.drc with cr := upd d.drc.cr i f } }

def Dev.modCh (d : Dev) (k : Fin 4) (f : MemChan → MemChan) : Dev := { d with drc := { d.drc with ch := upd d.drc.ch k f } }

/-- Boot step 3 has brought the memory up, with its store retained or newly written (R323). -/
def Dev.memUp (d : Dev) : Bool := d.bit F.DRC_STATUS_INIT_DONE || d.bit F.DRC_STATUS_RETAINED

/-- The controller takes requests: not in self-refresh, not in a mode in which the memory rests (R329). -/
def Dev.memTakes (d : Dev) : Bool := !d.drc.selfRef && d.memUp && !d.modeIn [.sleep, .shutdown, .frozen]

/-- It serves them: no operating-point change holds them (R326). -/
def Dev.memServes (d : Dev) : Bool := d.memTakes && !d.bit F.DRC_STATUS_FC_BUSY

/-- The timing set of the operating point in effect (R306). -/
def Dev.timing (d : Dev) : DramTiming := if d.get F.DRC_STATUS_OP = 0 then d.img.timing0 else d.img.timing1

/-- A channel-rank that the population has (R306). -/
def Dev.hasRank (d : Dev) (i : Fin 8) : Bool := decide (i.val % 2 < max 1 (d.get F.DRC_CFG_RANKS))

/-! ### Where a unit lies (R307, R309) -/

/-- Physical units of a channel of a rank. -/
def Dev.chanUnits (d : Dev) : Nat :=
  (match d.get F.DRC_CFG_DENSITY with | 0 => 2 ^ 24 | 1 => 3 * 2 ^ 23 | _ => 2 ^ 25) * (if d.bit F.DRC_CFG_X8 then 2 else 1)

/-- Place of a data unit: interface, channel, physical unit of the channel. -/
def unitAt (u : Nat) : Nat × Nat × Nat :=
  let v := u / 4
  (u % 4 / 2, u % 2, 8 * (v / 7) + v % 7)

/-- A spare is configured on an interface. -/
def Dev.spareOf (d : Dev) (i : Nat) : Nat := d.get (F.DRC_DI_STATE_SPARE i)

/-- The rank a physical unit is read from: by place without a spare, else the active rank, and below the copy pointer of a migration the
spare (R309, R327). -/
def Dev.rankOf (d : Dev) (i p : Nat) : Nat :=
  match d.spareOf i with
  | 0 => p / d.chanUnits % 2
  | 2 => if p < (d.rd (Reg.DRC_DI_MIG i)).toNat then 1 else 0
  | _ => d.get (F.DRC_DI_STATE_ACTIVE i)

/-- Channel-rank, bank and row of a data unit. -/
def Dev.rowOf (d : Dev) (u : Nat) : Fin 8 × Nat × Nat :=
  let (i, c, p) := unitAt u
  let q := p % d.chanUnits
  (⟨(4 * i + 2 * c + d.rankOf i p) % 8, Nat.mod_lt _ (by decide)⟩, q / 2 ^ 5 % 16, q / 2 ^ 9)

/-- Detail words 0x20 to 0x28: interface, channel and rank, then the address. -/
def Dev.unitWords (d : Dev) (u : Nat) : List Nat :=
  let (i, c, p) := unitAt u
  [i + 2 * c + 4 * d.rankOf i p, u * 64 % 2 ^ 32, u * 64 / 2 ^ 32]

def crWord (i : Fin 8) : Nat := i.val / 4 + 2 * (i.val / 2 % 2) + 4 * (i.val % 2)

/-! ### Refresh and temperature (R316 to R319) -/

def Dev.debtLimit (d : Dev) (cls : Nat) : Nat :=
  let p := clampN 1 8 (d.get F.DRC_REF_POSTPONE)
  match cls with | 0 => p | 1 => min p 4 | _ => min p 2

/-- The interval of refreshes of a class, ns (R318). -/
def Dev.refreshNs (d : Dev) (cls : Nat) : Nat := d.timing.refi / (match cls with | 0 => 1 | 1 => 2 | _ => 4)

/-- No refresh and no targeted refresh holds a bank of a channel-rank. -/
def Dev.bankFree (d : Dev) (i : Fin 8) (bank t : Nat) : Bool := (d.chRank i).busy.all fun x => x.1 ≠ bank || decide (x.2 ≤ t)

/-- The next refresh in rotation can go out: tpbR2pbR after the last one, its bank pair free. A pair is the banks p and p + 8 (log 67). -/
def Dev.canRefresh (d : Dev) (i : Fin 8) (t : Nat) : Bool :=
  let s := d.chRank i
  (match s.refAt with | some a => decide (a + d.timing.r2r ≤ t) | none => true) && d.bankFree i s.pair t && d.bankFree i (s.pair + 8) t

/-- A bank is held until a time. -/
def ChanRank.hold (s : ChanRank) (now bank till : Nat) : ChanRank :=
  { s with busy := (s.busy.filter fun x => decide (now < x.2)) ++ [(bank, till)] }

/-- The next refresh in rotation goes out; it covers a bank pair for tRFCpb. -/
def Dev.issueRefresh (d : Dev) (i : Fin 8) (t : Nat) : Dev :=
  let till := t + d.timing.rfc
  d.modCr i fun s => { (s.hold d.now s.pair till).hold d.now (s.pair + 8) till with pair := (s.pair + 1) % 8, refAt := some t }

/-- The class of a request (R313): RT, MGMT, or its place among the requesters of item 5. -/
def isRt : Client → Bool
  | .bar _ => true
  | _ => false

def isMgmt : Client → Bool
  | .schedule | .density | .checkUnit => true
  | _ => false

/-- The place of a requester in the round robin of item 5: the bar readers beyond their reservation count as one, and so does a migration that
has fallen behind (R314). -/
def turnOf (late : Bool) : Client → Option Nat
  | .ingest c => some c.val
  | .encoder => some 4
  | .vision => some 5
  | .window => some 6
  | .writeBack => some 7
  | .bar _ => some 8
  | .migrate => if late then some 9 else none
  | _ => none

def chanOf (u : Nat) : Fin 4 := ⟨u % 4, Nat.mod_lt _ (by decide)⟩

/-- The channel-rank of a channel 2i + c and a rank r: 4i + 2c + r. -/
def crOf (ch : Fin 4) (r : Fin 2) : Fin 8 := ⟨2 * ch.val + r.val, by omega⟩

/-- An RT request waits for the bank pair next in rotation (R316). -/
def Dev.rtWaits (d : Dev) (i : Fin 8) : Bool :=
  d.drc.ch.toList.any fun c => c.waiting.any fun r =>
    let x := d.rowOf r.u
    isRt r.who && x.1 = i && x.2.1 % 8 = (d.chRank i).pair

/-- REFRESH_DUE, every refresh interval: issued when no RT request waits for its bank pair; else postponed; at the limit it must go out at the
next boundary (R317). One that falls due in the cycle of a payment and cannot be postponed joins the payment (R319). -/
def Dev.refreshDue (d : Dev) (i : Fin 8) : Dev :=
  let s := d.chRank i
  let ns := d.refreshNs s.cls
  if !d.memServes || !d.hasRank i || decide (d.now < s.dueAt + ns) then d
  else
    let di := i.val / 4
    let d := d.modCr i fun s => { s with dueAt := if d.now < s.dueAt + 2 * ns then s.dueAt + ns else d.now }
    let insert (d : Dev) : Dev := (d.modCr i fun s => { s with must := s.must + 1 }).addSat (F.DRC_DI_REF_INSERTED di) 1
    let joins := match s.pay with | some p => p.full && p.at_ = d.now | none => false
    if !d.rtWaits i && d.canRefresh i d.now && s.must = 0 then d.issueRefresh i d.now
    else if joins then insert d
    else if s.debt < d.debtLimit s.cls then
      let d := d.modCr i fun s => { s with debt := s.debt + 1 }
      d.set (F.DRC_DI_REF_DEBT_MAX di) (max (d.get (F.DRC_DI_REF_DEBT_MAX di)) (s.debt + 1))
    else insert d

/-- DRC_HOT, with the class and the debt paid. -/
def Dev.hotEvent (d : Dev) (i : Fin 8) (cls paid : Nat) : Dev := d.raise Ev.DRC_HOT 15 none [crWord i, 0, 0, min cls 2, paid]

/-- A class takes effect on a channel-rank: a debt above its limit must be paid at once, and DRC_HOT then comes with the end of the payment
(R318, R319). -/
def Dev.newClass (d : Dev) (i : Fin 8) (cls : Nat) : Dev :=
  let s := d.chRank i
  let di := i.val / 4
  let pays := decide (d.debtLimit cls < s.debt)
  let pay : DebtPay := { at_ := d.now, full := decide (d.debtLimit s.cls ≤ s.debt), cls := cls, paid := s.debt }
  let d := if pays then d.addSat (F.DRC_DI_REF_HOTPAY di) 1 else d
  let d := d.modCr i fun s =>
    let s : ChanRank := { s with cls := cls, cool := none }
    if pays then { s with must := s.must + s.debt, debt := 0, pay := some pay } else s
  let d := d.setB ⟨Reg.DRC_STATUS, 16 + i.val, 1⟩ (cls ≠ 0)
  if s.cls < cls then
    let d := if pays then d else d.hotEvent i cls 0
    if cls = 3 then d.raise Ev.DRC_TEMP_LIMIT 15 none [crWord i] else d
  else if cls = 0 then d.raise Ev.DRC_COOL 15 none [crWord i] else d

/-- MR4_POLL, every POLL ms: a hotter class at once, a cooler one on the second poll in a row that reports it; within steps 3 to 5 of an
operating-point change it waits for the end (R318, R326). -/
def Dev.mr4Poll (d : Dev) (i : Fin 8) (rate cls : Nat) : Dev :=
  if !d.memTakes || !d.hasRank i || decide (d.now < (d.chRank i).polledAt + max 1 (d.get F.DRC_TEMP_POLL) * 1000000) then d
  else
    let fld : Fld := ⟨Reg.DRC_DI_MR4 (i.val / 4), 8 * (i.val % 4), 5⟩
    let d := (d.set fld rate).modCr i fun s => { s with polledAt := d.now }
    let s := d.chRank i
    if cls = s.cls then d.modCr i fun s => { s with cool := none }
    else if s.cls < cls || s.cool = some cls then
      match d.drc.fcAt with
      | some t => if d.now < t + 1000 then d.newClass i cls else d.modCr i fun s => { s with late := some cls }
      | none => d.newClass i cls
    else d.modCr i fun s => { s with cool := some cls }

/-! ### Row disturbance (R320, R321) -/

/-- One activate in a bank's tracker: the entries, and the count that the row has reached. -/
def trackRow (es : List (Nat × Nat)) (x : Nat) : List (Nat × Nat) × Nat :=
  match es.find? fun e => e.1 = x with
  | some e => (es.map fun y => if y.1 = x then (x, e.2 + 1) else y, e.2 + 1)
  | none =>
    if es.length < 16 then (es ++ [(x, 1)], 1)
    else
      let low := es.foldl (fun m e => min m e.2) ((es.headD (0, 0)).2)
      let i := es.findIdx fun e => e.2 = low
      (es.set i (x, low + 1), low + 1)

/-- An activate of a row: at the threshold a targeted refresh of the rows beside it is queued (R320). -/
def Dev.activate (d : Dev) (i : Fin 8) (bank row : Nat) : Dev :=
  if !d.effBit F.DRC_RH_EN then d
  else
    let es := (((d.chRank i).track.find? fun t => t.1 = bank).map (·.2)).getD []
    let (es, n) := trackRow es row
    let hit := decide (max 256 (d.effGet F.DRC_RH_THRESH) ≤ n)
    let es := if hit then es.map fun e => if e.1 = row then (row, 0) else e else es
    d.modCr i fun s =>
      { s with track := Sparse.insert s.track bank es, rht := if hit then s.rht ++ [(bank, row)] else s.rht }

/-- An access that activates the row of a unit. -/
def Dev.activateRow (d : Dev) (u : Nat) : Dev :=
  let (i, bank, row) := d.rowOf u
  d.activate i bank row

/-- Rows beside a row that lie within the bank (R321). -/
def Dev.besides (d : Dev) (x : Nat) : List Nat :=
  (if 2 ≤ x then [x - 2] else []) ++ (if 1 ≤ x then [x - 1] else []) ++ [x + 1, x + 2].filter fun y => decide (y < d.chanUnits / 2 ^ 9)

/-- The first targeted refresh whose bank is free starts: it activates each neighbour row and keeps the bank for 4 × tRC (R321). -/
def Dev.startTargeted (d : Dev) (i : Fin 8) (t : Nat) : Dev :=
  match (d.chRank i).rht.find? fun x => d.bankFree i x.1 t with
  | none => d
  | some x =>
    let d := d.modCr i fun s => { s.hold d.now x.1 (t + 4 * d.timing.rc) with rht := s.rht.erase x }
    let d := (d.addSat (F.DRC_DI_RHT_COUNT (i.val / 4)) 1).raiseC Ev.DRC_RH_REFRESH (i.val / 4) 15 none [crWord i, 0, 0, 1] 1 [(3, 1)]
    (d.besides x.2).foldl (fun (d : Dev) y => d.activate i x.1 y) d

/-- The length of a tracker window, ns. -/
def trackNs (cls : Nat) : Nat := (match cls with | 0 => 32 | 1 => 16 | _ => 8) * 1000000

/-- TRACKER_WINDOW_END. -/
def Dev.trackerEnd (d : Dev) (i : Fin 8) : Dev :=
  if (d.chRank i).winAt + trackNs (d.chRank i).cls ≤ d.now then d.modCr i fun s => { s with track := [], winAt := d.now } else d

/-! ### Reads, writes and errors (R308, R310, R311) -/

def ifaceOf (u : Nat) : Fin 2 := ⟨u % 4 / 2 % 2, Nat.mod_lt _ (by decide)⟩

/-- An error at a unit is noted in DRC_ERR. -/
def Dev.noteErr (d : Dev) (u : Nat) (ue : Bool) : Dev :=
  let d := d.wr Reg.DRC_ERR_LO (BitVec.ofNat 32 (u * 64))
  (d.set F.DRC_ERR_HI_ADDR (u * 64 / 2 ^ 32)).setB F.DRC_ERR_HI_UE ue

/-- Retirement begins: with a spare held; otherwise DRC_NO_SPARE, once; nothing new while one is under way or done. -/
def Dev.retire (d : Dev) (i : Fin 2) (why : Nat) (words : List Nat) : Dev :=
  match d.spareOf i with
  | 1 =>
    let d := (d.set (F.DRC_DI_STATE_SPARE i) 2).wr (Reg.DRC_DI_MIG i) 0
    let d : Dev := { d with drc := { d.drc with migBad := d.drc.migBad.set i 0, migAt := d.drc.migAt.set i d.now,
                                                migLeft := d.drc.migLeft.set i 0, migLate := d.drc.migLate.set i false,
                                                ueRank := d.drc.ueRank.set i 0, ce := d.drc.ce.set i [] } }
    (d.prsWrite (0x90 + i.val) (d.rd (Reg.DRC_DI_STATE i)).toNat).raise Ev.DRC_RANK_RETIRED 15 none (words ++ [why])
  | 2 => d
  | _ =>
    if d.drc.noSpare[i] then d
    else ({ d with drc := { d.drc with noSpare := d.drc.noSpare.set i true } } : Dev).raise Ev.DRC_NO_SPARE 15 none words

/-- An error at a unit counts toward the retirement of its rank: not on a rank that is being retired (R327). -/
def Dev.countsAt (d : Dev) (u : Nat) : Bool :=
  let (i, _, p) := unitAt u
  d.spareOf i ≠ 2 || d.rankOf i p = 1

/-- A unit is poisoned: once, with its error. -/
def Dev.poisonUnit (d : Dev) (u : Nat) : Dev :=
  if d.poison.contains u then d
  else
    let i := ifaceOf u
    let d := ({ d with poison := sortedNodup (u :: d.poison) } : Dev).addSat F.DRC_POISON_UNITS 1
    let d := ((d.addSat (F.DRC_DI_UE_COUNT i) 1).noteErr u true).raise Ev.DRC_UE 15 none (d.unitWords u)
    if !d.countsAt u then d
    else
      let n := d.drc.ueRank[i] + 1
      let d : Dev := { d with drc := { d.drc with ueRank := d.drc.ueRank.set i n } }
      if max 1 (d.effGet F.DRC_SPARE_UE_LIMIT) ≤ n then d.retire i 1 (d.unitWords u) else d

/-- A corrected error: counted, coalesced, and counted toward retirement within the hour. -/
def Dev.correctedAt (d : Dev) (u : Nat) : Dev :=
  let i := ifaceOf u
  let d := ((d.addSat (F.DRC_DI_CE_COUNT i) 1).noteErr u false).raiseC Ev.DRC_CE i.val 15 none (d.unitWords u) 1 []
  if !d.countsAt u then d
  else
    let recent := (d.drc.ce[i].filter fun t => decide (d.now < t + 3600000000000)) ++ [d.now]
    let d : Dev := { d with drc := { d.drc with ce := d.drc.ce.set i recent } }
    let lim := d.effGet F.DRC_SPARE_CE_LIMIT
    if lim ≠ 0 && decide (lim ≤ recent.length) then d.retire i 2 (d.unitWords u) else d

/-- A unit is read: a unit already poisoned is delivered so, without event or count. -/
def Dev.readUnit (d : Dev) (u : Nat) (e : Ecc) : Dev :=
  if d.poison.contains u then d
  else match e with
    | .clean => d
    | .corrected => d.correctedAt u
    | .bad => d.poisonUnit u

/-- Bytes of one unit are written. A whole unit clears its poison; a partial write merges with what the unit holds, corrected, or poisons it
where it cannot be corrected and leaves the poison (R308). While a migration has not reached the unit both ranks are written (R327). -/
def Dev.writeUnit (d : Dev) (r : MemReq) (o : Nat) (data : List (BitVec 8)) (e : Ecc) : Dev :=
  let (i, _, p) := unitAt r.u
  let (cr, bank, row) := d.rowOf r.u
  let d := if r.act && d.spareOf i = 2 && d.rankOf i p = 0 then d.activate (other cr) bank row else d
  if data.length = 64 then d.storeData (64 * r.u) data
  else
    let d := (d.readUnit r.u e).putBytes (64 * r.u + o) data
    if e = .bad then d else { d with poison := d.poison.filter (· ≠ r.u) }
where
  /-- The other rank of a channel. -/
  other (i : Fin 8) : Fin 8 := if i.val % 2 = 0 then ⟨(i.val + 1) % 8, Nat.mod_lt _ (by decide)⟩ else ⟨i.val - 1, by omega⟩

/-- Data units per channel of the job store. -/
def Dev.chanData (d : Dev) : Nat := d.cap / 64 / 4

/-- A channel's copy at M is made: an unreadable unit arrives poisoned and is counted. When both channels have copied, M moves on, and the last
copy ends the migration (R327). -/
def Dev.copyUnit (d : Dev) (u : Nat) (e : Ecc) : Dev :=
  let i := ifaceOf u
  let d := if e = .bad && !d.poison.contains u then
      (({ d with drc := { d.drc with migBad := d.drc.migBad.set i (d.drc.migBad[i] + 1) } } : Dev)).poisonUnit u
    else d.readUnit u e
  let left := d.drc.migLeft[i] - 1
  let d : Dev := { d with drc := { d.drc with migLeft := d.drc.migLeft.set i left } }
  if left ≠ 0 then d
  else
    let m := (d.rd (Reg.DRC_DI_MIG i)).toNat
    let next := if m % 8 = 6 then m + 2 else m + 1
    let d := d.wr (Reg.DRC_DI_MIG i) (BitVec.ofNat 32 next)
    if d.chanData ≤ next / 8 * 7 + next % 8 then
      let d := (d.set (F.DRC_DI_STATE_SPARE i) 3).set (F.DRC_DI_STATE_ACTIVE i) 1
      (d.prsWrite (0x90 + i.val) (d.rd (Reg.DRC_DI_STATE i)).toNat).raise Ev.DRC_MIG_DONE 15 none [i.val, 0, 0, d.drc.migBad[i]]
    else d

/-- A request is carried out. What a write of the same cycle has left reads without error (R310). -/
def Dev.carryOut (d : Dev) (r : MemReq) : Dev :=
  let k := chanOf r.u
  let e := if d.drc.ch[k].wrote = some (r.u, d.now) then .clean else r.e
  let d := if r.act then d.activateRow r.u else d
  match r.wr, r.who with
  | some (o, data), _ => (d.writeUnit r o data e).modCh k fun c => { c with wrote := some (r.u, d.now) }
  | none, .migrate => d.copyUnit r.u e
  | none, .writeBack => d
  | none, _ =>
    let back := e = .corrected && !d.poison.contains r.u
    let d := d.readUnit r.u e
    if back then d.modCh k fun c => { c with waiting := c.waiting ++ [{ who := .writeBack, u := r.u, act := false, e := .clean }] } else d

/-! ### The order of service (R314, R315, R317, R321) -/

/-- A burst of one unit, ns. -/
def Dev.burstNs (d : Dev) : Nat := if d.get F.DRC_STATUS_OP = 0 then 5 else 10

/-- RT is within its reservation on a channel: a quarter of it in each window of 1 µs (R315). -/
def Dev.rtWithin (d : Dev) (k : Fin 4) (t : Nat) : Bool :=
  let c := d.drc.ch[k]
  decide (4 * ((if c.win = t / 1000 then c.rtUsed else 0) + 64) ≤ d.get F.JOB_RT_RES_MBPS)

/-- MGMT is within 1 GB/s across the device. -/
def Dev.mgmtWithin (d : Dev) (t : Nat) : Bool := decide ((if d.drc.mgmtWin = t / 1000 then d.drc.mgmtUsed else 0) + 64 ≤ 1000)

/-- Migration of a request's interface has fallen behind. -/
def Dev.copyLate (d : Dev) (r : MemReq) : Bool := d.drc.migLate[ifaceOf r.u]

/-- The request a channel serves next: RT within its reservation, MGMT within its rate, item 5 in turn, then migration and scrub. A write of the
unit that migration is about to copy is made first (R327). -/
def Dev.pick (d : Dev) (k : Fin 4) (t : Nat) : Option MemReq :=
  let c := d.drc.ch[k]
  let ready := c.waiting.filter fun r => let x := d.rowOf r.u; d.bankFree x.1 x.2.1 t
  let rt := if d.rtWithin k t then ready.find? fun r => isRt r.who else none
  let mgmt := if d.mgmtWithin t then ready.find? fun r => isMgmt r.who else none
  let nrt := (List.range 10).findSome? fun j =>
    ready.find? fun r => turnOf (d.copyLate r) r.who = some ((c.turn + 1 + j) % 10)
  let bkg := ready.find? fun r => r.who = .migrate || r.who = .scrub
  match rt <|> mgmt <|> nrt <|> bkg with
  | some r => if r.who = .migrate then some ((ready.find? fun w => w.u = r.u && w.wr.isSome).getD r) else some r
  | none => none

/-- A request is served at a time: it leaves the queue, is accounted for, and keeps the channel for its burst; a copy takes a burst on each
rank. -/
def Dev.serve (d : Dev) (k : Fin 4) (t : Nat) (r : MemReq) : Dev :=
  let w := t / 1000
  let inRt := isRt r.who && d.rtWithin k t
  let till := t + (if r.who = .migrate then 2 else 1) * d.burstNs
  let d := d.modCh k fun c =>
    { c with waiting := c.waiting.erase r, freeAt := till,
             win := if inRt then w else c.win, rtUsed := if inRt then (if c.win = w then c.rtUsed else 0) + 64 else c.rtUsed,
             turn := if inRt then c.turn else (turnOf (d.copyLate r) r.who).getD c.turn }
  let d : Dev := if isMgmt r.who then
      { d with drc := { d.drc with mgmtWin := w, mgmtUsed := (if d.drc.mgmtWin = w then d.drc.mgmtUsed else 0) + 64 } }
    else d
  d.carryOut r

/-- At a boundary: a refresh that cannot wait, then a targeted refresh, then debt that no RT request stands against. -/
def Dev.refreshAt (d : Dev) (i : Fin 8) (t : Nat) : Dev :=
  let d := if (d.chRank i).must ≠ 0 && d.canRefresh i t then (d.issueRefresh i t).modCr i fun s => { s with must := s.must - 1 } else d
  let d := d.startTargeted i t
  let s := d.chRank i
  if s.must = 0 && s.debt ≠ 0 && d.canRefresh i t && !d.rtWaits i then
    (d.issueRefresh i t).modCr i fun s => { s with debt := s.debt - 1 }
  else d

/-- A channel at work, from a time to now: at each 64-byte boundary its refreshes, then the next request. -/
def Dev.serveChan (d : Dev) (k : Fin 4) : Nat → Nat → Dev
  | 0, _ => d
  | n + 1, t =>
    if d.now < t then d
    else
      let d := (d.refreshAt ⟨2 * k.val, by omega⟩ t).refreshAt ⟨2 * k.val + 1, by omega⟩ t
      match d.pick k t with
      | some r =>
        let d := d.serve k t r
        d.serveChan k n d.drc.ch[k].freeAt
      | none => if t < d.now then d.serveChan k n d.now else d

/-- Requests that reach the controller join their channels' queues and are served at once where nothing is in the way. -/
def Dev.submit (d : Dev) (rs : List MemReq) : Dev :=
  let d := rs.foldl (fun (d : Dev) r => d.modCh (chanOf r.u) fun c => { c with waiting := c.waiting ++ [r] }) d
  if !d.memServes then d
  else rs.foldl (fun (d : Dev) r => d.serveChan (chanOf r.u) 1 (max d.now d.drc.ch[chanOf r.u].freeAt)) d

/-- MEMORY_READ: a request of a requester. At or beyond DRC_CAP it fails for its requester and reaches no memory (R307). -/
def Dev.memoryRead (d : Dev) (who : Client) (u : Nat) (act : Bool) (e : Ecc) : Dev :=
  if !d.memTakes || d.cap ≤ u * 64 then d else d.submit [{ who := who, u := u, act := act, e := e }]

/-- MEMORY_WRITE: bytes of one unit. Beyond DRC_CAP nothing is stored. -/
def Dev.memoryWrite (d : Dev) (who : Client) (a : Nat) (data : List (BitVec 8)) (act : Bool) (e : Ecc) : Dev :=
  if !d.memTakes || d.cap < a + data.length || data.isEmpty || 64 < a % 64 + data.length then d
  else d.submit [{ who := who, u := a / 64, act := act, e := e, wr := some (a % 64, data) }]

/-- SCRUB_UNIT: the next data unit, in ascending address, when its share of the period has passed (R312). -/
def Dev.scrubUnit (d : Dev) (act : Bool) (e : Ecc) : Dev :=
  let period := max 1 (d.effGet F.DRC_SCRUB_HOURS) * 3600000000000
  let units := d.cap / 64
  let u := d.drc.scrubAt
  if !d.memServes || !d.effBit F.DRC_SCRUB_EN || units = 0 || decide (d.now < d.drc.scrubFrom + u * period / units) then d
  else
    let last := decide (units ≤ u + 1)
    let d : Dev := { d with drc := { d.drc with scrubAt := if last then 0 else u + 1,
                                                scrubFrom := if last then d.now + period / units else d.drc.scrubFrom } }
    d.submit [{ who := .scrub, u := u, act := act, e := e }]

/-- MIGRATION_COPY: the next data unit of each channel is to be copied (R327). -/
def Dev.migrationCopy (d : Dev) (i : Fin 2) (e0 e1 : Ecc) : Dev :=
  if d.spareOf i ≠ 2 || !d.memServes || d.drc.migLeft[i] ≠ 0 then d
  else
    let m := (d.rd (Reg.DRC_DI_MIG i)).toNat
    let u := 4 * (m / 8 * 7 + m % 8) + 2 * i.val
    let d : Dev := { d with drc := { d.drc with migLeft := d.drc.migLeft.set i 2 } }
    d.submit [{ who := .migrate, u := u, act := false, e := e0 }, { who := .migrate, u := u + 1, act := false, e := e1 }]

/-! ### Drift (R325) -/

/-- The drift of the two byte lanes of each channel-rank, measured. -/
def Dev.drift (d : Dev) (drifts : List (Nat × Nat)) : Dev :=
  (drifts.zip (List.finRange 8)).foldl (fun (d : Dev) t =>
    let i := t.2
    let di := i.val / 4
    if !d.hasRank i then d
    else
      let worst := max t.1.1 t.1.2
      let lane := if t.1.1 < t.1.2 then 1 else 0
      let d := d.set (F.DRC_DI_DRIFT_PS di) (max (d.get (F.DRC_DI_DRIFT_PS di)) (min 0xFFFF worst))
      let excess := decide (d.get F.DRC_TRACK_LIMIT < worst)
      let told := (d.chRank i).driftEvt
      let d := d.modCr i fun s => { s with driftEvt := excess || (told && worst = d.get F.DRC_TRACK_LIMIT) }
      if excess && !told then d.raise Ev.DRC_TRACK_LIMIT 15 none [crWord i, 0, 0, lane, worst] else d) d

/-- WCK_TRACK, every 100 ms. -/
def Dev.wckTrack (d : Dev) (drifts : List (Nat × Nat)) : Dev :=
  if !d.memServes || decide (d.now < d.drc.wckAt + 100000000) then d
  else ({ d with drc := { d.drc with wckAt := d.now } } : Dev).drift drifts

/-! ### Operating points (R315, R326) -/

/-- The largest reservation of an operating point, MB/s. -/
def opMax (op : Nat) : Nat := if op = 0 then 32000 else 16000

/-- The reservation in effect. -/
def Dev.showRes (d : Dev) : Dev := d.set F.JOB_RT_RES_MBPS (min (d.effGet F.DRC_RT_RES) (opMax (d.get F.DRC_STATUS_OP)))

def Dev.opRefused (d : Dev) (why : Nat) : Dev :=
  ((d.set F.DRC_OP_RESULT 3).set F.DRC_OP_REASON why).raise Ev.DRC_REQ_REFUSED 15 none [0, 0, 0, why]

/-- OP_CHANGE_REQUEST. -/
def Dev.opChange (d : Dev) (op1 : Bool) : Dev :=
  let op := op1.toNat
  if d.printing || !d.memTakes || d.mode = .boot then d.opRefused 1
  else if d.bit F.DRC_STATUS_FC_BUSY then d.opRefused 2
  else if op1 && (d.set F.JOB_RT_RES_MBPS (min (d.effGet F.DRC_RT_RES) (opMax 1))).overBudget d.job.checked then d.opRefused 3
  else if !op1 && d.bit F.DRC_STATUS_OP1_ONLY then d.opRefused 4
  else
    let d := (d.set F.DRC_OP_TARGET op).set F.DRC_OP_REASON 0
    if d.get F.DRC_STATUS_OP = op then d.set F.DRC_OP_RESULT 2
    else
      let d := (d.set F.DRC_OP_RESULT 1).set F.DRC_STATUS_FC_BUSY 1
      let paid (s : ChanRank) : ChanRank := { s with pair := (s.pair + s.debt + s.must) % 8, debt := 0, must := 0 }
      { d with drc := { d.drc with fcAt := some d.now, cr := updAll d.drc.cr fun _ s => paid s } }

/-- A change of operating point ends (step 7 of R326): traffic resumes, and the classes that came in steps 3 to 5 take effect. -/
def Dev.opEnd (d : Dev) : Dev :=
  let op := d.get F.DRC_OP_TARGET
  let d := (((d.set F.DRC_STATUS_FC_BUSY 0).set F.DRC_STATUS_OP op).set F.DRC_OP_RESULT 2).showRes
  let pause := match d.drc.fcAt with | some t => d.now - t | none => 0
  let d : Dev := { d with drc := { d.drc with fcAt := none, migAt := d.drc.migAt.map (· + pause),
                                              cr := updAll d.drc.cr fun _ s => { s with dueAt := d.now } } }
  let d := d.raise Ev.DRC_OP_DONE 15 none [0, 0, 0, op]
  (List.finRange 8).foldl (fun (d : Dev) (i : Fin 8) =>
    match (d.chRank i).late with
    | some c => (d.modCr i fun s => { s with late := none }).newClass i c
    | none => d) d

/-- The drifts that an operating-point change measures, which the spec does not give: open values, one for each byte lane (log 36). -/
def Dev.openDrifts (d : Dev) : List (Nat × Nat) :=
  (List.range 8).map fun i => (Config.freeValue (d.fresh + 2 * i) % 2 ^ 16, Config.freeValue (d.fresh + 2 * i + 1) % 2 ^ 16)

/-- OP_CHANGE_DONE: CK is back, 11 µs or more after the request, and the drift is measured once (steps 5 to 7 of R326). -/
def Dev.opDone (d : Dev) : Dev :=
  match d.drc.fcAt with
  | some t => if d.bit F.DRC_STATUS_FC_BUSY && decide (t + 11000 ≤ d.now) then ({ d.drift d.openDrifts with fresh := d.fresh + 16 } : Dev).opEnd else d
  | none => d

/-! ### Spare ranks (R327, R328) -/

/-- RANK_RETIRE: a pulse of the host, in IDLE and CALIBRATE. -/
def Dev.rankRetire (d : Dev) (i : Fin 2) : Dev :=
  if !d.modeIn [.idle, .calibrate] then d.raise Ev.DRC_REQ_REFUSED 15 none [i.val, 0, 0, 1] else d.retire i 3 [i.val, 0, 0]

/-- UNRETIRE: in IDLE; from the next boot. -/
def Dev.unretire (d : Dev) (i : Fin 2) : Dev :=
  if d.mode = .idle && decide (2 ≤ d.spareOf i) then
    ({ d with drc := { d.drc with unret := d.drc.unret.set i true } } : Dev).prsWrite (0x90 + i.val) (2 ^ 30)
  else d

/-- DRC_CNT_CLR. -/
def Dev.drcCntClr (d : Dev) : Dev :=
  let d := (List.range 2).foldl (fun (d : Dev) i =>
    if d.began (F.DRC_DI_REF_DEBT_MAX i) < d.get (F.DRC_DI_REF_DEBT_MAX i) then d else d.set (F.DRC_DI_REF_DEBT_MAX i) 0) d
  d.zeroCounts (F.DRC_POISON_UNITS :: (List.range 2).flatMap fun i =>
    [F.DRC_DI_CE_COUNT i, F.DRC_DI_UE_COUNT i, F.DRC_DI_REF_INSERTED i, F.DRC_DI_REF_HOTPAY i, F.DRC_DI_RHT_COUNT i])

/-! ### The controller's clocked work -/

/-- A payment forced by temperature has ended with its last refresh (R319). -/
def Dev.payEnd (d : Dev) (i : Fin 8) : Dev :=
  let s := d.chRank i
  match s.pay with
  | some p =>
    if s.must = 0 && (match s.refAt with | some a => decide (a + d.timing.rfc ≤ d.now) | none => true) then
      (d.modCr i fun s => { s with pay := none }).hotEvent i p.cls p.paid
    else d
  | none => d

/-- Migration falls more than 1 ms behind a rate of 1 GB/s, or has caught up (R314). -/
def Dev.migPace (d : Dev) (i : Fin 2) : Dev :=
  if d.spareOf i ≠ 2 then d
  else
    let m := (d.rd (Reg.DRC_DI_MIG i)).toNat
    let copied := 128 * (m / 8 * 7 + m % 8)
    let due := d.now - d.drc.migAt[i]
    let late := decide (copied + 1000000 < due) || (d.drc.migLate[i] && decide (copied < due))
    { d with drc := { d.drc with migLate := d.drc.migLate.set i late } }

/-- A CK9 cycle of the controller. An operating-point change lasts at most 18 µs (R326). -/
def Dev.memTick (d : Dev) : Dev :=
  let d := match d.drc.fcAt with
    | some t => if d.bit F.DRC_STATUS_FC_BUSY && decide (t + 18000 ≤ d.now) then d.opDone else d
    | none => d
  if !d.memServes then d
  else
    let d := (d.migPace 0).migPace 1
    let d := (List.finRange 4).foldl (fun (d : Dev) k => d.serveChan k 4 (max d.drc.ch[k].freeAt (d.now - 10))) d
    (List.finRange 8).foldl Dev.payEnd d

end Sys2Proof.Machine
end

