-- ==== Sys2Proof/Machine/Crcu.lean ====
section
/-!
DEFINITION. The check-value units CRCU0 to CRCU7 (R404 to R407).
-/
namespace Sys2Proof.Machine

def Dev.crcW (d : Dev) (n : Fin 8) : Nat := d.get (F.CRC_U_CFG_WIDTH n) + 1

def Dev.crcRun (d : Dev) (n : Fin 8) : Bool := d.bit (F.CRC_U_STATUS_RUN n)

def Dev.setCrcRun (d : Dev) (n : Fin 8) (r : Bool) : Dev := (d.setB (F.CRC_U_STATUS_RUN n) r).setB ⟨Reg.CRC_STATUS, n, 1⟩ r

/-- SRC; 3 acts as 0 (R405). -/
def Dev.crcSrc (d : Dev) (n : Fin 8) : Nat := d.get (F.CRC_U_CFG_SRC n) % 3

/-- A parameter of a unit in effect, reduced to the unit's width; it acts when its high word is written (R6). -/
def Dev.crcPair (d : Dev) (n : Fin 8) (lo hi : Nat) : Nat := d.effPair lo hi % 2 ^ d.crcW n

/-- r, as VALUE holds it. -/
def Dev.crcValue (d : Dev) (n : Fin 8) : Nat := d.pair (Reg.CRC_U_VALUE_LO n) (Reg.CRC_U_VALUE_HI n) % 2 ^ d.crcW n

/-- Feed bytes: VALUE and COUNT follow (R404). -/
def Dev.crcFeed (d : Dev) (n : Fin 8) (bs : List (BitVec 8)) : Dev :=
  let r := crcBits (d.crcW n) (d.crcPair n (Reg.CRC_U_POLY_LO n) (Reg.CRC_U_POLY_HI n))
    (d.crcValue n) (byteBits (d.bit (F.CRC_U_CFG_REFIN n)) bs)
  (d.wrPair (Reg.CRC_U_VALUE_LO n) (Reg.CRC_U_VALUE_HI n) r).add (F.CRC_U_COUNT_BYTES n) bs.length

/-- The end of a computation (R406). -/
def Dev.crcEnd (d : Dev) (n : Fin 8) : Dev :=
  let w := d.crcW n
  let r := d.crcValue n
  let x := Nat.xor (if d.bit (F.CRC_U_CFG_REFOUT n) then reflect w r else r) (d.crcPair n (Reg.CRC_U_XOROUT_LO n) (Reg.CRC_U_XOROUT_HI n))
  let d := (((d.wrPair (Reg.CRC_U_RESULT_LO n) (Reg.CRC_U_RESULT_HI n) x).set (F.CRC_U_STATUS_DONE n) 1)).setCrcRun n false
  let irq := d.get (F.CRC_U_CFG_IRQ n)
  let sig (d : Dev) : Dev := d.signal (d.get (F.CRC_U_CFG_VEC n))
  let cmp := d.bit (F.CRC_U_CFG_CMP_EN n)
  let same := decide (x = d.crcPair n (Reg.CRC_U_EXPECT_LO n) (Reg.CRC_U_EXPECT_HI n))
  let d := d.setB ⟨Reg.CRC_STATUS, 8 + n, 1⟩ (cmp && !same)
  if cmp && !same then
    let d := (d.set (F.CRC_U_STATUS_MISMATCH n) 1).raise Ev.CRC_MISMATCH 15 none [n.val, x % 2 ^ 32, x / 2 ^ 32]
    if irq = 0 then d else sig d
  else
    let d := if cmp then d.set (F.CRC_U_STATUS_MATCH n) 1 else d
    if 2 ≤ irq then sig d else d

/-- A unit stops with an error (R405, R406): 1 range, 2 source unavailable, 3 orderly stop. -/
def Dev.crcFail (d : Dev) (n : Fin 8) (err : Nat) : Dev :=
  let d := ((d.set (F.CRC_U_STATUS_ERR n) err).setCrcRun n false).raise Ev.CRC_ERROR 15 none [n.val, err]
  if 2 ≤ d.get (F.CRC_U_CFG_IRQ n) then d.signal (d.get (F.CRC_U_CFG_VEC n)) else d

def Dev.crcWerr (d : Dev) (n : Fin 8) : Dev := d.set (F.CRC_U_STATUS_WERR n) 1

/-- The source of a unit answers: PD4 for the job store, both tile-memory halves for tile memory. -/
def Dev.crcSource (d : Dev) (n : Fin 8) : Bool :=
  match d.crcSrc n with | 1 => d.live 4 | 2 => d.live 6 && d.live 7 | _ => true

def Dev.crcAddr (d : Dev) (n : Fin 8) : Nat := d.effPair (Reg.CRC_U_ADDR_LO n) (Reg.CRC_U_ADDR_HI n)
def Dev.crcLen (d : Dev) (n : Fin 8) : Nat := d.get (F.CRC_U_LEN_BYTES n)

/-- GO (`fresh`) or RESUME (R406, R407). Units run in the modes from IDLE to SAFE; one that a BLOCK reset holds does not start (R378). -/
def Dev.crcStart (d : Dev) (n : Fin 8) (fresh : Bool) : Dev :=
  if d.crcRun n then d.crcWerr n
  else if d.mode.code < 2 || 9 < d.mode.code || d.unitHeld (0x10 + n.val) then d
  else
    let d := [F.CRC_U_STATUS_DONE n, F.CRC_U_STATUS_MATCH n, F.CRC_U_STATUS_MISMATCH n, F.CRC_U_STATUS_ABORTED n, F.CRC_U_STATUS_ERR n].foldl
      (fun (d : Dev) f => d.set f 0) d
    let d : Dev := { (d.set (F.CRC_U_COUNT_BYTES n) 0).setCrcRun n true with crcAt := upd d.crcAt n fun _ => d.now }
    let d := if fresh then d.wrPair (Reg.CRC_U_VALUE_LO n) (Reg.CRC_U_VALUE_HI n) (d.crcPair n (Reg.CRC_U_INIT_LO n) (Reg.CRC_U_INIT_HI n)) else d
    let lim := if d.crcSrc n = 1 then d.cap else 2 ^ 25
    if d.crcSrc n = 0 then d
    else if lim < d.crcAddr n + d.crcLen n then d.crcFail n 1
    else if !d.crcSource n then d.crcFail n 2
    else if d.crcLen n = 0 then d.crcEnd n
    else d

/-- A stream unit takes bytes; otherwise they are discarded with DROP (R405). -/
def Dev.crcStream (d : Dev) (n : Fin 8) (bs : List (BitVec 8)) : Dev :=
  if d.crcRun n && d.crcSrc n = 0 then d.crcFeed n bs else d.set (F.CRC_U_STATUS_DROP n) 1

/-- FINISH ends a stream. -/
def Dev.crcFinish (d : Dev) (n : Fin 8) : Dev := if d.crcRun n && d.crcSrc n = 0 then d.crcEnd n else d

/-- The bytes of a DMA source from where it stands, up to a length: of the job store with poisoned units as zeros, or as the tile memory
gives them. -/
def Dev.crcBytes (d : Dev) (n : Fin 8) (len : Nat) (tile : List (BitVec 8)) : List (BitVec 8) :=
  if d.crcSrc n = 1 then (List.range len).map fun i => if d.poisonedAt (d.crcAddr n + i) then 0 else d.byte (d.crcAddr n + i)
  else (List.range len).map fun i => tile.getD i 0

/-- Feed the first `len` bytes of a DMA source; POISON where zeros stood for poisoned data. -/
def Dev.crcDma (d : Dev) (n : Fin 8) (len : Nat) (tile : List (BitVec 8)) (bad : Bool) : Dev :=
  let p := if d.crcSrc n = 1 then 0 < len && d.poisonedIn (d.crcAddr n) len else bad
  (if p then d.set (F.CRC_U_STATUS_POISON n) 1 else d).crcFeed n (d.crcBytes n len tile)

/-- Bytes that a DMA source can have given since the start: 2 GB/s of tile memory, 1 GB/s of the job store (R313, R314, R405). -/
def Dev.crcFed (d : Dev) (n : Fin 8) : Nat := (d.now - d.crcAt[n]) * (if d.crcSrc n = 1 then 1 else 2)

/-- A DMA source reaches LEN, or is no longer there (R405, R406). VALUE and COUNT of a DMA source follow at its end or at ABORT (log 71). -/
def Dev.crcDmaEnd (d : Dev) (n : Fin 8) (tile : List (BitVec 8)) (bad : Bool) : Dev :=
  if !d.crcRun n || d.crcSrc n = 0 then d
  else if !d.crcSource n then d.crcFail n 2
  else if d.crcFed n < d.crcLen n then d
  else (d.crcDma n (d.crcLen n) tile bad).crcEnd n

/-- ABORT (R406): the unit stops after the last whole byte fed; with every byte fed the end coincides, and wins. -/
def Dev.crcAbort (d : Dev) (n : Fin 8) (fed : Nat) (tile : List (BitVec 8)) : Dev :=
  let fed := min fed (d.crcFed n)
  if !d.crcRun n then d
  else if d.crcSrc n ≠ 0 ∧ d.crcLen n ≤ fed then d.crcDmaEnd n tile false
  else
    let d := if d.crcSrc n = 0 then d else d.crcDma n fed tile false
    (d.set (F.CRC_U_STATUS_ABORTED n) 1).setCrcRun n false

/-- A domain has gone: units that read from it stop with ERR 2 (R405). -/
def Dev.crcLost (d : Dev) : Dev :=
  (List.finRange 8).foldl (fun (d : Dev) n => if d.crcRun n && !d.crcSource n then d.crcFail n 2 else d) d

/-- The orderly stop ends every running unit with ERR 3. -/
def Dev.crcStop (d : Dev) : Dev := (List.finRange 8).foldl (fun (d : Dev) n => if d.crcRun n then d.crcFail n 3 else d) d

end Sys2Proof.Machine
end

