-- ==== Sys2Proof/Machine/Dpx.lean ====
section
/-!
DEFINITION. Duplex operation (spec/14_duplex.md, R332 to R351) but for take-over and deposition, which change the mode and lie in
Take.lean: records of the tightrope, shadowing, guards, the line check, held sets. Each function is one command of the family, or a
part of one.
-/
namespace Sys2Proof.Machine

/-! ### Configuration fields (R112) -/

/-- The registers that take effect at configuration commit, in order of block index and offset, but for mask patterns and for TARGET of the
compare channels. -/
def cfgRegs : List Nat :=
  ((List.range 8).map fun n => Reg.LTC_STB_CFG n) ++ [Reg.SCR_CFG, Reg.SCR_GAIN_BASE_LO, Reg.SCR_GAIN_BASE_HI]
    ++ (List.range 4).map Reg.VIS_CAM_CFG ++ (List.range 4).map Reg.VIS_VS_CFG
    ++ [Reg.DEN_CFG, Reg.DEN_CAM_OFS, Reg.DEN_MAP_SCALE, Reg.DEN_MAP_OFS, Reg.LMP_CFG, Reg.LMP_BUS, Reg.LMP_PWM, Reg.LMP_DIAG_STRETCH]
    ++ ((List.range 16).flatMap fun m => [Reg.LMP_MOD_CFG m, Reg.LMP_MOD_OFS m, Reg.LMP_MOD_FIRST m, Reg.LMP_MOD_SEGW m])
    ++ [Reg.DRC_RT, Reg.DRC_RH, Reg.DRC_SCRUB, Reg.DRC_SPARE, Reg.DPX_CFG, Reg.PTP_CFG, Reg.PTP_INTV]
    ++ ((List.range 2).flatMap fun p => [Reg.PTP_NET_TXADJ p, Reg.PTP_NET_RXADJ p, Reg.PTP_NET_ASYM p]) ++ [Reg.HST_RT_CFG]

/-- A mask pattern window word (R161). -/
def isMaskWord (a : Nat) : Bool := decide (0x11000000 ≤ a ∧ a < 0x12000000)

/-- The CFG register of a compare channel, whose TARGET takes effect at commit (R85). -/
def cmpCfgReg (a : Nat) : Option (Fin 32) :=
  if 0x600800 ≤ a ∧ a < 0x600C00 ∧ a = Reg.LTC_CMP_CFG ((a - 0x600800) / 32) then some ⟨(a - 0x600800) / 32 % 32, Nat.mod_lt _ (by decide)⟩ else none

def isCfg (a : Nat) : Bool := cfgRegs.contains a || isMaskWord a

/-- The digest of SYNC_REQ: CRC-32C over the configuration fields in effect, in order of block index and offset (R338). -/
def Dev.cfgDigest (d : Dev) : Nat :=
  let at_ (a : Nat) : Nat × Nat := (a, (d.effRd a).toNat)
  let cmp := (List.range 32).map fun n => (Reg.LTC_CMP_CFG n, d.effGet (F.LTC_CMP_CFG_TARGET n) * 2 ^ 8)
  let ws := ((cfgRegs.map at_) ++ cmp).mergeSort fun x y => x.1 ≤ y.1
  let masks := (List.range 96).flatMap fun n => (List.range 128).map fun m => (d.effRd (Reg.NOZ_MASK_WIN n m)).toNat
  crc32c ((ws.map (·.2) ++ masks).flatMap (bytesLE 4))

/-- The digest of a set: CRC-32C over the captured values, in order of block index and offset (R341). -/
def setDigest (fs : List (Nat × Word)) : Nat := crc32c ((fs.mergeSort fun x y => x.1 ≤ y.1).flatMap fun f => bytesLE 4 f.2.toNat)

/-! ### What the ringmaster sends (R335) -/

def words48 (n : Nat) : List Nat := [n % 2 ^ 32, n / 2 ^ 32 % 2 ^ 16]

/-- The content of a HEARTBEAT. -/
def Dev.hbWords (d : Dev) : List Nat :=
  [d.mode.code, d.role, d.get F.ZXL_CLAIM_CLAIM, d.time.sec % 2 ^ 32, d.time.ns] ++ words48 (d.pos.hwm / 2 ^ 24) ++ d.dpx.fired.toList

/-- HEARTBEAT_SEND: every 100 µs. -/
def Dev.heartbeatSend (d : Dev) : Dev :=
  let dueNow := match d.dpx.hbTx with | some t => decide (t + 100000 ≤ d.now) | none => true
  if d.role ≠ 1 || !dueNow then d
  else
    (d.mirrorSend 0xA0 d.hbWords).modDpx fun x => { x with hbTx := some d.now }

/-- The content of a POS record. -/
def Dev.posWords (d : Dev) : List Nat :=
  words48 d.web ++ [d.time.sec % 2 ^ 32, d.time.ns, d.posStatus.toNat] ++ ((List.range 12).map fun b => d.get (F.ZXL_BAR_WIRE_COUNT b))
    ++ ((List.range 32).map fun n => d.get (F.LTC_CMP_PTR_PTR n)) ++ ((List.range 12).map fun b => (d.rd (Reg.ZXL_BAR_EPOCH b)).toNat)
    ++ words48 (d.pair Reg.DEN_LAST_LO Reg.DEN_LAST_HI)

/-- POS_RECORD_SEND: every 1 ms, and at a start buoy. -/
def Dev.posRecordSend (d : Dev) : Dev :=
  let dueNow := match d.dpx.posTx with | some t => decide (t + 1000000 ≤ d.now) | none => true
  if d.role ≠ 1 || !dueNow then d
  else (d.mirrorSend 0xA7 d.posWords).modDpx fun x => { x with posTx := some d.now }

def lineWords (l : Option LinePos) : List Nat :=
  match l with | some p => [p.seq, p.copy, p.idx] | none => [0xFFFFFFFF, 0xFFFFFFFF, 0xFFFFFFFF]

/-- The content of a SETREC: the set's number and digest, and its line on each bar, or that it applied at capture. -/
def Dev.setWords (d : Dev) (s : SetRec) : List Nat :=
  let now := (d.set? s.seq).isNone
  let lines := match d.set? s.seq with | some t => t.lines.toList.flatMap lineWords | none => []
  [s.seq % 2 ^ 16, setDigest s.fields, now.toNat] ++ lines

/-- SETREC, at a capture. -/
def Dev.setRecord (d : Dev) (s : SetRec) : Dev := d.mirrorSend 0xA2 (d.setWords s)

/-- NOZ, at each configuration commit and write to an out bank. -/
def Dev.nozRecord (d : Dev) (ws : List (Nat × Word)) : Dev := d.mirrorSend 0xA5 (ws.flatMap fun w => [w.1, w.2.toNat])

/-- Every mask pattern and out-bank word that is not 0. -/
def Dev.nozWords (d : Dev) : List (Nat × Word) := d.regs.filter fun w => decide (0x11000000 ≤ w.1 ∧ w.1 < 0x13000000)

/-- The content of a GAINS record: a loop set with the table of its bank. -/
def Dev.gainsWords (d : Dev) (b : Fin 12) (bank seq : Nat) (line : Option LinePos) : List Nat :=
  let a := d.gainBase + (2 * b.val + bank) * 122880
  [b.val, bank, seq % 2 ^ 16, (F.SCR_BAR_TOFS_OFS b).of (d.newestWord (Reg.SCR_BAR_TOFS b))] ++ lineWords line
    ++ (List.range 30720).map fun i => d.word32 (a + 4 * i)

/-- GAINS, at a capture of the density loop. -/
def Dev.gainsRecord (d : Dev) (b : Fin 12) (bank seq : Nat) (line : Option LinePos) : Dev := d.mirrorSend 0xA4 (d.gainsWords b bank seq line)

/-- The GAINS record of the last loop set of each bar that has had one. -/
def Dev.allGains (d : Dev) : List Nat :=
  (allBars.filter fun (b : Fin 12) => d.get (F.DEN_BAR_LASTSET_SEQ b) ≠ 0).flatMap fun (b : Fin 12) =>
    let seq := d.get (F.DEN_BAR_LASTSET_SEQ b)
    d.gainsWords b ((F.SCR_BAR_CFG_GAIN_BANK b).of (d.newestWord (Reg.SCR_BAR_CFG b))) seq ((d.set? seq).bind fun s => s.lines[b])

/-! ### Reception -/

/-- The first correct copy of a record: its number has not been seen. -/
def Dev.firstCopy (d : Dev) (seq : Nat) (f : Dev → Dev) : Dev :=
  if d.mirrorsUp.isEmpty || d.dpx.seen.contains seq then d
  else f (d.modDpx fun x => { x with seen := (seq :: x.seen).take 256 })

def lineOf (l : Option LineRef) : Option LinePos := l.map fun r => ⟨r.seq, r.unit, r.idx⟩

/-- The partner's part of a heartbeat; of those missed since the last one the three of a loss are counted already. -/
def Dev.takeHb (d : Dev) (seq : Nat) (r : HbRec) : Dev :=
  let missed := match d.dpx.hbAt with | some t => roundDivN (d.now - t) 100000 - 1 - (if d.dpx.lost then 3 else 0) | none => 0
  let d := (d.set F.DPX_STATUS_PMODE r.mode).set F.DPX_CLAIM_PARTNER r.claim
  let d := (d.set F.DPX_HB_SEQ seq).addSat F.DPX_HB_MISSED missed
  d.modDpx fun x => { x with hbAt := some d.now, pRole := r.role, pFired := r.fired, lost := false }

/-- HEARTBEAT_RX. -/
def Dev.heartbeatRx (d : Dev) (seq : Nat) (r : HbRec) : Dev :=
  if d.role ≠ 2 then d else d.firstCopy seq fun d => d.takeHb seq r

/-- A mirrored schedule entry joins the schedule. -/
def Dev.addSched (d : Dev) (r : SchedRec) : Dev :=
  let seq := match d.job.entries.getLast? with | some e => seqNear e.seq r.seq | none => r.seq
  if d.job.entries.any fun e => e.seq = seq then d
  else
    match parseJob fun i => r.job.getD i 0 with
    | none => d
    | some j =>
      let e := d.parseEntry seq (fun i => r.entry.getD i 0) j
      { d with job := { d.job with entries := fixAnchors none (d.job.entries ++ [e]), checked := addJob d.job.checked e.desc, nextSeq := seq + 1,
                                   used := d.job.used ++ [(seq, e.job)], final := if e.last then some seq else d.job.final } }

/-- SCHED_RX. -/
def Dev.schedRx (d : Dev) (seq : Nat) (r : SchedRec) : Dev :=
  if d.mode ≠ .shadow then d else d.firstCopy seq fun d => (d.addSched r).findAllLines

/-- DPX_SET.HELD. -/
def Dev.showHeld (d : Dev) : Dev := d.set F.DPX_SET_HELD (d.dpx.held.length + d.dpx.recs.length)

def Dev.setMismatch (d : Dev) (b why seq : Nat) : Dev := d.raise Ev.DPX_SET_MISMATCH b none [b, why, seq % 2 ^ 16]

/-- The set's line of a bar is one already committed. -/
def SetRec.lateFor (s : SetRec) (d : Dev) (b : Fin 12) : Bool :=
  match s.lines[b], d.lastCommitted b with
  | some k, some c => k.le c
  | _, _ => false

/-- A held set and a record that belong together: the set applies at the record's lines (R343). -/
def Dev.pairSet (d : Dev) (h : HeldSet) (r : SetRx) : Dev :=
  let d := (d.set F.DPX_SET_SEQ r.seq).showHeld
  let d := if h.digest = r.digest then d else (d.setMismatch 15 1 r.seq).unguardAll
  let s : SetRec := { h.set_ with lines := Vector.ofFn fun b => if r.atCapture then none else r.lines.getD b.val none }
  let d : Dev := { d with job := { d.job with sets := d.job.sets ++ [s] } }
  if r.atCapture then (allBars.foldl (fun (d : Dev) (b : Fin 12) => d.applyAtOnce b s) d).showPending
  else
    let d := allBars.foldl (fun (d : Dev) (b : Fin 12) => if s.lateFor d b then (d.setMismatch b.val 2 r.seq).setGuard b false else d) d
    (allBars.foldl (fun (d : Dev) (b : Fin 12) => if !d.barsOn.contains b then d.applyAtOnce b s else d) d).showPending

/-- Pair the oldest held set with the oldest record. -/
def Dev.pairSets (d : Dev) : Dev :=
  match d.dpx.held, d.dpx.recs with
  | h :: hs, r :: rs => (d.modDpx fun x => { x with held := hs, recs := rs }).pairSet h r
  | _, _ => d.showHeld

/-- SET on the safety net in SHADOW: a held set. -/
def Dev.holdSet (d : Dev) : Dev :=
  if 8 ≤ d.job.sets.length + d.dpx.held.length then d.commitRefused 2 0
  else if badWidth d.writtenFields then d.commitRefused 5 0
  else if d.wdogBreach d.writtenFields then d.commitRefused 3 0
  else
    let fs := d.writtenFields
    let (d, s) := d.newSet 0 0 fs
    let d : Dev := { d with job := { d.job with written := [] } }
    let d := (d.set F.SYS_COMMIT_STATUS_RESULT 2).set F.SYS_COMMIT_STATUS_REASON 0
    (d.modDpx fun x => { x with held := x.held ++ [{ set_ := s, digest := setDigest fs, at_ := d.now }] }).pairSets

/-- SETREC_RX. -/
def Dev.setrecRx (d : Dev) (seq setSeq digest : Nat) (atCapture : Bool) (lines : List (Option LineRef)) : Dev :=
  if d.mode ≠ .shadow || d.get F.DPX_STATUS_STATE ≠ 2 then d
  else d.firstCopy seq fun d =>
    (d.modDpx fun x => { x with recs := x.recs ++ [{ seq := setSeq, digest := digest, atCapture := atCapture, lines := lines.map lineOf, at_ := d.now }] }).pairSets

/-- SET_PAIR_TIMEOUT: unpaired for SETTMO ms; an unpaired set applies at capture, that is now. -/
def Dev.setPairTimeout (d : Dev) : Dev :=
  let tmo := max 1 (d.effGet F.DPX_CFG_SETTMO) * 1000000
  match d.dpx.held, d.dpx.recs with
  | h :: hs, [] =>
    if h.at_ + tmo ≤ d.now then
      let d := ((d.modDpx fun x => { x with held := hs }).setMismatch 15 3 h.set_.seq).unguardAll
      let d : Dev := { d with job := { d.job with sets := d.job.sets ++ [h.set_] } }
      ((allBars.foldl (fun (d : Dev) (b : Fin 12) => d.applyAtOnce b h.set_) d).showPending).showHeld
    else d
  | [], r :: rs =>
    if r.at_ + tmo ≤ d.now then (((d.modDpx fun x => { x with recs := rs }).setMismatch 15 3 r.seq).unguardAll).showHeld else d
  | _, _ => d

/-- LCRC_RX: compared at once, or with the own commit of the line. -/
def Dev.lcrcRx (d : Dev) (seq : Nat) (b : Fin 12) (wire value : Nat) : Dev :=
  if d.mode ≠ .shadow || d.get F.DPX_STATUS_STATE ≠ 2 then d
  else d.firstCopy seq fun d =>
    match d.dpx.bars[b].own.find? fun o => o.1 = wire with
    | some o => d.lcrcCompare b wire o.2 value
    | none => d.modDpxBar b fun s => { s with recs := (s.recs ++ [(wire, value)]).drop (s.recs.length + 1 - 64) }

/-- A loop set of the ringmaster's: the table goes into the bank and the set applies at its line; it counts as a pending set (R343). -/
def Dev.takeGains (d : Dev) (b : Fin 12) (bank : Nat) (gains : List (BitVec 8)) (tofs : Option Nat) (setSeq : Nat) (line : Option LineRef) : Dev :=
  let d := d.storeData (d.gainBase + (2 * b.val + bank) * 122880) gains
  let f := F.SCR_BAR_CFG_GAIN_BANK b
  let fs := [(Reg.SCR_BAR_CFG b, f.into (d.newestWord (Reg.SCR_BAR_CFG b)) bank)]
    ++ (match tofs with | some t => [(Reg.SCR_BAR_TOFS b, (F.SCR_BAR_TOFS_OFS b).into 0 t)] | none => [])
  let (d, s) := d.newSet 0 0 fs
  let d := (d.set (F.DEN_BAR_LASTSET_SEQ b) setSeq).set F.DPX_SET_SEQ setSeq
  let s := { s with lines := Vector.ofFn (fun x => if x = b then lineOf line else none), applied := 4095 - 2 ^ b.val }
  let d : Dev := { d with job := { d.job with sets := d.job.sets ++ [s] } }
  (if line.isNone then d.applyAtOnce b s else d).showPending

/-- GAINS_RX. -/
def Dev.gainsRx (d : Dev) (seq : Nat) (b : Fin 12) (bank : Nat) (gains : List (BitVec 8)) (tofs : Option Nat) (setSeq : Nat)
    (line : Option LineRef) : Dev :=
  if d.mode ≠ .shadow then d else d.firstCopy seq fun d => d.takeGains b bank gains tofs setSeq line

/-- Words of the pattern and out-bank windows. -/
def Dev.loadNoz (d : Dev) (ws : List (Nat × Word)) : Dev :=
  ws.foldl (fun (d : Dev) w =>
    if isMaskWord w.1 then (d.wr w.1 w.2).effWr w.1 w.2
    else if 0x12000000 ≤ w.1 ∧ w.1 < 0x13000000 then d.wr w.1 w.2 else d) d

/-- NOZ_RX. -/
def Dev.nozRx (d : Dev) (seq : Nat) (ws : List (Nat × Word)) : Dev :=
  if d.mode ≠ .shadow then d else d.firstCopy seq fun d => d.loadNoz ws

/-- The mirrored lamp state. -/
def Dev.loadLamp (d : Dev) (r : LampRec) : Dev :=
  let d : Dev := { d with lmp := { d.lmp with coords := r.coords } }
  (r.levels.zip (List.finRange 16)).foldl (fun (d : Dev) t => d.modLamp t.2 fun s => { s with staged := some t.1 }) d

/-- LAMP_RX. -/
def Dev.lampRx (d : Dev) (seq : Nat) (r : LampRec) : Dev :=
  if d.mode ≠ .shadow then d else d.firstCopy seq fun d => d.loadLamp r

/-- Nanoseconds since a stated network time. -/
def Dev.sinceNs (d : Dev) (sec ns : Nat) : Int := ((d.time.sec : Int) - sec) * 1000000000 + ((d.time.ns : Int) - ns)

/-- POS_RX: the own coordinate at the stated time against the mirrored one (R351). -/
def Dev.posRx (d : Dev) (seq : Nat) (r : PosRec) : Dev :=
  if d.mode ≠ .shadow || d.get F.DPX_STATUS_STATE ≠ 2 then d
  else d.firstCopy seq fun d =>
    let own := (((d.web : Int) - d.speedI * d.sinceNs r.sec r.ns / 1000000000) % (webMod : Int)).toNat
    let diff := webDiff own r.web
    let d := d.wrPair Reg.DEN_LAST_LO Reg.DEN_LAST_HI r.denLast
    let d := d.wr Reg.DPX_POS_DIFF (BitVec.ofNat 32 (unsext 32 diff))
    if diff.natAbs ≤ (d.rd Reg.DPX_POS_TOL).toNat then d
    else
      let again := match d.dpx.divAt with | some t => decide (t + 1000000000 ≤ d.now) | none => true
      let d := d.unguardAll
      if again then (d.modDpx fun x => { x with divAt := some d.now }).raise Ev.DPX_POS_DIVERGE 15 none [15, unsext 32 diff] else d

/-! ### Sync (R338, R339) -/

/-- SHADOW is entered: the request goes out, and no bar is guarded. -/
def Dev.enterShadow (d : Dev) : Dev :=
  let d := (d.set F.DPX_STATUS_STATE 1).unguardAll
  let d := d.modDpx fun x => { x with syncAt := some d.now, held := [], recs := [], bars := Vector.replicate 12 {} }
  (d.mirrorOut 0xA9 [d.cfgDigest]).showHeld

/-- SHADOW is left without a take-over. -/
def Dev.leaveShadow (d : Dev) : Dev :=
  ((d.set F.DPX_STATUS_STATE 0).unguardAll).modDpx fun x => { x with syncAt := none, held := [], recs := [] }

/-- The last line check value of a bar, as its LCRC record. -/
def Dev.lcrcWords (d : Dev) (b : Fin 12) : List Nat :=
  match d.dpx.bars[b].own.head? with
  | some o => [b.val, o.1, o.2]
  | none => []

/-- The lamp state: what every module holds staged, and the pending latch coordinates. -/
def Dev.lampWords (d : Dev) : List Nat := ((List.finRange 16).flatMap fun m => m.val :: (d.lampMod m).staged.getD []) ++ d.lmp.coords

/-- SYNC_REQ_RX: the ringmaster answers with every record as a full set. -/
def Dev.syncReqRx (d : Dev) (seq digest : Nat) : Dev :=
  if d.role ≠ 1 then d
  else d.firstCopy seq fun d =>
    let d := if d.get F.DPX_STATUS_STATE = 4 then d.set F.DPX_STATUS_STATE 3 else d
    d.mirrorSend 0xA8 ([d.cfgDigest, digest] ++ d.hbWords ++ d.posWords ++ (d.heldEntries.flatMap fun e => d.schedWords e.seq)
      ++ (d.job.sets.flatMap d.setWords) ++ (allBars.flatMap d.lcrcWords) ++ d.allGains ++ (d.nozWords.flatMap fun w => [w.1, w.2.toNat])
      ++ d.lampWords)

/-- Sync fails: back to IDLE, unless a transition out of SHADOW is already in progress (R21). -/
def Dev.syncFailed (d : Dev) (why : Nat) : Dev :=
  let d := (d.raise Ev.DPX_SYNC_FAILED 15 none [15, why]).leaveShadow
  if d.sys.trans.isSome then d else { d with sys := { d.sys with trans := some { dest := .idle, cause := 0, host := false, at_ := d.now } } }

/-- A bar joins the mirrored schedule where the ringmaster prints it. -/
def Dev.joinBar (d : Dev) (b : Fin 12) (c : Option LineRef) : Dev :=
  let d := (d.discard b).modBar b fun s => s.fresh (c.map fun x => (x.seq, x.unit))
  match c with
  | none => d
  | some x =>
    let last : Option LinePos := if x.idx = 0 then none else some ⟨x.seq, x.unit, x.idx - 1⟩
    (d.modBar b fun s => { s with next := x.idx, lastLine := last, scr := last, work := [], com := [] }).startBuoy b

/-- SYNC_RX: the mirrored state is loaded and shadowing begins; or the digests differ. -/
def Dev.syncRx (d : Dev) (seq : Nat) (r : SyncRec) : Dev :=
  if d.mode ≠ .shadow || d.get F.DPX_STATUS_STATE ≠ 1 then d
  else d.firstCopy seq fun d =>
    if r.digest ≠ d.cfgDigest then d.syncFailed 1
    else
      let d := (d.takeHb seq r.hb).modDpx fun x => { x with syncAt := none }
      let ahead : Int := r.pos.speed * d.sinceNs r.pos.sec r.pos.ns / 1000000000
      let x := (((r.pos.web : Int) + ahead) % (webMod : Int)).toNat * 2 ^ 24
      let h := (((r.hb.hwm : Int) + ahead) % (webMod : Int)).toNat * 2 ^ 24
      let d : Dev := { d with pos := { d.pos with web := x, hwm := h } }
      let d := d.wrPair Reg.DEN_LAST_LO Reg.DEN_LAST_HI r.pos.denLast
      let d := (List.finRange 12).foldl (fun (d : Dev) (b : Fin 12) =>
        (d.set (F.ZXL_BAR_WIRE_COUNT b) (r.pos.counts.getD b.val 0)).wr (Reg.ZXL_BAR_EPOCH b) (BitVec.ofNat 32 (r.pos.epochs.getD b.val 0))) d
      let d := (List.range 32).foldl (fun (d : Dev) n => d.set (F.LTC_CMP_PTR_PTR n) (r.pos.ptrs.getD n 0)) d
      let d := (d.loadNoz r.noz).loadLamp r.lamp
      let d : Dev := { d with job := { d.job with entries := [], checked := [], final := none } }
      let d := r.sched.foldl (fun (d : Dev) e => d.addSched e) d
      let d := r.gains.foldl (fun (d : Dev) g => d.takeGains g.bar g.bank.val g.gains g.tofs g.setSeq g.line) d
      let d := allBars.foldl (fun (d : Dev) (b : Fin 12) => d.joinBar b (r.cur.getD b.val none)) d
      (d.set F.DPX_STATUS_STATE 2).raise Ev.DPX_SYNCED 15 none [15]

/-- SYNC_TIMEOUT: 100 ms after the request. -/
def Dev.syncTimeout (d : Dev) : Dev :=
  match d.dpx.syncAt with
  | some t => if d.mode = .shadow && d.get F.DPX_STATUS_STATE = 1 && decide (t + 100000000 ≤ d.now) then d.syncFailed 2 else d
  | none => d

/-! ### Claims and counters (R332, R350) -/

def Dev.dpxRefused (d : Dev) (why : Nat) : Dev := d.raise Ev.DPX_REFUSED 15 none [15, why]

/-- CLAIM_SET: in IDLE. -/
def Dev.claimSet (d : Dev) (v : Word) : Dev :=
  let c := v.toNat % 2 ^ 16
  if d.mode = .idle then (d.set F.DPX_CLAIM_SET c).set F.ZXL_CLAIM_CLAIM c else d.dpxRefused 1

/-- DPX_CNT_CLR. -/
def Dev.dpxCntClr (d : Dev) : Dev :=
  d.zeroCounts ([F.DPX_HB_MISSED, F.DPX_TAKE_COUNT] ++
    allBars.flatMap fun (b : Fin 12) => [F.DPX_BAR_MATCH_LINES b, F.DPX_BAR_MISM_CONFIRMED b, F.DPX_BAR_MISM_SELF b])

end Sys2Proof.Machine
end

