-- ==== Sys2Proof/Machine/Prs.lean ====
section
/-!
DEFINITION. The persistent register array and its write engine (R408 to R413).
-/
namespace Sys2Proof.Machine

/-- Place of a persistent word in the register file. -/
def prsAt (w : Nat) : Nat := Reg.PRS_WORD w

/-- A word as the array holds it; a failed word reads as 0 (R412). -/
def Dev.prsWord (d : Dev) (w : Nat) : Nat := if d.prsFailed.contains w then 0 else (d.rd (prsAt w)).toNat

/-- A word as its device writer sees it: writes that still wait for the engine count. -/
def Dev.prsNow (d : Dev) (w : Nat) : Nat :=
  match (d.prsQ.filter fun p => p.1 = w).getLast? with
  | some p => p.2.toNat
  | none => d.prsWord w

/-- A word of the device's own, written where it differs. -/
def Dev.prsPut (d : Dev) (w v : Nat) : Dev := if d.prsNow w = v % 2 ^ 32 then d else d.prsWrite w v

/-- The CRC-32C of words (R207), each in little-endian bytes. -/
def wordsCrc (ws : List Nat) : Nat := crc32c (ws.flatMap (bytesLE 4))

def Dev.prsErr (d : Dev) (kind w : Nat) : Dev := (d.set F.PRS_ERR_KIND kind).set F.PRS_ERR_WORD w

/-- PRS_MAXWEAR follows the highest wear count. -/
def Dev.showWear (d : Dev) (w : Nat) : Dev :=
  let n := min (2 ^ 19 - 1) (d.get (F.PRS_WEAR_WRITES w))
  if d.get F.PRS_MAXWEAR_WEAR < n then (d.set F.PRS_MAXWEAR_WEAR n).set F.PRS_MAXWEAR_WORD w else d

/-- The endurance of a physical word, writes (R412). -/
def prsEndurance : Nat := 500000

/-- One array write with its read-back check (R410, R412); `bad` says that the check fails. A value already held makes none. -/
def Dev.arrayWrite (d : Dev) (w : Nat) (v : Word) (bad : Bool) : Dev :=
  if d.rd (prsAt w) = v && !d.prsFailed.contains w then d
  else
    let worn := decide (prsEndurance ≤ d.get (F.PRS_WEAR_WRITES w))
    let spares := d.get F.PRS_STATUS_SPARES
    if (worn || bad) && 0 < spares then
      let d := { d.wr (prsAt w) v with prsFailed := d.prsFailed.filter fun x => x ≠ w }
      let d := ((d.set (F.PRS_WEAR_WRITES w) 1).set (F.PRS_WEAR_REMAPPED w) 1).set F.PRS_STATUS_SPARES (spares - 1)
      (d.showWear w).raise Ev.PRS_REMAP 15 none [w, if worn then 1 else 2]
    else
      let d := (d.addSat (F.PRS_WEAR_WRITES w) 1).showWear w
      let d := if worn && !d.bit F.PRS_STATUS_WORN then (d.set F.PRS_STATUS_WORN 1).raise Ev.PRS_SPARES_OUT 15 none [w] else d
      if bad then
        ({ d with prsFailed := d.prsFailed.filter (fun x => x ≠ w) ++ [w] }.prsErr 3 w).raise Ev.PRS_WRITE_FAIL 15 none [w]
      else { d.wr (prsAt w) v with prsFailed := d.prsFailed.filter fun x => x ≠ w }

/-- The words the host owns (R408). -/
def hostWord (w : Nat) : Bool := decide (0x1800 ≤ w)

/-- PRS_WRITE (R409, R410). -/
def Dev.prsHostWrite (d : Dev) (w : Nat) (v : Word) (bad : Bool) : Dev :=
  if hostWord w then d.arrayWrite w v bad else d.raise Ev.PRS_REFUSED 15 none [w]

/-- PRS_DEVICE_WRITE (R410): the oldest write of the device; a head's count goes as it stands (R174). -/
def Dev.prsDeviceWrite (d : Dev) (bad : Bool) : Dev :=
  match d.prsQ with
  | [] => d
  | (w, v) :: r =>
    let (d, v) := ({ d with prsQ := r } : Dev).lifeWrite w v
    d.arrayWrite w v bad

/-- PRS_READ (R413): a single-bit error is corrected and counted, an uncorrectable word reads as 0. -/
def Dev.prsRead (d : Dev) (w : Nat) (e : Ecc) : Dev :=
  if e = .bad || d.prsFailed.contains w then ((d.addSat F.PRS_CNT_UE 1).prsErr 2 w).raise Ev.PRS_UE 15 none [w]
  else if e = .corrected then ((d.addSat F.PRS_CNT_CE 1).prsErr 1 w).raiseC Ev.PRS_CE 0 15 none [w, 1] 1 [(1, 1)]
  else d

def Dev.prsCntClr (d : Dev) : Dev := d.zeroCounts [F.PRS_CNT_CE, F.PRS_CNT_UE]

end Sys2Proof.Machine
end

