-- ==== Sys2Proof/Machine/Ptp.lean ====
section
/-!
DEFINITION. Network time (R353 to R366): the device time, best master selection, path delay, the servo, the lightship, steps, and the
action slots up to the mode request that a slot makes.
-/
namespace Sys2Proof.Machine

/-! ### The device time -/

/-- A time in 2^-16 ns. -/
def Time.units (t : Time) : Nat := (t.sec * 1000000000 + t.ns) * 2 ^ 16 + t.frac

def timeMod : Nat := 2 ^ 48 * 1000000000 * 2 ^ 16

def Time.ofUnits (n : Nat) : Time :=
  let n := n % timeMod
  { sec := n / 2 ^ 16 / 1000000000, ns := n / 2 ^ 16 % 1000000000, frac := n % 2 ^ 16 }

def Time.move (t : Time) (i : Int) : Time := Time.ofUnits (((t.units : Int) + i) % (timeMod : Int)).toNat

/-- The addition to 2 ns of a CK6 cycle, in 2^-48 ns, of the servo's terms (R356). -/
def Dev.rate48 (d : Dev) : Int := roundDiv ((d.ptp.r + d.ptp.s) * 2 ^ 25) 1000000000

/-- The time advances by n CK6 cycles (R356). -/
def Dev.advance (d : Dev) (n : Nat) : Dev :=
  let x : Int := (d.time.units * 2 ^ 32 + d.timeSub : Nat) + n * (2 * 2 ^ 48 + d.rate48)
  let u := (x % ((timeMod * 2 ^ 32 : Nat) : Int)).toNat
  { d with time := Time.ofUnits (u / 2 ^ 32), timeSub := u % 2 ^ 32 }

def Dev.modPtp (d : Dev) (f : Ptp → Ptp) : Dev := { d with ptp := f d.ptp }

/-! ### Configuration in effect (R365) -/

def Dev.ptpEn (d : Dev) : Bool := d.effBit F.PTP_CFG_EN
def Dev.ptpMaster (d : Dev) : Bool := d.effBit F.PTP_CFG_ROLE
def Dev.ptpPort (d : Dev) : Nat := d.effGet F.PTP_CFG_PORT

/-- 2^log seconds in ns. -/
def logNs (log : Int) : Nat := if log < 0 then 1000000000 / 2 ^ log.natAbs else 1000000000 * 2 ^ log.toNat

def Dev.syncNs (d : Dev) : Nat := logNs (clampI (-7) 1 (d.effGetI F.PTP_INTV_LOG_SYNC))
def Dev.annNs (d : Dev) : Nat := logNs (clampI 0 4 (d.effGet F.PTP_INTV_LOG_ANN))
def Dev.dreqNs (d : Dev) : Nat := logNs (clampI (-7) 5 (d.effGetI F.PTP_INTV_LOG_DREQ))
def Dev.annTmo (d : Dev) : Nat := (let n := d.effGet F.PTP_INTV_ANN_TMO; if n = 0 then 2 else n) * d.annNs

/-- Egress timestamp of a message that leaves now (R355): 44.8 ns and TXADJ after the MAC time. -/
def Dev.egressTime (d : Dev) : Int := (d.time.units : Int) + 2936013 + sext 32 (d.effGet (F.PTP_NET_TXADJ_ADJ d.ptpPort)) * 2 ^ 12

/-- Ingress timestamp of a message whose delimiter crossed the MAC boundary `ago` earlier (R355). -/
def Dev.ingressTime (d : Dev) (ago : Nat) : Int :=
  (d.time.units : Int) - ago - 4023910 - sext 32 (d.effGet (F.PTP_NET_RXADJ_ADJ d.ptpPort)) * 2 ^ 12

def Dev.asym (d : Dev) : Int := sext 32 (d.effGet (F.PTP_NET_ASYM_ASYM d.ptpPort)) * 2 ^ 12

/-- A message of the configured domain on the port in use is taken; one of another domain counts as discarded (R353). -/
def Dev.ptpTake (d : Dev) (port : Fin 2) (domain : Nat) (f : Dev → Dev) : Dev :=
  if !d.ptpEn || port.val ≠ d.ptpPort then d
  else if domain ≠ d.effGet F.PTP_CFG_DOMAIN then d.addSat F.PTP_RXDROP_COUNT 1
  else f d

/-! ### Steps (R358, R359) -/

def ns16 (i : Int) : Int := roundDiv i (2 ^ 16)

def Dev.showRate (d : Dev) : Dev := d.setI F.PTP_RATE_RATE (roundDiv (d.ptp.r + d.ptp.s) (2 ^ 16))

def Dev.showPend (d : Dev) (i : Int) : Dev :=
  let w := nsWords i
  (d.set F.PTP_PEND_LO_NS (w.getD 0 0)).set F.PTP_PEND_HI_NS (w.getD 1 0)

def Dev.ptpState (d : Dev) : Nat := d.get F.PTP_STATUS_STATE

/-- The portState code of the standard for the servo's state. -/
def Dev.setPtpState (d : Dev) (st : Nat) : Dev :=
  (d.set F.PTP_STATUS_STATE st).set F.PTP_STATUS_PORTSTATE
    (if !d.ptpEn then 3 else if d.ptpMaster then 6 else if d.ptp.master.isNone then 4 else if st = 2 then 9 else 8)

/-- Enter the lightship (R357): the rate learned while LOCKED alone. A master never enters it (R354). -/
def Dev.lightship (d : Dev) (why : Nat) : Dev :=
  if !d.ptpMaster && (d.ptpState = 1 || d.ptpState = 2) then
    (((d.modPtp fun p => { p with r := p.rLock, s := 0, run := 0, holdAt := d.now }).showRate.setPtpState 3).set F.PTP_STATUS_HOLD_S 0).raise
      Ev.PTP_LIGHTSHIP 15 none [0, 0, 0, why]
  else d

/-- Make a step (R358, R360): nothing changes but the time. DESIGN CHOICE (log 62): a step made while an older one is pending drops the
pending one. -/
def Dev.makeStep (d : Dev) (i : Int) : Dev :=
  let t := d.time
  let pend := d.bit F.PTP_STATUS_STEP_PEND
  let d := { d with time := t.move i, ptp := { d.ptp with big := 0, run := 0, step := 0 } }
  let d := (d.set F.PTP_STATUS_STEP_PEND 0).showPend 0
  let d := if d.ptp.master.isSome && (pend || d.ptpState ≠ 3) then d.setPtpState 1 else d
  d.raise Ev.TIME_STEPPED 15 none ([0] ++ nsWords (ns16 i) ++ [t.sec % 2 ^ 32, t.sec / 2 ^ 32, t.ns])

/-- A step falls due: made at once, or held pending where the device prints, holds or shadows (R358). -/
def Dev.stepDue (d : Dev) (i : Int) : Dev :=
  if d.modeIn [.print, .shuttle, .hold, .shadow] then
    (((d.modPtp fun p => { p with step := i, big := 0 }).set F.PTP_STATUS_STEP_PEND 1).showPend (ns16 i)).raise Ev.TIME_STEP_PENDING 15 none
      ([0] ++ nsWords (ns16 i)) |>.lightship 2
  else d.makeStep i

/-- At entry to IDLE a pending step is to be made (R24, R358). -/
def Dev.stepAtIdle (d : Dev) : Dev := d.modPtp fun p => { p with idleStep := d.bit F.PTP_STATUS_STEP_PEND }

/-- It is made once no Sync of the same cycle is still to be evaluated: one that clears or changes the step is evaluated first (R359). -/
def Dev.idleStepNow (d : Dev) (syncWaits : Bool) : Dev :=
  if !d.ptp.idleStep || syncWaits then d
  else
    let d := d.modPtp fun p => { p with idleStep := false }
    if d.bit F.PTP_STATUS_STEP_PEND then d.makeStep d.ptp.step else d

/-! ### The servo (R356) -/

def ppb : Int := 2 ^ 24

/-- A measurement of offsetFromMaster, in 2^-16 ns. -/
def Dev.measure (d : Dev) (o : Int) : Dev :=
  let d := d.setI F.PTP_OFFSET_NS (clampI (-(2 ^ 31)) (2 ^ 31 - 1) (ns16 o))
  let near := decide (o.natAbs ≤ 1000 * 2 ^ 16)
  let run := if o.natAbs ≤ d.get F.PTP_SERVO_LOCK_NS * 2 ^ 16 then d.ptp.run + 1 else 0
  let d := d.modPtp fun p => { p with run := run }
  let d := if d.ptpState = 2 && run = 0 then d.setPtpState 1 else d
  if near then
    let d := if d.bit F.PTP_STATUS_STEP_PEND then
        (((d.modPtp fun p => { p with step := 0 }).set F.PTP_STATUS_STEP_PEND 0).showPend 0).raise Ev.PTP_STEP_CLEARED 15 none [0]
      else d
    let d := if d.ptpState = 2 then d else d.setPtpState 1
    let r := clampI (-1000000 * ppb) (1000000 * ppb) (d.ptp.r - o * d.get F.PTP_SERVO_KI)
    let s := clampI (-100000 * ppb) (100000 * ppb) (-(o * d.get F.PTP_SERVO_KP * 2 ^ 8))
    let d := (d.modPtp fun p => { p with r := r, s := s, big := 0 }).showRate
    let d := if 16 ≤ run && d.ptpState ≠ 2 then
        (d.setPtpState 2).raise Ev.PTP_LOCKED 15 none [0, 0, 0, d.get F.PTP_GMID_LO_ID, d.get F.PTP_GMID_HI_ID]
      else d
    if d.ptpState = 2 then d.modPtp fun p => { p with rLock := p.r } else d
  else
    let ahead := decide (0 < o)
    let big := if d.ptp.ahead = ahead then d.ptp.big + 1 else 1
    let d := d.modPtp fun p => { p with big := big, ahead := ahead }
    if d.bit F.PTP_STATUS_STEP_PEND then (d.modPtp fun p => { p with step := -o }).showPend (ns16 (-o))
    else if max 1 (d.get F.PTP_SERVO_STEP_CONF) ≤ big then d.stepDue (-o)
    else d

/-- The offset of a Sync: its ingress time less its origin and corrections and the mean path delay. -/
def Dev.syncMeasured (d : Dev) (t2 base : Int) : Dev :=
  (d.modPtp fun p => { p with last := some (t2, base), wait := none }).measure (t2 - base - d.ptp.delay)

/-- A Sync of the chosen master (R356). -/
def Dev.ptpSync (d : Dev) (m : SyncMsg) : Dev :=
  d.ptpTake m.port m.domain fun d =>
    if d.ptpMaster || d.ptp.master ≠ some m.src then d
    else
      let t2 := d.ingressTime m.ago
      let base := (m.origin : Int) + m.corr + d.asym
      let d := d.modPtp fun p => { p with syncAt := d.now }
      if m.twoStep then d.modPtp fun p => { p with wait := some (m.seq, t2, base) } else d.syncMeasured t2 base

/-- The Follow_Up of a two-step Sync: its origin time and correction complete the measurement. -/
def Dev.ptpFollowUp (d : Dev) (port : Fin 2) (domain src seq origin : Nat) (corr : Int) : Dev :=
  d.ptpTake port domain fun d =>
    match d.ptp.wait with
    | some (q, t2, base) => if !d.ptpMaster && d.ptp.master = some src && q = seq then d.syncMeasured t2 (base + origin + corr) else d
    | none => d

/-! ### Masters (R353, R357) -/

/-- The data set comparison as one number, lower is better. -/
def annKey (m : AnnMsg) : Nat :=
  [(m.class_.val, 8), (m.accuracy.val, 8), (m.variance.val, 16), (m.prio2.val, 8), (m.gm.val, 64), (m.steps.val, 16), (m.src, 80)].foldl
    (fun a p => a * 2 ^ p.2 + p.1 % 2 ^ p.2) m.prio1.val

/-- The master is lost (R357): from LOCKED or ACQUIRE the clock enters the lightship. -/
def Dev.masterLost (d : Dev) : Dev :=
  match d.ptp.master with
  | none => d
  | some m =>
    let d := d.modPtp fun p => { p with master := none, foreign := p.foreign.filter fun f => f.src ≠ m, last := none, wait := none, req := none, big := 0, run := 0 }
    let d := (d.set F.PTP_STATUS_MASTER 0).lightship 1
    d.setPtpState d.ptpState

/-- Choose a master. -/
def Dev.choose (d : Dev) (f : Foreign) : Dev :=
  if d.ptp.master = some f.src && d.get F.PTP_GMID_LO_ID = f.gm % 2 ^ 32 && d.get F.PTP_GMID_HI_ID = f.gm / 2 ^ 32 then d
  else
    let same := d.get F.PTP_GMID_LO_ID = f.gm % 2 ^ 32 && d.get F.PTP_GMID_HI_ID = f.gm / 2 ^ 32
    let d := d.modPtp fun p => { p with master := some f.src, syncAt := d.now, last := none, wait := none, req := none, big := 0, run := 0 }
    let d := ((d.set F.PTP_STATUS_MASTER 1).set F.PTP_GMID_LO_ID (f.gm % 2 ^ 32)).set F.PTP_GMID_HI_ID (f.gm / 2 ^ 32)
    let d := d.setPtpState (if d.ptpState = 0 then 1 else d.ptpState)
    if same then d else d.raise Ev.PTP_MASTER_CHANGE 15 none [0, 0, 0, f.gm % 2 ^ 32, f.gm / 2 ^ 32]

/-- An Announce takes part in best master selection (R353): the best data set among those heard within the announce timeout. -/
def Dev.ptpAnnounce (d : Dev) (m : AnnMsg) : Dev :=
  d.ptpTake m.port m.domain fun d =>
    if d.ptpMaster then d
    else
      let f : Foreign := { src := m.src, key := annKey m, gm := m.gm.val, at_ := d.now }
      let fs := (d.ptp.foreign.filter fun x => decide (x.src ≠ f.src) && (decide (d.now < x.at_ + d.annTmo) || d.ptp.master = some x.src)) ++ [f]
      let best := fs.foldl (fun a x => if x.key < a.key then x else a) f
      let d := d.modPtp fun p => { p with foreign := fs, annAt := if p.master = some f.src || best.src = f.src then d.now else p.annAt }
      d.choose best

/-- An Announce of the master in use arrives with a message. -/
def Dev.fromMaster (d : Dev) (m : AnnMsg) : Bool :=
  d.ptpEn && m.port.val = d.ptpPort && m.domain = d.effGet F.PTP_CFG_DOMAIN && d.ptp.master = some m.src

/-- announceReceiptTimeout expires (R357): an Announce that arrives in the same cycle wins. -/
def Dev.announceTimeout (d : Dev) (arrives : Bool) : Dev :=
  if !arrives && d.ptpEn && !d.ptpMaster && d.ptp.master.isSome && decide (d.ptp.annAt + d.annTmo ≤ d.now) then d.masterLost else d

/-- No Sync within 4 Sync intervals (R357). -/
def Dev.syncLoss (d : Dev) : Dev :=
  if d.ptpEn && !d.ptpMaster && d.ptp.master.isSome && decide (d.ptp.syncAt + 4 * d.syncNs ≤ d.now) then d.masterLost else d

/-! ### Path delay (R353) -/

/-- The answer to the request in flight: the mean path delay by the standard's computation. -/
def Dev.ptpDelayResp (d : Dev) (m : DelayMsg) : Dev :=
  d.ptpTake m.port m.domain fun d =>
    if decide (m.p2p ≠ d.effBit F.PTP_CFG_P2P) || (!m.p2p && (d.ptpMaster || d.ptp.master ≠ some m.src)) then d
    else
      match d.ptp.req with
      | none => d
      | some (q, t3) =>
        if q ≠ m.seq then d
        else
          let v : Option Int :=
            if m.p2p then some ((d.ingressTime m.ago - t3 - ((m.tx : Int) - m.rx) - m.corr - d.asym) / 2)
            else d.ptp.last.map fun (t2, base) => ((t2 - base) + ((m.rx : Int) - t3) - m.corr) / 2
          match v with
          | none => d.modPtp fun p => { p with req := none }
          | some x => (d.modPtp fun p => { p with req := none, delay := x }).setI F.PTP_PATHDLY_NS (roundDiv x (2 ^ 12))

def Dev.ptpNet (d : Dev) (kind : Nat) (words : List Nat) : Dev :=
  d.emit (.net d.ptpPort 0x88F7 ([kind, d.effGet F.PTP_CFG_UDP, d.effGet F.PTP_CFG_DOMAIN] ++ words))

def timeWords (i : Int) : List Nat :=
  let t := Time.ofUnits (i % (timeMod : Int)).toNat
  [t.sec % 2 ^ 32, t.sec / 2 ^ 32, t.ns, t.frac]

def dueAt (last : Option Nat) (every now : Nat) : Bool := match last with | none => true | some t => decide (t + every ≤ now)

/-- A Delay_Req (message type 1) or Pdelay_Req (2) leaves at its interval. -/
def Dev.ptpDelayReqSend (d : Dev) : Dev :=
  let p2p := d.effBit F.PTP_CFG_P2P
  if !d.ptpEn || !(p2p || (!d.ptpMaster && d.ptp.master.isSome)) || !dueAt d.ptp.txReq d.dreqNs d.now then d
  else
    let q := d.ptp.seqReq
    (d.modPtp fun p => { p with req := some (q, d.egressTime), txReq := some d.now, seqReq := (q + 1) % 2 ^ 16 }).ptpNet (if p2p then 2 else 1) [q]

/-- A request from another clock is timestamped and answered (R354): Delay_Resp (9) by a master, Pdelay_Resp (3) on a peer-to-peer port. -/
def Dev.ptpDelayReqRx (d : Dev) (m : ReqMsg) : Dev :=
  d.ptpTake m.port m.domain fun d =>
    if m.p2p then
      if d.effBit F.PTP_CFG_P2P then d.ptpNet 3 ([m.src, m.seq] ++ timeWords (d.ingressTime m.ago) ++ timeWords d.egressTime ++ [unsext 64 m.corr]) else d
    else if d.ptpMaster && !d.effBit F.PTP_CFG_P2P then d.ptpNet 9 ([m.src, m.seq] ++ timeWords (d.ingressTime m.ago) ++ [unsext 64 m.corr])
    else d

/-- In master-only role Sync (0), Follow_Up (8) and Announce (11) leave on their intervals (R354). -/
def Dev.ptpSyncSend (d : Dev) : Dev :=
  if !d.ptpEn || !d.ptpMaster then d
  else
    let d := if dueAt d.ptp.txSync d.syncNs d.now then
        let q := d.ptp.seqSync
        let t := timeWords d.egressTime
        let d := d.modPtp fun p => { p with txSync := some d.now, seqSync := (q + 1) % 2 ^ 16 }
        if d.effBit F.PTP_CFG_TWOSTEP then (d.ptpNet 0 [q, 1]).ptpNet 8 (q :: t) else d.ptpNet 0 ([q, 0] ++ t)
      else d
    if dueAt d.ptp.txAnn d.annNs d.now then
      let q := d.ptp.seqAnn
      (d.modPtp fun p => { p with txAnn := some d.now, seqAnn := (q + 1) % 2 ^ 16 }).ptpNet 11
        [q, d.effGet F.PTP_CFG_PRIO1, d.effGet F.PTP_CFG_PRIO2, d.img.macs.getD d.ptpPort 0]
    else d

/-! ### Host operations -/

def Dev.ptpRxDiscard (d : Dev) : Dev := if d.ptpEn then d.addSat F.PTP_RXDROP_COUNT 1 else d

/-- SET_TIME (R354, R358): the difference between the set value and the time is a step. -/
def Dev.setTime (d : Dev) : Dev :=
  if !d.ptpMaster then d
  else
    let t : Time := { sec := d.effPair Reg.PTP_SET_SEC_LO Reg.PTP_SET_SEC_HI % 2 ^ 48, ns := d.get F.PTP_SET_NS_NS, frac := d.effGet F.PTP_SET_SEC_HI_FRAC }
    d.stepDue ((t.units : Int) - d.time.units)

def Dev.timeCapture (d : Dev) : Dev :=
  (((d.set F.PTP_CAP_SEC_LO_SEC d.time.sec).set F.PTP_CAP_SEC_HI_SEC (d.time.sec / 2 ^ 32)).set F.PTP_CAP_SEC_HI_FRAC d.time.frac).set
    F.PTP_CAP_NS_NS d.time.ns

/-- PTP_CFG and the intervals take effect (R365): a clock that is no longer disciplined as a slave has no master, and a master is in no
state of the servo (DESIGN CHOICE: STATE then reads FREE, log 68). -/
def Dev.ptpConfig (d : Dev) : Dev :=
  let d := if d.ptpEn && !d.ptpMaster then d else (d.masterLost).modPtp fun p => { p with foreign := [] }
  d.setPtpState (if d.ptpMaster then 0 else d.ptpState)

/-! ### Action slots (R361, R362) -/

def Dev.actTarget (d : Dev) (a : Fin 4) : Nat :=
  Time.units { sec := d.effPair (Reg.PTP_ACT_SEC_LO a) (Reg.PTP_ACT_SEC_HI a) % 2 ^ 48, ns := d.get (F.PTP_ACT_NS_NS a) }

def Dev.actState (d : Dev) (a : Fin 4) : Nat := d.get (F.PTP_ACT_CTL_STATE a)

/-- ARM (R361): a slot that is ARMED refuses it; else the slot is checked afresh. No slot is armed in BOOT (R364). -/
def Dev.actionArm (d : Dev) (a : Fin 4) (target : Nat) : Dev :=
  if d.mode = .boot then d
  else if d.actState a = 1 then d.actRefusedEvt a 0 0xFF
  else
    let d := (d.set (F.PTP_ACT_CTL_TARGET a) target).set (F.PTP_ACT_CTL_REASON a) 0
    if d.actTarget a < d.time.units + 10000 * 2 ^ 16 then (d.set (F.PTP_ACT_CTL_STATE a) 5).actRefusedEvt a 0 0xFE
    else d.set (F.PTP_ACT_CTL_STATE a) 1

/-- The slot may fire: ARMED and not fired yet, at or after its target, in a mode from IDLE to SAFE, no lower slot due. -/
def Dev.actDue (d : Dev) (a : Fin 4) : Bool :=
  d.actState a = 1 && !(match d.ptp.act with | some (x, _) => x = a.val | none => false) && decide (d.actTarget a ≤ d.time.units) && decide (2 ≤ d.mode.code) && decide (d.mode.code ≤ 9)

/-- CANCEL of an ARMED slot; one that fires in this cycle wins (R361, R362). -/
def Dev.actionCancel (d : Dev) (a : Fin 4) : Dev := if d.actState a = 1 && !d.actDue a then d.set (F.PTP_ACT_CTL_STATE a) 4 else d

def Dev.actFires (d : Dev) (a : Fin 4) : Bool := d.actDue a && !((List.finRange 4).any fun x => decide (x < a) && d.actDue x)

/-- The request of the slot in progress has completed. -/
def Dev.actDone (d : Dev) : Dev :=
  match d.ptp.act with
  | none => d
  | some (a, late) =>
    ((d.set (F.PTP_ACT_CTL_STATE a) 2).raise Ev.PTP_ACT_DONE 15 none ([a] ++ nsWords late)).modPtp fun p => { p with act := none }

/-- Seconds in the lightship (R357). -/
def Dev.holdSeconds (d : Dev) : Dev :=
  if d.ptpState = 3 then d.set F.PTP_STATUS_HOLD_S (min 0xFFFF ((d.now - d.ptp.holdAt) / 1000000000)) else d

end Sys2Proof.Machine
end

