-- ==== Sys2Proof/Machine/Reset.lean ====
section
/-!
DEFINITION. Reset sources and reaches, domains, clocks (R367 to R377): what a reset of a domain leaves, the values per image, sources that
assert and release, power.
-/
namespace Sys2Proof.Machine

def Dev.modBoot (d : Dev) (f : Boot → Boot) : Dev := { d with boot := f d.boot }

/-- The domain of a register, by its address: the blocks of BAR0, then the tables behind windows (R15). -/
def domAt (a : Nat) : Fin 12 :=
  if a < 0x1500000 then domOf (a / 0x100000)
  else match a / 0x1000000 with
    | 0x10 | 0x11 | 0x12 => 6
    | 0x13 => 11
    | 0x14 | 0x17 => 10
    | 0x15 => 8
    | _ => 1

/-! ### Values per image (R382, R389) -/

/-- Usable bytes of the job store for a population (R307). -/
def capBytes (i : Image) : Nat :=
  let gib8 := match i.density with | 0 => 8 | 1 => 12 | _ => 16
  let raw := 2 * 2 * i.ranks * (if i.x8 = 1 then 2 else 1) * gib8 * 2 ^ 27
  raw / 8 * 7 / (if i.spare = 0 then 1 else 2)

/-- The lanes in the map in use (R199): the alternate map leaves out those it names. -/
def laneUsed (i : Image) (attempt n : Nat) : Bool :=
  (i.lanes.getD n {}).en && !(attempt = 2 && Nat.testBit i.altExcl n)

/-- The bars that the lanes in use carry: a bar with a piece on a lane left out is unavailable. -/
def barsUsed (i : Image) (attempt : Nat) : Nat :=
  let has (n b : Nat) : Bool := (i.lanes.getD n {}).pieces.any fun p => p.bar = b
  ((List.range 12).filter fun b => Nat.testBit i.bars b && (List.range 16).all fun n => !(has n b) || laneUsed i attempt n).foldl
    (fun a b => a + 2 ^ b) 0

/-- Every field whose value the image gives. -/
def imageFields (i : Image) (attempt : Nat) : List (Fld × Nat) :=
  [(⟨Reg.RPC_CRIT, 0, 8⟩, i.crit), (F.ZXL_CFG_RATE_TOP, i.rateTop), (F.ZXL_BOOT_ATTEMPT, attempt), (F.ZXL_BAR_AVAIL_BARS, barsUsed i attempt),
   (F.ZXL_CLAIM_CLAIM, i.claim), (F.DPX_CFG_ROLE, i.role), (F.DPX_CLAIM_SET, i.claim), (F.DRC_CFG_SPARE, i.spare), (F.DRC_CFG_DENSITY, i.density),
   (F.DRC_CFG_X8, i.x8), (F.DRC_CFG_RANKS, i.ranks), (F.DRC_CAP_LO_BYTES, capBytes i), (F.DRC_CAP_HI_BYTES, capBytes i / 2 ^ 32),
   (F.HST_RT_CFG_EN, i.rtEn.toNat)]
    ++ ((List.range 2).flatMap fun p =>
      [(F.NET_P_MAC_LO_MAC p, i.macs.getD p 0), (F.NET_P_MAC_HI_MAC p, i.macs.getD p 0 / 2 ^ 32), (F.NET_P_IP_IP p, i.ips.getD p 0)])
    ++ ((List.range 12).flatMap fun b =>
      [(F.NOZ_BAR_CFG_DUAL b, bits i.dual b 1), (F.NOZ_BAR_ROWB_LINES b, i.rowB.getD b 0 / 2 ^ 8), (F.NOZ_BAR_ROWB_PHASE b, i.rowB.getD b 0)])
    ++ ((List.range 18).flatMap fun n =>
      let l := i.lanes.getD n {}
      let ps := if laneUsed i attempt n then l.pieces else []
      [(F.ZXL_LANE_CFG_EN n, (laneUsed i attempt n).toNat), (F.ZXL_LANE_CFG_EP_EXPECT n, l.expect), (F.ZXL_LANE_CFG_VER_MIN n, l.verMin),
       (F.ZXL_LANE_CFG_RATE_MAX n, l.rateMax), (F.ZXL_LANE_LOAD_POSITIONS n, (ps.map (·.count)).foldl (· + ·) 0)]
      ++ (ps.zipIdx.flatMap fun p =>
        [(F.ZXL_LANE_PIECE_FIRST_VALID n p.2, 1), (F.ZXL_LANE_PIECE_FIRST_BAR n p.2, p.1.bar), (F.ZXL_LANE_PIECE_FIRST_FIRST n p.2, p.1.first),
         (F.ZXL_LANE_PIECE_COUNT_COUNT n p.2, p.1.count)]))

/-- A field in effect. -/
def Dev.effSet (d : Dev) (f : Fld) (v : Nat) : Dev := d.effWr f.reg (f.into (d.effRd f.reg) v)

/-- The domain that keeps the value in effect of a register: the transport's configuration acts in PD3 (R433). -/
def effDom (a : Nat) : Fin 12 := if a = Reg.HST_RT_CFG then 3 else domAt a

/-- The image's values in a domain's registers, with those of its configuration and script sections. -/
def Dev.loadImage (d : Dev) (p : Fin 12) : Dev :=
  match d.image with
  | none => d
  | some i =>
    let d := (imageFields i d.boot.attempt).foldl (fun (d : Dev) f =>
      let d := if domAt f.1.reg = p then d.set f.1 f.2 else d
      if effDom f.1.reg = p then d.effSet f.1 f.2 else d) d
    i.regs.foldl (fun (d : Dev) w =>
      let d := if domAt w.1 = p then d.wr w.1 w.2 else d
      if effDom w.1 = p then d.effWr w.1 w.2 else d) d

/-! ### What a reset of a domain leaves (R5, R372, R377) -/

/-- The bits of a word that every reset keeps. -/
def keepMask (a : Nat) : Word := match findReg a with | some (r, _, _) => BitVec.ofNat 32 r.keep | none => 0

/-- The words of a register file after a reset of a domain: those of other domains, and the bits that are kept. -/
def resetWords (p : Fin 12) (l : List (Nat × Word)) : List (Nat × Word) :=
  l.filterMap fun x =>
    if domAt x.1 ≠ p then some x
    else
      let v := (x.2 &&& keepMask x.1) ||| (resetWord x.1 &&& ~~~(keepMask x.1))
      if v = resetWord x.1 then none else some (x.1, v)

def dropDom (p : Fin 12) (l : List (Nat × Word)) : List (Nat × Word) := l.filter fun x => domAt x.1 ≠ p

/-- The screening path of a bar, empty. -/
def BarSt.noScreen (s : BarSt) : BarSt :=
  { s with scrFrom := none, scr := none, car := [], work := [], com := [], comPos := none, kept := [], replay := [], replaying := false,
           starved := [], staging := [], gain := none, gainNext := [], lateRes := [], reach := [], arrived := [] }

/-- What a domain's blocks hold beyond their registers, at reset. -/
def Dev.resetBlocks (d : Dev) (p : Fin 12) : Dev :=
  match p.val with
  | 0 => { d with thm := { nextAt := d.now, tripped := d.thm.tripped }, boot := { d.boot with spi := none } }
  | 1 => { d with raised := [], coal := [], sigs := [], evq := {}, snap := {},
                  job := { d.job with sets := [], setSeq := 0, written := [], fieldSeq := [], cfgWritten := [], cfgWait := false, captured := [] } }
  | 2 => { d with egress := Vector.replicate 2 [], egr := Vector.replicate 2 {}, hst := {}, job := { d.job with ing := Vector.replicate 4 {} } }
  | 3 => { d with ptp := {}, time := {}, timeSub := 0, rt := {} }
  | 4 => { d with drc := { unret := d.drc.unret, selfRef := d.drc.selfRef } }
  | 5 => { d with job := { d.job with entries := [], checked := [], nextSeq := 0, final := none, ing := Vector.replicate 4 {} } }
  | 6 | 7 => { d with bars := updAll d.bars fun _ s => s.noScreen }
  | 8 => { d with zxl := { lanes := updAll d.zxl.lanes fun n l => if laneDom n = 8 then {} else l }, dpx := {} }
  | 9 => { d with zxl := { d.zxl with lanes := updAll d.zxl.lanes fun n l => if laneDom n = 9 then {} else l } }
  | 10 => { d with pos := {}, stb := Vector.replicate 8 {}, cmp := Vector.replicate 32 {}, lmp := {}, bars := Vector.replicate 12 {} }
  | _ => { d with vis := {}, den := {} }

/-- Reset of a domain: its registers, their shadows and values in effect, and its blocks. Lanes of PD9 keep the state that PD8 shows of
them through a reset of PD8 alone. -/
def Dev.resetDom (d : Dev) (p : Fin 12) : Dev :=
  let cause := d.get F.RPC_CAUSE_SRC
  let other := (List.finRange 18).filter fun (n : Fin 18) => laneDom n = 9 && d.runs 9
  let sts := other.map fun (n : Fin 18) => (Reg.ZXL_LANE_STATUS n, d.rd (Reg.ZXL_LANE_STATUS n))
  let kept (l : List Nat) : List Nat := l.filter fun a => domAt a ≠ p
  let d : Dev := { d with regs := resetWords p d.regs, was := resetWords p d.was, shadow := dropDom p d.shadow, eff := d.eff.filter fun x => effDom x.1 ≠ p,
                          job := { d.job with written := kept d.job.written, cfgWritten := kept d.job.cfgWritten } }
  let d := d.resetBlocks p
  match p.val with
  | 0 => d.set F.RPC_CAUSE_SRC cause
  | 2 => (List.finRange 4).foldl (fun (d : Dev) (c : Fin 4) => ((d.set (F.JOB_ING_STATUS_RUN c) 0).set (F.JOB_ING_STATUS_STOPPED c) 1)) d
  | 8 => sts.foldl (fun (d : Dev) x => d.wr x.1 x.2) d
  | 9 => ((List.finRange 18).filter fun (n : Fin 18) => laneDom n = 9).foldl (fun (d : Dev) (n : Fin 18) => d.setLane n laneOff) d
  | _ => d

/-! ### Domain states (R374) -/

def Dev.modDom (d : Dev) (p : Fin 12) (f : Dom → Dom) : Dev := { d with doms := upd d.doms p f }

/-- Synchronous domains PD4 to PD9. -/
def syncDom (p : Fin 12) : Bool := decide (4 ≤ p.val) && decide (p.val ≤ 9)

/-- The sources that cover a domain (R373): the union of what is asserted. -/
def Dev.covering (d : Dev) (p : Fin 12) : Nat :=
  (d.boot.srcs.filter fun s => Nat.testBit s.mask p).foldl (fun a s => a ||| 2 ^ s.bit) 0

def Dev.showSrcs (d : Dev) : Dev :=
  { d with doms := updAll d.doms fun p x => { x with src := d.covering p, seen := x.seen ||| d.covering p } }

/-- A reset is asserted over a domain: it takes hold at once, or the domain waits for its clock (R374). -/
def Dev.takeReset (d : Dev) (p : Fin 12) : Dev :=
  if d.doms[p].st = .off then d
  else if syncDom p && !d.clocked p then (d.modDom p fun x => { x with st := .pending }).crcLost
  else ((d.modDom p fun x => { x with st := .reset }).resetDom p).crcLost

def allDoms : List (Fin 12) := List.finRange 12

/-- A reset source asserts over domains (R371, R373). In FROZEN a source of narrower reach is recorded and held (R376). -/
def Dev.assertSrc (d : Dev) (bit mask : Nat) (until_ : Option Nat) : Dev :=
  let d := d.set ⟨Reg.RPC_CAUSE, bit, 1⟩ 1
  let d := d.modBoot fun b => { b with srcs := (b.srcs.filter fun s => !(s.bit = bit && s.mask = mask)) ++ [{ bit := bit, mask := mask, until_ := until_ }] }
  let d := d.showSrcs
  if d.mode = .frozen then d
  else (allDoms.filter fun (p : Fin 12) => Nat.testBit mask p).foldl (fun (d : Dev) (p : Fin 12) => d.takeReset p) d

def maskSystem : Nat := 0xFFE
def maskDevice : Nat := 0xFFF

/-- Every rank enters self-refresh, debts paid (R375). -/
def Dev.selfRefresh (d : Dev) : Dev :=
  if d.live 4 && d.memUp then { d with drc := { d.drc with selfRef := true, cr := updAll d.drc.cr fun _ c => { c with debt := 0, must := 0, pay := none } } } else d

/-- A domain is powered (R369); it passes through reset, so its snapshot fields read their reset values again (R5). -/
def Dev.powerOn (d : Dev) (p : Fin 12) : Dev :=
  if d.doms[p].st = .off then
    ({ d with shadow := dropDom p d.shadow } : Dev).modDom p fun x => { x with st := if x.src = 0 then .releaseWait else .reset, waitAt := d.now }
  else d

/-! ### The freeze record (R416) -/

/-- The freeze record (R416), written by the freeze sequencer. -/
def Dev.freezeRecord (d : Dev) (f : Frz) : Dev :=
  let n := min 0xFFFFFFFF (d.prsNow 0xA0 + 1)
  let lo := f.web % 2 ^ 32
  let w2 := 2 ^ 31 + f.raw.toNat * 2 ^ 30 + f.src * 2 ^ 29 + f.mode * 2 ^ 20 + f.web / 2 ^ 32 % 2 ^ 16
  (((d.prsPut 0xA0 n).prsPut 0xA1 lo).prsPut 0xA2 w2).prsPut 0xA3 (wordsCrc [n, lo, w2])

/-- FROZEN is entered: the clocks stop, and panel sources and sinks are off (R415). -/
def Dev.frozen (d : Dev) (f : Frz) : Dev :=
  let evs := match d.sys.trans with | some t => t.evs | none => []
  let d := d.raiseAll evs
  let d : Dev := { d with sys := { d.sys with mode := .frozen, prev := d.sys.mode, trans := none, held := [] }, frz := none,
                          lmp := { d.lmp with cols := 0 } }
  d.freezeRecord f

/-- What the AON latches would capture of this moment (R415). -/
def Dev.latched (d : Dev) (src : Nat) (raw : Bool) : Frz := { web := d.web, mode := d.mode.code, src := src, raw := raw }

/-- What a freeze request of the same cycle would find: the latches, and whether the memory works (R417). -/
def Dev.noteWide (d : Dev) : Dev :=
  if d.mode = .frozen then d.modBoot fun b => { b with wideAt := none }
  else d.modBoot fun b => { b with wideAt := some (d.now, d.latched 0 (d.bit F.DBG_FREEZE_RAW_RAW), d.live 4 && d.memUp) }

/-- A source of SYSTEM or DEVICE reach: the device goes to BOOT, and leaves FROZEN (R372, R376). The memory is retained when it is in
self-refresh (R375). Device writes of persistent words that PD1 had queued are lost, but for the boot log and the freeze record. PD1 is
powered for the boot where SLEEP or the orderly stop had powered it off (R19, R369). A freeze being entered is entered first (R417); EXTEST,
CLAMP and HIGHZ end with FROZEN (R418). -/
def Dev.wideReset (d : Dev) (bit : Nat) (device : Bool) (until_ : Option Nat) : Dev :=
  let d := (match d.frz with | some f => d.frozen f | none => d).noteWide
  let d : Dev := { d with jtag := { d.jtag with drives := 0, dr := if d.jtag.ir = 3 ∨ d.jtag.ir = 4 ∨ d.jtag.ir = 5 then .bypass else d.jtag.dr },
                          sys := {}, frz := none, image := none, noz := {},
                          prsQ := d.prsQ.filter fun w => decide (w.1 < 0x44) || (decide (0xA0 ≤ w.1) && decide (w.1 ≤ 0xA3)) }
  let d := d.modBoot fun b => { b with step := 0, failed := false, last := 0, released := false, lampOff := false, wake := false,
                                       slow := b.slow && !device }
  let d := d.assertSrc bit (if device then maskDevice else maskSystem) until_
  if d.boot.por then d else d.powerOn 1

/-- Sources release: domains that no source covers any more wait for their clocks and their boot step. -/
def Dev.dropSrcs (d : Dev) (gone : Src → Bool) : Dev :=
  let old := d.doms
  let d := (d.modBoot fun b => { b with srcs := b.srcs.filter fun s => !gone s }).showSrcs
  { d with doms := updAll d.doms fun p x =>
      if x.src ≠ 0 || old[p].src = 0 then x
      else { x with st := if x.st = .reset then .releaseWait else x.st, waitAt := d.now } }

/-- Sources whose time is over release; a software request is then done, and a BLOCK reset reported (R377, R390). In FROZEN they are held
(R376). -/
def Dev.expireSrcs (d : Dev) : Dev :=
  let excess (s : Src) : Bool := match s.until_ with | some t => decide (t ≤ d.now) | none => false
  let gone := d.boot.srcs.filter excess
  if gone.isEmpty || d.mode = .frozen then d
  else
    let d := d.dropSrcs excess
    let d := if gone.any fun s => 8 ≤ s.bit && s.bit ≤ 10 then d.set F.RPC_SWRST_RESULT 2 else d
    gone.foldl (fun (d : Dev) s => if s.bit = 10 then d.raise Ev.RST_DONE 15 none [0, 2 ^ 10] else d) d

/-- The boot step that a domain waits for has begun (R369, R374, R386); PD2 also waits for PERST#. -/
def Dev.gate (d : Dev) (p : Fin 12) : Bool :=
  match p.val with
  | 0 | 1 => true
  | 2 => !d.boot.perst && (d.sys.halt || (decide (5 ≤ d.boot.step) && d.img.pcie))
  | 3 => d.sys.halt || decide (6 ≤ d.boot.step)
  | _ => !d.sys.halt && decide (1 ≤ d.boot.step)

/-- From the last of clock and sources to the release, ns, each rounded up: 4 cycles of the slowest clock of an asynchronous domain, 256 of a
synchronous one (R374). -/
def releaseNs (p : Fin 12) : Nat :=
  match p.val with
  | 0 => 500 | 1 | 2 => 16 | 3 => 13 | 4 => 320 | 5 | 6 | 7 => 256 | 8 | 9 => 365 | 10 => 40 | _ => 4

/-- A domain can be released. -/
def Dev.releasable (d : Dev) (p : Fin 12) : Bool :=
  d.doms[p].st = .releaseWait && d.clocked p && d.gate p && decide (d.doms[p].waitAt + releaseNs p ≤ d.now)

/-- RESET_TAKE_HOLD: a pending reset, once the clock is good (R374). -/
def Dev.resetTakeHold (d : Dev) (p : Fin 12) : Dev :=
  if d.doms[p].st = .pending && d.clocked p then
    (d.modDom p fun x => { x with st := if x.src = 0 then .releaseWait else .reset }).resetDom p
  else d

/-- What an ingest channel that runs keeps in PD2 when PD5, with its registers and the encoder, is powered down: the descriptor at HEAD, which
fails where it encodes (R130, R377). -/
def Dev.ingOrphan (d : Dev) (c : Fin 4) : Ing :=
  let i := d.job.ing[c]
  if d.runs 2 && d.bit (F.JOB_ING_STATUS_RUN c) && !d.bit (F.JOB_ING_STATUS_STOPPED c) then
    { i with orphan := some (d.ingAddr c),
             bad := match i.desc with | some ds => if bits (ds.getD 5 0) 28 2 = 1 then 5 else i.bad | none => 0 }
  else {}

/-- A domain is powered off: what its blocks held is gone. -/
def Dev.powerOff (d : Dev) (p : Fin 12) : Dev :=
  let keep := Vector.ofFn d.ingOrphan
  let d := ((d.resetDom p).modDom p fun x => { x with st := .off, seen := 0 }).crcLost
  if p = 5 then { d with job := { d.job with ing := keep } } else d

/-! ### Clocks (R370) -/

/-- CLOCK_LOSS: the domains that use the clock stop where they stand. CK8, CK10 and CK11 have no monitor. -/
def Dev.clockLoss (d : Dev) (k : Nat) : Dev :=
  if k = 0 || k = 8 || 10 ≤ k || !d.clkGood k then d
  else
    let d := (d.set ⟨Reg.RPC_CLK, k, 1⟩ 0).set ⟨Reg.RPC_CLK, 16 + k, 1⟩ 1
    if d.live 1 then d.raise Ev.CLK_LOST 15 none [0, k] else d

/-- CLOCK_GOOD: four good windows in succession. A domain that waits for the clock counts its cycles from here (R374). -/
def Dev.clockGood (d : Dev) (k : Nat) : Dev :=
  if k = 0 || k = 8 || 10 ≤ k || d.clkGood k then d
  else ({ d with doms := updAll d.doms fun p x => if (clocksOf p).contains k then { x with waitAt := d.now } else x } : Dev).set ⟨Reg.RPC_CLK, k, 1⟩ 1

/-! ### Supplies and hardware sources (R368, R371) -/

/-- The registers that show a persistent record keep its content through a loss of power (R5): boots, lamp modules, spare ranks. -/
def Dev.fromRecords (d : Dev) : Dev :=
  let d := (List.finRange 16).foldl (fun (d : Dev) (m : Fin 16) =>
    let w (i : Nat) : Nat := d.prsWord (0x200 + 4 * m.val + i)
    ((d.wr (Reg.LMP_MOD_ID m) (BitVec.ofNat 32 (w 0))).wr (Reg.LMP_MOD_HOURS m) (BitVec.ofNat 32 (w 1))).set (F.LMP_MOD_RATED_HOURS m) (w 2 / 2 ^ 16)) d
  [0, 1].foldl (fun (d : Dev) i => d.wr (Reg.DRC_DI_STATE i) (BitVec.ofNat 32 (d.prsWord (0x90 + i)) &&& keepMask (Reg.DRC_DI_STATE i))) d

/-- VIN_LOW: power-on reset asserts; the persistent registers keep their content, and a memory in self-refresh its own (R375, R388). The
record of a freeze being entered is written first (R417). -/
def Dev.vinLow (d : Dev) : Dev :=
  if d.boot.por then d
  else
    let d := match d.frz with
      | some f =>
        let d := d.frozen f
        (d.prsQ.filter fun (w : Nat × Word) => decide (0xA0 ≤ w.1) && decide (w.1 ≤ 0xA3)).foldl (fun (d : Dev) (w : Nat × Word) => d.arrayWrite w.1 w.2 false) d
      | none => d
    let z : Dev := { now := d.now, fresh := d.fresh, sent := d.sent, regs := (resetWords 0 (d.regs.filter fun x => domAt x.1 = 0)),
                     prsFailed := d.prsFailed, store := if d.drc.selfRef then d.store else [],
                     poison := if d.drc.selfRef then d.poison else [], drc := { selfRef := d.drc.selfRef, unret := d.drc.unret },
                     boot := { perst := d.boot.perst, rstn := d.boot.rstn, caps := d.boot.caps,
                               srcs := if d.boot.rstn then [{ bit := 4, mask := maskSystem }] else [] } }
    z.fromRecords.showSrcs

/-- POWER_ON: power-on reset releases; RPC_CAUSE holds bit 0 alone; PD1 is powered. -/
def Dev.vinGood (d : Dev) : Dev :=
  if d.boot.por then
    ((d.modBoot fun b => { b with por := false }).set F.RPC_CAUSE_SRC 1).powerOn 1 |>.modDom 1 fun x => { x with seen := x.seen ||| 1 }
  else d

/-- BROWNOUT of a powered domain (R368): it releases 100 µs after the output recovers. -/
def Dev.brownout (d : Dev) (p : Fin 12) (low : Nat) : Dev :=
  if d.boot.por || d.doms[p].st = .off then d
  else
    let t := some (d.now + low + 100000)
    match p.val with
    | 0 => d.wideReset 1 true t
    | 1 => d.wideReset 2 false t
    | _ => (if d.live 1 then d.raise Ev.DOM_BROWNOUT 15 none [p.val] else d).assertSrc 3 (2 ^ p.val) t

/-- PERST_ASSERT, PERST_RELEASE (R371, R423). -/
def Dev.perstLow (d : Dev) : Dev :=
  if d.boot.por || d.boot.perst then d.modBoot fun b => { b with perst := true } else (d.modBoot fun b => { b with perst := true }).assertSrc 5 4 none

def Dev.perstHigh (d : Dev) : Dev := (d.modBoot fun b => { b with perst := false }).dropSrcs fun s => s.bit = 5

/-- PCIE_LINK_DOWN while PD2 is released. -/
def Dev.linkDown (d : Dev) : Dev := if d.runs 2 then d.assertSrc 6 4 (some (d.now + 10000)) else d

/-- WATCHDOG_EXPIRY (R380): the sequencer has not refreshed for 100 ms, which is no sooner than that after its release; suspended in FROZEN.
When the sequencer refreshes is its own matter: the command says that it has not. -/
def Dev.watchdog (d : Dev) : Dev :=
  if d.boot.por || !d.runs 1 || d.mode = .frozen || decide (d.now < d.boot.dogAt + 1000000 * d.get F.RPC_WDOG_MS) then d
  else (d.addSat F.RPC_WDOG_BITES 1).wideReset 11 false (some (d.now + 10000))

/-- CAUSE_CLEAR (R373). -/
def Dev.causeClear (d : Dev) (m : Word) : Dev := d.wr Reg.RPC_CAUSE (d.rd Reg.RPC_CAUSE &&& ~~~(d.clears Reg.RPC_CAUSE m))

/-- VIO_LOSS, VIO_RECOVER (R367, R450): the bank's bit, and a report of the banks missing. Banks A, B, C are bits 0 to 2. -/
def Dev.vioLoss (d : Dev) (bank : Nat) : Dev :=
  let d := d.set ⟨Reg.RPC_STATUS, 20 + bank, 1⟩ 0
  let d := d.emit (.pin 100 bank false)
  let d : Dev := if bank = 1 then { d with stb := updAll d.stb fun _ s => { s with high := false } } else d
  if d.live 1 && d.boot.released then d.raise Ev.BOOT_VIO_MISSING 15 none [0, 7 - d.get F.RPC_STATUS_VIO] else d

def Dev.vioRecover (d : Dev) (bank : Nat) : Dev := (d.set ⟨Reg.RPC_STATUS, 20 + bank, 1⟩ 1).emit (.pin 100 bank true)

end Sys2Proof.Machine
end

