-- ==== Sys2Proof/Machine/Thm.lean ====
section
/-!
DEFINITION. Temperature (R391 to R403): readings, sampling, limits, the prediction, the trip, head temperatures.
-/
namespace Sys2Proof.Machine

/-- A reading in 1/16 °C from a count and the sensor's two factory counts (R391). -/
def reading (c c30 c110 : Nat) : Int :=
  let den : Int := (c110 : Int) - c30
  let num : Int := 480 * den + 1280 * ((c : Int) - c30)
  if den < 0 then roundDiv (-num) den.natAbs else roundDiv num den.natAbs

/-- A count that marks a sensor broken (R392). -/
def brokenCount (c c30 : Nat) : Bool := decide (2 * c < c30) || decide (2 * c30 < c)

def Dev.modThm (d : Dev) (f : Thm → Thm) : Dev := { d with thm := f d.thm }

/-- One sensor's count: COUNT, the reading, and BROKEN, which stays until power-on or a DEVICE reset (DEDUCED, log 70). An excluded sensor that
is broken is reported once, by PD1 (R393). -/
def Dev.takeCount (d : Dev) (n : Fin 16) (c : Nat) : Dev :=
  let c30 := d.get (F.THM_TS_TRIM_C30 n)
  let was := d.bit (F.THM_TS_TEMP_BROKEN n)
  let broken := was || brokenCount c c30
  let excl := Nat.testBit (d.get F.THM_EXCL_EXCL) n
  let t := if broken then 2400 else reading c c30 (d.get (F.THM_TS_TRIM_C110 n))
  let d := ((d.set (F.THM_TS_COUNT_COUNT n) c).setI (F.THM_TS_TEMP_TEMP n) t).setB (F.THM_TS_TEMP_BROKEN n) broken
  let d := (d.setB (F.THM_TS_TEMP_EXCL n) excl).setB ⟨Reg.THM_BROKEN, n, 1⟩ broken
  if broken && excl && !Nat.testBit d.thm.told n && d.live 1 then
    ({ d with thm := { d.thm with told := d.thm.told + 2 ^ n.val } } : Dev).raise Ev.THM_SENSOR_BROKEN 15 none [n.val, unsext 16 t]
  else d

def Dev.tsTemp (d : Dev) (n : Fin 16) : Int := d.getI (F.THM_TS_TEMP_TEMP n)

/-- The sensors that take part (R391 to R393). -/
def Dev.included (d : Dev) : List (Fin 16) :=
  (List.finRange 16).filter fun (n : Fin 16) =>
    !Nat.testBit (d.get F.THM_EXCL_EXCL) n && (d.thm.exclKnown || !d.bit (F.THM_TS_TEMP_BROKEN n))

/-- The hottest of the sensors that take part: the lowest numbered of the highest reading. -/
def Dev.hottest (d : Dev) : Option (Fin 16) :=
  d.included.foldl (fun m n => match m with | none => some n | some x => if d.tsTemp x < d.tsTemp n then some n else m) none

/-- An event of a limit: not written while PD1 does not run (R400). -/
def Dev.thmEvent (d : Dev) (k : EvKind) (n : Nat) (t : Int) : Dev := if d.live 1 then d.raise k 15 none [n, unsext 16 t] else d

/-- A trip (R398): reason 1 limit, 2 prediction, 3 broken sensor. The device is held until 100 good samples. -/
def Dev.trip (d : Dev) (reason n : Nat) (t : Int) : Dev :=
  let d := ((d.set F.THM_LAST_TRIP_REASON reason).set F.THM_LAST_TRIP_SENSOR n).setI F.THM_LAST_TRIP_TEMP t
  ((d.addSat F.THM_TRIPS_TRIPS 1).modThm fun x => { x with cool := 0, tripped := true, report := true }).wideReset 13 false none

/-- MACHINE_SLOW shows THROT once it is driven (R396). -/
def Dev.showSlow (d : Dev) : Dev := if d.boot.slow then d.emit (.pin 101 0 (d.bit F.THM_STATUS_THROT)) else d

/-- The limits at the end of a sample (R395, R400), but for the trip. THM_STOP is written as the orderly stop starts (R399, step 1). -/
def Dev.limits (d : Dev) (n : Nat) (t : Int) : Dev :=
  let d := if 1600 ≤ t && !d.bit F.THM_STATUS_WARN then (d.set F.THM_STATUS_WARN 1).thmEvent Ev.THM_WARN n t
           else if t < 1568 && d.bit F.THM_STATUS_WARN then (d.set F.THM_STATUS_WARN 0).thmEvent Ev.THM_CLEAR n t else d
  let d := if 1680 ≤ t && !d.bit F.THM_STATUS_THROT then ((d.set F.THM_STATUS_THROT 1).thmEvent Ev.THM_THROTTLE n t).showSlow
           else if t < 1648 && d.bit F.THM_STATUS_THROT then (d.set F.THM_STATUS_THROT 0).showSlow else d
  let d := if 1840 ≤ t then d.set F.THM_STATUS_STOP 1 else d
  if 1840 ≤ t && !d.modeIn [.shutdown, .sleep, .frozen] && d.live 1 && !d.stopping then
    let s := d.devTrans .shutdown 0x05
    if s.stopping then (s.addSat F.THM_TRIPS_STOPS 1).thmEvent Ev.THM_STOP n t else s
  else d

/-- A sample of all sensors (R394 to R398). `extra` is one taken by THM_CTL.SAMPLE: it keeps the interval, and neither counts for it nor
forms a rate (DESIGN CHOICE, log 70). -/
def Dev.sampleAll (d : Dev) (counts : List Nat) (extra : Bool) : Dev :=
  let d := d.modThm fun x => { x with at_ := some d.now }
  let d := (List.finRange 16).foldl (fun (d : Dev) (n : Fin 16) => d.takeCount n (counts.getD n.val 0)) d
  match d.hottest with
  | none => if extra then d else d.modThm fun x => { x with nextAt := d.now + 10000000 }
  | some h =>
    let t := d.tsTemp h
    let d := (d.set F.THM_STATUS_HOT h.val).setI F.THM_STATUS_TMAX t
    let d := if d.getI F.THM_PEAK_TEMP < t then (d.setI F.THM_PEAK_TEMP t).set F.THM_PEAK_SENSOR h.val else d
    let wasFast := d.bit F.THM_STATUS_FAST
    let fast := if wasFast && !extra then (t :: d.thm.fast).take 5 else d.thm.fast
    let rate : Option Int := if wasFast && !extra && fast.length = 5 then some (t - fast.getD 4 0) else none
    let below := if t < 1488 then d.thm.below + 1 else 0
    let d := if extra then d
      else
        let d := d.modThm fun x => { x with below := below, fast := fast }
        let d := match rate with | some r => d.setI F.THM_RATE_RATE r | none => d
        let d := if 1520 ≤ t then d.set F.THM_STATUS_FAST 1
                 else if wasFast && 16 ≤ below then (d.set F.THM_STATUS_FAST 0).modThm fun x => { x with fast := [] } else d
        d.modThm fun x => { x with nextAt := d.now + (if d.bit F.THM_STATUS_FAST then 250000 else 10000000) }
    if d.thm.tripped then
      let good := d.included.all fun n => !d.bit (F.THM_TS_TEMP_BROKEN n) && decide (d.tsTemp n ≤ 1520)
      let cool := if good then d.thm.cool + 1 else 0
      let d := d.modThm fun x => { x with cool := cool }
      let d := d.limits h.val t
      if 100 ≤ cool then (d.modThm fun x => { x with tripped := false }).dropSrcs fun s => s.bit = 13 else d
    else if 2000 ≤ t then d.trip (if d.bit (F.THM_TS_TEMP_BROKEN h) then 3 else 1) h.val t
    else
      match rate with
      | some r => if 2000 ≤ t + 2 * r then d.trip 2 h.val t else d.limits h.val t
      | none => d.limits h.val t

/-- A sample is due at its interval (R394). -/
def Dev.sampleDue (d : Dev) : Bool := decide (d.thm.nextAt ≤ d.now)

/-- THERMAL_SAMPLE: at its interval. -/
def Dev.thermalSample (d : Dev) (counts : List Nat) : Dev := if d.sampleDue then d.sampleAll counts false else d

/-- THM_SAMPLE: an extra sample, unless the cycle has one of its own, taken or to come (R400). -/
def Dev.thmSample (d : Dev) (counts : List Nat) (waits : Bool) : Dev :=
  if d.thm.at_ = some d.now || (waits && d.sampleDue) then d else d.sampleAll counts true

/-- PEAK_CLR (R402). -/
def Dev.peakClr (d : Dev) : Dev := d.clearKept Reg.THM_PEAK

/-- The highest head temperature known, after a STATUS frame (R401). -/
def Dev.headTemps (d : Dev) : Dev :=
  let known := d.img.eps.filterMap fun e =>
    let v := d.slotOf e.ep
    let t := slotBits v 40 8
    if Nat.testBit v.toNat 63 && t ≠ 0xFF then some (e.ep, t) else none
  match known with
  | [] => d.set F.THM_HEAD_VALID 0
  | k :: ks =>
    let m := ks.foldl (fun a x => if a.2 < x.2 then x else a) k
    let d := ((d.set F.THM_HEAD_VALID 1).set F.THM_HEAD_EP m.1).set F.THM_HEAD_TEMP m.2
    let w := d.get F.THM_HEAD_WARN_TEMP
    if w = 0xFF then d
    else if w ≤ m.2 && !d.thm.hot then (d.modThm fun x => { x with hot := true }).raise Ev.THM_HEAD_HOT 15 (some m.1) [0, m.2 * 16, m.1]
    else if m.2 + 5 ≤ w then d.modThm fun x => { x with hot := false }
    else d

end Sys2Proof.Machine
end

