-- ==== Sys2Proof/Machine/Host.lean ====
section
/-!
DEFINITION. The host interface (R422 to R440): events and their ring, interrupts, egress, the BAR2 window, PCIe and network links.
-/
namespace Sys2Proof.Machine

/-- PD2 answers and the host lets the function work: not D3hot, Bus Master Enable set (R424). -/
def Dev.hostOpen (d : Dev) : Bool := d.live 2 && !d.bit F.HST_STATUS_D3 && d.bit F.HST_STATUS_BME

/-! ### The management queue and the ring (R429, R430) -/

def Dev.showQueued (d : Dev) : Dev := d.set F.SYS_EVT_LOST_QUEUED d.evq.q.length

/-- EVENT_RAISE: the oldest record raised takes a place of its class, or is lost and counted. Eight places are kept for FATAL records. -/
def Dev.eventRaise (d : Dev) : Dev :=
  match d.raised with
  | [] => d
  | e :: r =>
    let d : Dev := { d with raised := r }
    if d.evq.q.length < (if e.cls = 3 then 64 else 56) then ({ d with evq := { d.evq with q := d.evq.q ++ [e] } } : Dev).showQueued
    else ({ d with evq := { d.evq with lost := d.evq.lost + 1 } } : Dev).addSat F.SYS_EVT_LOST_LOST 1

/-- The sixteen words of a record (R9). -/
def Event.words (e : Event) (seq : Nat) : List Nat :=
  [e.code * 2 ^ 16 + e.cls * 2 ^ 14 + e.bar % 16 * 2 ^ 8 + e.code / 2 ^ 8 % 32,
   (match e.ep with | some x => 2 ^ 31 + x % 1024 * 2 ^ 16 | none => 0) + seq % 2 ^ 16,
   e.web % 2 ^ 32, e.web / 2 ^ 32 % 2 ^ 16, e.time.sec % 2 ^ 32, e.time.frac * 2 ^ 16 + e.time.sec / 2 ^ 32 % 2 ^ 16, e.time.ns, e.count]
    ++ (List.range 8).map fun i => e.detail.getD i 0 % 2 ^ 32

/-- SYS_EVT_SIZE as it acts (R95, R429). -/
def Dev.evtSize (d : Dev) : Nat := ringSize 16 65536 (d.get F.SYS_EVT_SIZE_ENTRIES)

def Dev.evtBase (d : Dev) : Nat := d.effPair Reg.SYS_EVT_BASE_LO Reg.SYS_EVT_BASE_HI / 64 * 64

/-- The ring's vector: at most once per MOD µs, a FATAL record at once (R429). -/
def Dev.evtSignal (d : Dev) (fatal : Bool) : Dev :=
  let mod_ := d.get F.SYS_EVT_CFG_MOD * 1000
  let free := match d.evq.sigAt with | some t => decide (t + mod_ ≤ d.now) | none => true
  if fatal || free then ({ d with evq := { d.evq with sigAt := some d.now, due := false } } : Dev).signal (d.get F.SYS_EVT_CFG_VEC)
  else { d with evq := { d.evq with due := true } }

/-- The ring takes a record now. -/
def Dev.ringOpen (d : Dev) : Bool :=
  d.bit F.SYS_EVT_CFG_EN && decide ((d.get F.SYS_EVT_HEAD_INDEX + 1) % d.evtSize ≠ d.get F.SYS_EVT_TAIL_INDEX % d.evtSize) &&
    (if d.bit F.SYS_EVT_CFG_LOC then d.live 4 && d.memTakes else d.hostOpen)

def Dev.evtTailWrite (d : Dev) (v : Word) : Dev := d.set F.SYS_EVT_TAIL_INDEX v.toNat

/-- EVENT_WRITE: the queue's oldest record goes into the ring under its SEQ; a place freed goes first to an EVT_LOST record. A write of TAIL in
the same cycle frees its places first (R429). -/
def Dev.eventWrite (d : Dev) (tail : Option Word) : Dev :=
  let d := match tail with | some v => d.evtTailWrite v | none => d
  match d.evq.q with
  | [] => d
  | e :: r =>
    if !d.ringOpen then d
    else
      let bs := (e.words d.evq.seq).flatMap (bytesLE 4)
      let head := d.get F.SYS_EVT_HEAD_INDEX
      let a := d.evtBase + 64 * (head % d.evtSize)
      let d := if d.bit F.SYS_EVT_CFG_LOC then d.storeData (a % 2 ^ 35) bs else d.emit (.host a bs)
      let d := d.set F.SYS_EVT_HEAD_INDEX ((head + 1) % d.evtSize)
      let q := if d.evq.lost = 0 then r else d.event Ev.EVT_LOST 15 none [0, d.evq.lost] :: r
      let d : Dev := { d with evq := { d.evq with q := q, lost := 0, seq := (d.evq.seq + 1) % 2 ^ 16 } }
      d.showQueued.evtSignal (e.cls = 3)

/-- EVT_MOD_EXPIRY. -/
def Dev.evtModExpiry (d : Dev) : Dev :=
  match d.evq.sigAt with
  | some t => if d.evq.due && decide (t + d.get F.SYS_EVT_CFG_MOD * 1000 ≤ d.now) then d.evtSignal false else d
  | none => d

def Dev.hstRefused (d : Dev) (off : Nat) : Dev := d.raise Ev.HST_WRITE_REFUSED 15 none [0, off]

/-- EVT_CFG_WRITE: with EN = 1 the LOC field changes nothing, and a different one is refused. -/
def Dev.evtCfgWrite (d : Dev) (v : Word) : Dev :=
  let d' := ((d.set F.SYS_EVT_CFG_EN (F.SYS_EVT_CFG_EN.of v)).set F.SYS_EVT_CFG_VEC (F.SYS_EVT_CFG_VEC.of v)).set F.SYS_EVT_CFG_MOD (F.SYS_EVT_CFG_MOD.of v)
  if d.bit F.SYS_EVT_CFG_EN then
    if F.SYS_EVT_CFG_LOC.of v = d.get F.SYS_EVT_CFG_LOC then d' else d'.hstRefused Reg.SYS_EVT_CFG
  else d'.set F.SYS_EVT_CFG_LOC (F.SYS_EVT_CFG_LOC.of v)

/-- EVT_RING_WRITE: SYS_EVT_BASE_LO, _HI, SYS_EVT_SIZE; discarded while EN = 1. The base acts at its high word (R6). -/
def Dev.evtRingWrite (d : Dev) (which : Fin 3) (v : Word) : Dev :=
  let a := Reg.SYS_EVT_BASE_LO + 4 * which.val
  if d.bit F.SYS_EVT_CFG_EN then d.hstRefused a
  else
    match which.val with
    | 0 => d.wr a v
    | 1 => ((d.wr a v).effWr Reg.SYS_EVT_BASE_LO (d.rd Reg.SYS_EVT_BASE_LO)).effWr a v
    | _ => d.set F.SYS_EVT_SIZE_ENTRIES v.toNat

/-! ### Interrupts (R431) -/

/-- The pending field of a vector, and a field at its place in another register of that pair. -/
def vecFld (lo : Nat) (v : Nat) : Fld := ⟨lo + 4 * (v / 32 % 2), v % 32, 1⟩

def Dev.vecOpen (d : Dev) (v : Nat) : Bool := d.hostOpen && !d.hst.fmask && !d.bit (F.HST_MSIX_CTRL_MASK v)

def Dev.setHeld (d : Dev) (l : List Nat) : Dev :=
  let d : Dev := { d with hst := { d.hst with held := l } }
  let w (k : Nat) : Nat := (l.filter fun v => v / 32 = k).foldl (fun a v => a ||| 2 ^ (v % 32)) 0
  (d.wr (Reg.HST_PBA 0) (BitVec.ofNat 32 (w 0))).wr (Reg.HST_PBA 1) (BitVec.ofNat 32 (w 1))

/-- The vectors signalled in the present cycle. -/
def Dev.sigNow (d : Dev) : List Nat := if d.hst.cycle.1 = d.now then d.hst.cycle.2 else []

/-- INTERRUPT_SIGNAL: the oldest signal sets its pending bit and sends or holds its message; lost while PD2 is held in reset. -/
def Dev.interruptSignal (d : Dev) : Dev :=
  match d.sigs with
  | [] => d
  | v :: r =>
    let v := v % 64
    let d : Dev := { d with sigs := r }
    if !d.live 2 then d
    else
      let d : Dev := { d with hst := { d.hst with cycle := (d.now, v :: d.sigNow) } }
      let newly := !d.bit (vecFld Reg.HST_INT_PEND_LO v)
      let d := d.set (vecFld Reg.HST_INT_PEND_LO v) 1
      let d : Dev := if newly && d.effBit (vecFld Reg.HST_RT_NOTIFY_LO v) then { d with rt := { d.rt with fresh := true } } else d
      if !d.bit F.HST_STATUS_MSIX then d
      else if d.vecOpen v then d.emit (.msix v)
      else if d.hst.held.contains v then d else d.setHeld (d.hst.held ++ [v])

/-- MSIX_RELEASE: held messages whose condition has ended and whose bit is still set are sent. -/
def Dev.msixRelease (d : Dev) : Dev :=
  let go := d.hst.held.filter fun v => d.vecOpen v
  let d := (go.filter fun v => d.bit (vecFld Reg.HST_INT_PEND_LO v)).foldl (fun (d : Dev) v => d.emit (.msix v)) d
  d.setHeld (d.hst.held.filter fun v => !go.contains v)

/-- The bits of a half of HST_INT_PEND that the device sets in the present cycle: they stay set (R2, R431). -/
def Dev.sigBits (d : Dev) (hi : Bool) : Word :=
  BitVec.ofNat 32 ((d.sigNow.filter fun v => v / 32 = hi.toNat).foldl (fun (a : Nat) v => a ||| 2 ^ (v % 32)) 0)

/-- INT_PEND_CLEAR: cleared bits cancel held messages. -/
def Dev.intPendClear (d : Dev) (hi : Bool) (m : Word) : Dev :=
  let a := if hi then Reg.HST_INT_PEND_HI else Reg.HST_INT_PEND_LO
  let m := d.clears a m &&& ~~~d.sigBits hi
  let d := d.wr a (d.rd a &&& ~~~m)
  d.setHeld (d.hst.held.filter fun v => !(v / 32 = hi.toNat && m.getLsbD (v % 32)))

/-- The INTn ball is asserted (low): a pending vector is enabled. -/
def Dev.intn (d : Dev) : Bool :=
  d.live 2 && decide ((d.rd Reg.HST_INT_PEND_LO &&& d.effRd Reg.HST_INT_EN_LO) ≠ 0 ∨ (d.rd Reg.HST_INT_PEND_HI &&& d.effRd Reg.HST_INT_EN_HI) ≠ 0)

/-! ### Egress (R427, R428) -/

def Dev.egrSize (d : Dev) (e : Fin 2) : Nat := ringSize 4 32768 (d.get (F.HST_EGR_SIZE_ENTRIES e))
def Dev.egrHead (d : Dev) (e : Fin 2) : Nat := d.get (F.HST_EGR_HEAD_INDEX e) % d.egrSize e
def Dev.egrFree (d : Dev) (e : Fin 2) : Nat := (d.get (F.HST_EGR_TAIL_INDEX e) + d.egrSize e - d.egrHead e) % d.egrSize e

def descAddr (w : List Nat) : Nat := w.getD 0 0 + w.getD 1 0 * 2 ^ 32
def descSize (w : List Nat) : Nat := w.getD 2 0 % 2 ^ 24
def descGood (w : List Nat) : Bool := descSize w % 64 = 0 && decide (64 ≤ descSize w) && decide (descSize w ≤ 16777152) && descAddr w % 64 = 0

/-- How many of the free descriptors a record of `n` bytes takes: none where they cannot hold it, or the index of the first that breaks
R427 among those it would take. -/
def takes : List (List Nat) → Nat → Nat → Except Nat (Option Nat)
  | [], _, _ => .ok none
  | w :: r, n, k => if !descGood w then .error k else if n ≤ descSize w then .ok (some (k + 1)) else takes r (n - descSize w) (k + 1)

/-- A descriptor is completed: words 0x10 to 0x18 (R427). -/
def Dev.egrComplete (d : Dev) (e : Fin 2) (w : List Nat) (word4 bytes rseq : Nat) : Dev :=
  let a := d.effPair (Reg.HST_EGR_BASE_LO e) (Reg.HST_EGR_BASE_HI e) / 64 * 64 + 32 * d.egrHead e
  let d := d.emit (.host (a + 0x10) ([2 ^ 31 + word4, bytes, rseq].flatMap (bytesLE 4)))
  let d := d.set (F.HST_EGR_HEAD_INDEX e) ((d.egrHead e + 1) % d.egrSize e)
  if Nat.testBit (w.getD 2 0) 31 then d.signal (d.get (F.HST_EGR_CTL_VEC e)) else d

/-- Write a record into its buffers, in order. -/
def Dev.egrFill (d : Dev) (e : Fin 2) (src rseq : Nat) : List (List Nat) → List (BitVec 8) → Dev
  | [], _ => d
  | w :: r, bs =>
    let now_ := bs.take (descSize w)
    let d := d.emit (.host (descAddr w) now_)
    let d := d.egrComplete e w ((if r.isEmpty then 0 else 2 ^ 30) + src * 2 ^ 16) now_.length rseq
    d.egrFill e src rseq r (bs.drop (descSize w))

/-- A record is dropped: the channel and the source count it (R258, R262, R428). -/
def Dev.egrDrop (d : Dev) (e : Fin 2) (r : EgrRec) : Dev :=
  let d := if d.live 2 then d.addSat (F.HST_EGR_DROP_RECORDS e) 1 else d
  if r.src = 0x10 then (d.addSat F.VIS_STAT_STATUS_LOST 1).raiseC Ev.VIS_STAT_LOST 0 15 none [0] 1 []
  else (d.addSat (F.VIS_VS_STATUS_DROP r.src) 1).raiseC Ev.VIS_STREAM_DROP r.src 15 none [r.src] 1 []

/-- The descriptor at a distance from HEAD is completed with ERR 1, and the channel stops (R428). -/
def Dev.egrBad (d : Dev) (e : Fin 2) (k : Nat) : Dev :=
  let a := d.effPair (Reg.HST_EGR_BASE_LO e) (Reg.HST_EGR_BASE_HI e) / 64 * 64 + 32 * ((d.egrHead e + k) % d.egrSize e)
  let d := d.emit (.host (a + 0x10) ([2 ^ 31 + 2 ^ 24, 0, d.egr[e].rseq].flatMap (bytesLE 4)))
  ((d.set (F.HST_EGR_STATUS_STOPPED e) 1).set (F.HST_EGR_STATUS_RUN e) 0).set (F.HST_EGR_STATUS_ERR e) 1 |>.raise Ev.HST_EGR_ERROR 15 none [e.val]

/-- EGRESS_RECORD: the oldest record that waits for a channel. `descs` are the free descriptors as host memory holds them, from HEAD on; a
write of TAIL in the same cycle has freed its buffers (R428). In D3hot and without Bus Master Enable nothing starts (R424). A bad descriptor
that a record would only reach beyond good ones leaves too little room for it: the record is dropped whole, and the channel stops (log 51). -/
def Dev.egressRecord (d : Dev) (e : Fin 2) (descs : List (List Nat)) (tail : Option Word) : Dev :=
  let d := match tail with | some v => d.set (F.HST_EGR_TAIL_INDEX e) v.toNat | none => d
  match d.egress[e] with
  | [] => d
  | r :: rest =>
    let gone (d : Dev) : Dev := { d with egress := d.egress.set e rest }
    if d.live 2 && !d.hostOpen then d
    else if !d.live 2 || !d.bit (F.HST_EGR_CTL_EN e) || d.bit (F.HST_EGR_STATUS_STOPPED e) then (gone d).egrDrop e r
    else
      let free := (descs.take (d.egrFree e))
      match takes free r.bytes.length 0 with
      | .ok none => (gone d).egrDrop e r
      | .ok (some k) =>
        let q := d.egr[e].rseq
        let d : Dev := { (gone d) with egr := d.egr.set e { rseq := (q + 1) % 2 ^ 32 } }
        d.egrFill e r.src q (free.take k) r.bytes
      | .error 0 =>
        let d := (d.egrBad e 0).set (F.HST_EGR_HEAD_INDEX e) ((d.egrHead e + 1) % d.egrSize e)
        if Nat.testBit ((free.headD []).getD 2 0) 31 then d.signal (d.get (F.HST_EGR_CTL_VEC e)) else d
      | .error k => ((gone d).egrDrop e r).egrBad e k

/-- EGRESS_RESTART: a write of CTL. -/
def Dev.egressCtl (d : Dev) (e : Fin 2) (v : Word) : Dev :=
  let d := (d.set (F.HST_EGR_CTL_VEC e) ((F.HST_EGR_CTL_VEC e).of v)).set (F.HST_EGR_CTL_EN e) ((F.HST_EGR_CTL_EN e).of v)
  if v.getLsbD 31 then ((d.set (F.HST_EGR_STATUS_STOPPED e) 0).set (F.HST_EGR_STATUS_ERR e) 0).set (F.HST_EGR_STATUS_RUN e) 1
  else d.set (F.HST_EGR_STATUS_RUN e) 0

/-! ### The BAR2 window (R426) -/

def Dev.winAddr (d : Dev) (off : Nat) : Nat := d.effPair Reg.HST_WIN_BASE_LO Reg.HST_WIN_BASE_HI / 2 ^ 20 * 2 ^ 20 % 2 ^ 35 + off

def Dev.winRange (d : Dev) (a : Nat) : Dev :=
  (d.addSat F.HST_ERR_RANGE 1).raiseC Ev.HST_WIN_RANGE 0 15 none [0, a % 2 ^ 32, a / 2 ^ 32] 1 []

/-- Bytes of the job store as a host read sees them: zeros in poisoned units (R311). -/
def Dev.storeRead (d : Dev) (a n : Nat) : List (BitVec 8) :=
  (List.range n).map fun i => if d.poisonedAt (a + i) then 0 else d.byte (a + i)

/-- A BAR2 access: outside the job store it counts as a range error, and where PD4 does not serve traffic it acts as R16. -/
def Dev.window (d : Dev) (off n : Nat) (out : Dev → Dev) (f : Dev → Nat → Dev) : Dev :=
  if !d.live 1 || !d.live 2 || d.frz.isSome || d.bit F.HST_STATUS_D3 then d
  else
    let a := d.winAddr off
    if !d.live 4 || !d.memTakes then out (d.domainOff 15)
    else if d.cap < a + n then out (d.winRange a)
    else f d a

def Dev.bar2Read (d : Dev) (off n : Nat) : Dev :=
  d.window off n (fun d => d.emit (.read off (List.replicate n 0))) fun d a => d.emit (.read off (d.storeRead a n))

def Dev.bar2Write (d : Dev) (off : Nat) (bs : List (BitVec 8)) : Dev := d.window off bs.length id fun d a => d.storeData a bs

/-! ### Links (R423, R424, R439) -/

def Dev.hstLinkUp (d : Dev) (speed width : Nat) : Dev :=
  (((d.set F.HST_STATUS_SPEED speed).set F.HST_STATUS_WIDTH width).set F.HST_STATUS_L0 1).raise Ev.HST_LINK_UP 15 none [0, speed, width]

def Dev.powerState (d : Dev) (d3 bme msix fmask : Bool) : Dev :=
  let d := ((d.setB F.HST_STATUS_D3 d3).setB F.HST_STATUS_BME bme).setB F.HST_STATUS_MSIX msix
  { d with hst := { d.hst with fmask := fmask } }

def Dev.netLink (d : Dev) (p : Fin 2) (up : Bool) : Dev := d.setB (F.NET_P_STATUS_UP p) up

end Sys2Proof.Machine
end

