-- ==== Sys2Proof/Machine/Commit.lean ====
section
/-!
DEFINITION. The configuration commit (spec/04_jobs.md, R112; spec/03_line_timing.md, R79, R85; spec/07_rows_and_nozzles.md, R161).
-/
namespace Sys2Proof.Machine

/-- A claim on a resource: its kind and index (R118), and the register that makes it. -/
structure Claim where
  kind : Nat
  index : Nat
  reg : Nat
  deriving DecidableEq, Repr

/-- Block index [28:24] and register offset [19:0] of a claimant (R118). -/
def Claim.claimant (c : Claim) : Nat := c.reg / 0x100000 * 2 ^ 24 + c.reg % 0x100000

/-- The claim a compare channel's TARGET makes (R85); the place of a witness-band start carries its bar. -/
def cmpClaim (n target pin bar : Nat) : List Claim :=
  if target = 1 then [⟨1, pin, Reg.LTC_CMP_CFG n⟩]
  else if 2 ≤ target ∧ target ≤ 6 then [⟨3, target, Reg.LTC_CMP_CFG n⟩]
  else if target = 7 then [⟨3, 7 + 16 * bar, Reg.LTC_CMP_CFG n⟩]
  else []

/-- Every claim, in order of block index and offset, with the configuration fields that `f` reads (R85, R261, R273, R292). -/
def Dev.claims (d : Dev) (f : Fld → Nat) : List Claim :=
  ((List.range 32).flatMap fun n =>
      cmpClaim n (f (F.LTC_CMP_CFG_TARGET n)) (f (F.LTC_CMP_CFG_PIN n)) (f (F.LTC_CMP_CFG_BAR n)))
    ++ (if d.bit F.VIS_STAT_CFG_ENC then [⟨5, 0, Reg.VIS_STAT_CFG⟩] else [])
    ++ (if f F.DEN_CFG_EN ≠ 0 then
          (if f F.DEN_CFG_TRIG_EN ≠ 0 then [⟨2, f F.DEN_CFG_TRIG_CMP, Reg.DEN_CFG⟩] else []) ++ [⟨5, 0, Reg.DEN_CFG⟩] else [])
    ++ (if f F.LMP_CFG_EN ≠ 0 then [⟨2, f F.LMP_CFG_LATCH_CMP, Reg.LMP_CFG⟩] else [])

/-- The first claim of a list whose resource an earlier one holds, with that one. -/
def firstConflict : List Claim → List Claim → Option (Claim × Claim)
  | _, [] => none
  | seen, c :: r =>
    match seen.find? fun x => x.kind = c.kind && x.index = c.index with
    | some x => some (x, c)
    | none => firstConflict (seen ++ [c]) r

/-- The conflict of a commit: claims in effect rank first (R112). -/
def Dev.conflict (d : Dev) : Option (Claim × Claim) :=
  let old := d.claims d.effGet
  let new := d.claims d.get
  firstConflict [] ((new.filter fun c => old.contains c) ++ new.filter fun c => !old.contains c)

/-- The watchdog of an output as written: 10 ns units, held within 10 to 50,000 (R79). -/
def Dev.wdogStaged (d : Dev) (n : Nat) : Nat := clampN 10 50000 (d.get (F.LTC_STB_CFG_WDOG n))

/-- The first output whose written configuration leaves a width of its bar, staged or in effect, above its watchdog (R79). -/
def Dev.wdogOutput (d : Dev) : Option Nat :=
  (List.range 8).find? fun n =>
    let b := d.get (F.LTC_STB_CFG_BAR n)
    d.bit (F.LTC_STB_CFG_EN n) &&
      decide (d.wdogStaged n < max (d.get (F.LTC_BAR_STROBE_WIDTH b)) (d.effGet (F.LTC_BAR_STROBE_WIDTH b)))

/-- The virtual place that holds the low word of SCR_GAIN_BASE as the last write of its high word took it (R6). -/
def gainLoAt : Nat := 0x10FFFFFC

/-- One configuration register takes effect; of a compare channel's CFG the routing, TARGET with PIN and BAR (R85). -/
def Dev.cfgEffect (d : Dev) (a : Nat) : Dev :=
  match cmpCfgReg a with
  | some n =>
    [F.LTC_CMP_CFG_TARGET n, F.LTC_CMP_CFG_PIN n, F.LTC_CMP_CFG_BAR n].foldl (fun (d : Dev) f => d.effSet f (d.get f)) d
  | none => if a = Reg.SCR_GAIN_BASE_LO then d.effWr a (d.effRd gainLoAt) else d.effWr a (d.rd a)

/-- The mask patterns (bar and pattern) that a commit changes. -/
def Dev.masksChanged (d : Dev) : List (Fin 12 × Nat) :=
  allBars.flatMap fun b => ((List.range 8).filter fun p =>
    d.job.cfgWritten.any fun a => isMaskWord a &&
      (List.range 128).any fun i => a = Reg.NOZ_MASK_WIN (8 * b.val + p) i && d.rd a ≠ d.effRd a).map fun p => (b, p)

/-- A pattern goes to every endpoint of its bar (R161). -/
def Dev.sendPattern (d : Dev) (b : Fin 12) (p : Nat) : Dev :=
  d.broadcast b (epMask + 128 * p) none ((List.range 128).map fun i => (d.effRd (Reg.NOZ_MASK_WIN (8 * b.val + p) i)).toNat)

/-- The frame carries a mask pattern. -/
def isPattern : Sent → Bool
  | .cmd _ true _ _ _ reg _ _ => decide (epMask ≤ reg ∧ reg < epMask + 1024)
  | _ => false

/-- No pattern awaits an acknowledgement. -/
def Dev.patternsAcked (d : Dev) : Bool :=
  d.zxl.lanes.toList.all fun l => (l.pushes ++ l.waitQ).all fun p => !isPattern p.frame || p.eps.isEmpty

/-- What units do when their configuration has taken effect: camera ports that changed start afresh, lamp modules are configured,
reservations, the clock and the duplex state are shown. -/
def Dev.cfgHooks (d : Dev) (ws : List Nat) (portsWere : List Word) : Dev :=
  let d := (List.finRange 4).foldl (fun (d : Dev) (p : Fin 4) =>
    let was := portsWere.getD p 0
    if was = d.effRd (Reg.VIS_CAM_CFG p) then d else d.portCfg p ((F.VIS_CAM_CFG_EN p).of was ≠ 0)) d
  let d := if d.busDriven then d.lampsOn.foldl Dev.lampConfig d else d
  let d := if ws.any (fun a => a / 0x100000 = 15) then d.showRes else d
  let d := if ws.any (fun a => a / 0x100000 = 17) then d.ptpConfig else d
  if ws.contains Reg.DPX_CFG then d.set F.DPX_STATUS_STATE (if d.role = 1 then 4 else 0) else d

/-- Every written configuration field takes effect (R112). -/
def Dev.cfgTake (d : Dev) : Dev :=
  let ws := d.job.cfgWritten
  let masks := d.masksChanged
  let nozWs := (ws.filter isMaskWord).map fun a => (a, d.rd a)
  let portsWere := (List.range 4).map fun p => d.effRd (Reg.VIS_CAM_CFG p)
  let d := ws.foldl Dev.cfgEffect d
  let d : Dev := { d with job := { d.job with cfgWritten := [] } }
  let d := (d.set F.SYS_COMMIT_STATUS_CFG_PEND 0).set F.SYS_COMMIT_STATUS_REASON 0
  let d := d.cfgHooks ws portsWere
  let d := if nozWs.isEmpty then d else d.nozRecord nozWs
  if masks.isEmpty then d.set F.SYS_COMMIT_STATUS_RESULT 2
  else
    let d := masks.foldl (fun d m => d.sendPattern m.1 m.2) d
    ({ d with job := { d.job with cfgWait := true } } : Dev).set F.SYS_COMMIT_STATUS_RESULT 0

/-- CONFIG_COMMIT: a pulse of SYS_COMMIT.CFG (R112). -/
def Dev.configCommit (d : Dev) : Dev :=
  if !d.modeIn [.idle, .calibrate] then d.commitRefused 1 1
  else
    match d.conflict with
    | some (x, y) => (d.raise Ev.CFG_CONFLICT 15 none [15, x.kind, x.index, x.claimant, y.claimant]).commitRefused 4 1
    | none =>
      match d.wdogOutput with
      | some n => (d.commitRefused 3 1).ltcRefused n (Reg.LTC_STB_CFG n % 0x100000)
      | none => d.cfgTake

/-- CONFIG_COMMIT_DONE: every endpoint has acknowledged, or has been inhibited (R112, R161). -/
def Dev.configDone (d : Dev) : Dev :=
  if d.job.cfgWait && d.patternsAcked then
    ({ d with job := { d.job with cfgWait := false } } : Dev).set F.SYS_COMMIT_STATUS_RESULT 2
  else d

end Sys2Proof.Machine
end

