-- ==== Sys2Proof/Machine/Modes.lean ====
section
/-!
DEFINITION. Mode transitions (spec/01_architecture.md, R18 to R27): requests, the conditions of R19, completion at line boundaries, and
what each block does at the entry to a mode (R23, R77, R104, R110, R232, R300, R388, R399).
-/
namespace Sys2Proof.Machine

/-! ### Requests (R19, R20, R26) -/

/-- A host request that the table of R19 names, by source and target. -/
def hostMay (d : Dev) (dest : Mode) : Bool :=
  match dest with
  | .ready | .calibrate | .shadow => d.mode = .idle
  | .sleep => d.mode = .idle || d.mode = .safe
  | .print | .shuttle => d.mode = .ready || (d.mode = .hold && d.sys.holdFrom = dest)
  | .hold => d.printing
  | .idle => d.modeIn [.ready, .print, .shuttle, .hold, .calibrate, .shadow, .safe]
  | .safe => decide (2 ≤ d.mode.code) && decide (d.mode.code ≤ 8)
  | .shutdown => d.mode != .sleep && d.mode != .frozen
  | .boot | .frozen => false

/-- The lanes of every scheduled bar are ACTIVE (R19). -/
def Dev.linksReady (d : Dev) : Bool := d.scheduledBars.all fun b => (d.lanesOf b).all d.active

/-- The device may shadow: its role is safety net, a mirror lane is up, and the ringmaster's claim lies above its own (R19, R338). -/
def Dev.mayShadow (d : Dev) : Bool :=
  d.role = 2 && !d.mirrorsUp.isEmpty && d.dpx.pRole = 1 && decide (d.get F.ZXL_CLAIM_CLAIM < d.get F.DPX_CLAIM_PARTNER)

/-- The reason of a refusal under the conditions of R19, 0 for none. A check of the schedule copies its entries. -/
def Dev.checkMode (d : Dev) (dest : Mode) : Dev × Nat :=
  match dest with
  | .ready =>
    let (r, why) := d.readyCheck
    let why := if why ≠ 0 then why else if d.bit F.SYS_COMMIT_STATUS_CFG_PEND then 5 else if !r.linksReady then 6 else 0
    if why = 0 then (r, 0) else ({ d with regs := r.regs }, why)
  | .shadow => (d, if d.mayShadow then 0 else 7)
  | .idle => (d, if d.mode = .safe && d.sys.cause ≠ 0 then 8 else 0)
  | .print | .shuttle =>
    if d.bit F.DRC_STATUS_FC_BUSY then (d, 2)
    else if d.mode ≠ .ready then (d, 0)
    else if d.sys.endReady then (d, 4)
    else if d.bit F.JOB_SCHED_CFG_MODE != (dest == .shuttle) then (d.checkFail d.job.headSeq 8, 9)
    else (d, 0)
  | _ => (d, 0)

/-- THM_STOP of a host request, with the hottest sensor and its reading (R399, step 1). -/
def Dev.stopEvent (d : Dev) : Dev :=
  match d.hottest with
  | some n => d.thmEvent Ev.THM_STOP n (d.tsTemp n)
  | none => d.thmEvent Ev.THM_STOP 0 0

/-- A transition begins: the request is pending until it completes. -/
def Dev.startTrans (d : Dev) (dest : Mode) : Dev :=
  let d := (d.set F.SYS_MODE_REQ_RESULT 1).set F.SYS_MODE_REQ_REASON 0
  let low := d.lowFirst dest
  let d := if d.mode = .idle && dest != .sleep then d.lowPowerOut else d
  let d := if dest = .shutdown then d.stopEvent else d
  ({ d with sys := { d.sys with trans := some { dest := dest, cause := 0, host := true, exits := low, at_ := d.now } } } : Dev).safeLow

/-- A request of a mode by its code, from SYS_MODE_REQ or an action slot. During a transition it is refused with BUSY, or with SUPERSEDED
where one of the device's own began in this cycle (R21, R22). -/
def Dev.request (d : Dev) (code : Nat) : Dev :=
  let d := (d.set F.SYS_MODE_REQ_TARGET code).set F.SYS_MODE_REQ_REASON 0
  match d.sys.trans with
  | some t => d.refuseMode (if !t.host && t.at_ = d.now then 3 else 2)
  | none =>
    if d.dpx.takeAt = some d.now then d.refuseMode 3
    else
    match Mode.ofCode code with
    | none | some .frozen | some .boot => d.refuseMode 1
    | some dest =>
      if dest = d.mode then (d.set F.SYS_MODE_REQ_RESULT 2).actDone
      else if !hostMay d dest then d.refuseMode 1
      else if d.lowFirst dest then d.startTrans dest
      else
        let (d, why) := d.checkMode dest
        if why = 0 then d.startTrans dest else d.refuseMode why

/-- MODE_REQUEST: a write of TARGET while a request is pending is refused and leaves that request as it is (R26), and so is one in whose cycle
an action slot fires (R362). In BOOT_HALT a request for BOOT starts a new boot, which Boot.lean takes up: the request completes at once. -/
def Dev.modeRequest (d : Dev) (code : Nat) : Dev :=
  if d.get F.SYS_MODE_REQ_RESULT = 1 || d.ptp.firedAt = some d.now then d.modeRefusedEvt 2 else d.request code

/-- ACTION_FIRE: the slot's request, as a write of TARGET (R361). -/
def Dev.actionFire (d : Dev) (a : Fin 4) : Dev :=
  if !d.actFires a then d
  else
    let late := (d.time.units - d.actTarget a) / 2 ^ 16
    let d := d.modPtp fun p => { p with firedAt := some d.now }
    if d.get F.SYS_MODE_REQ_RESULT = 1 then (d.modeRefusedEvt 2).actRefused a late 2
    else (d.modPtp fun p => { p with act := some (a, late) }).request (d.get (F.PTP_ACT_CTL_TARGET a))

/-! ### Entry to a mode -/

/-- The pending sets and every value on its way to a line take effect: the end of printing (R110). -/
def Dev.settle (d : Dev) : Dev :=
  let d := d.modesFlush
  let d := allBars.foldl (fun (d : Dev) b =>
    let tl := (d.bar b).tl
    let got := (d.bar b).reach.map (·.1)
    let d := d.modBar b fun s => { s with tl := [], arrived := s.arrived ++ got, reach := [] }
    let d := tl.foldl (fun (d : Dev) t => (d.fieldNow b t.2.1 t.2.2.1).noteField t.2.1 t.2.2.2) d
    got.foldl (fun (d : Dev) q => d.setArrives b q) d) d
  (d.applyAll.dropSets).handOver

/-- STB outputs are forced low, compare outputs to their inactive level (R77, R79). -/
def Dev.forceOutputs (d : Dev) : Dev :=
  (List.finRange 32).foldl (fun (d : Dev) (n : Fin 32) =>
    if d.cmp[n].pulse.isSome then
      let d := d.modCmp n fun c => { c with pulse := none }
      if d.cmpTarget n = 1 && !d.shareZ 1 then d.emit (.pin pinCmpOut (d.effGet (F.LTC_CMP_CFG_PIN n)) (d.cmpLevel n false)) else d
    else d) d.stbLow.exposuresOff

/-- Entry to PRINT or SHUTTLE from READY: J of the first entry is fixed, sets find their lines, every bar takes its first boundary (R97,
R98, R63). -/
def Dev.startPrint (d : Dev) : Dev :=
  let d := (d.fixJ (some ((d.hwm8 + d.get F.JOB_SCHED_LEAD_NM * 256) % fireMod))).findAllLines
  d.barsOn.foldl (fun (d : Dev) (b : Fin 12) =>
    match d.job.entries.head? with
    | some e => d.takeCopy b e.seq 0
    | none => d) d

/-- Queued device writes of persistent words are made. -/
def Dev.prsDrain (d : Dev) : Dev :=
  d.prsQ.foldl (fun (d : Dev) w => d.arrayWrite w.1 w.2 false) { d with prsQ := [] }

/-- Beacons with SAFE = 1 on every ACTIVE lane. -/
def Dev.safeBeacons (d : Dev) (n : Nat) : Dev :=
  ((List.range n).flatMap fun _ => headLanes.filter d.active).foldl (fun (d : Dev) l => d.sendBeacon l true) d

/-- Domains are powered off in descending order down to one. -/
def Dev.offDownTo (d : Dev) (p : Nat) : Dev :=
  (allDoms.reverse.filter fun (x : Fin 12) => decide (p ≤ x.val)).foldl (fun (d : Dev) (x : Fin 12) => d.powerOff x) d

/-- What the boot has done is undone while the domains are off. -/
def Dev.bootIdle (d : Dev) : Dev :=
  { d.modBoot fun b => { b with step := 0, failed := false, last := 0, released := false, lampOff := false } with image := none, noz := {} }

/-- Head and lamp records are persisted (R174, R299). -/
def Dev.persistAll (d : Dev) : Dev := ((d.saveHeads 0).hoursSave).prsDrain


/-- Records already raised reach the event ring, and their messages leave. -/
def Dev.flushEvents (d : Dev) : Dev :=
  let d := (List.range d.raised.length).foldl (fun (d : Dev) _ => d.eventRaise) d.closeWindows
  let d := (List.range (d.evq.q.length + 1)).foldl (fun (d : Dev) _ => d.eventWrite none) d
  (List.range d.sigs.length).foldl (fun (d : Dev) _ => d.interruptSignal) d

/-- Entry to SLEEP (R388): the records already raised, MODE_CHANGE among them, are written while the memory and PD1 still run. -/
def Dev.enterSleep (d : Dev) : Dev := ((d.persistAll.safeBeacons 1).flushEvents.selfRefresh.offDownTo 1).bootIdle

/-- Ingest and egress channels stop (R399). -/
def Dev.stopDma (d : Dev) : Dev :=
  let d := (List.finRange 4).foldl (fun (d : Dev) (c : Fin 4) => d.set (F.JOB_ING_STATUS_RUN c) 0) d
  { d with job := { d.job with ing := Vector.replicate 4 {} }, egress := Vector.replicate 2 [] }

/-- Step 2 of the orderly stop (R399): outputs go to their inactive levels; carousels, run-ahead and pending sets are discarded (R110). -/
def Dev.stopOutputs (d : Dev) : Dev :=
  let d := d.forceOutputs
  let d : Dev := { d with job := { d.job with sets := [], captured := [] }, bars := updAll d.bars fun _ s => { s with tl := [], reach := [], arrived := [] } }
  d.schedStop false

/-- What a phase of the orderly stop does, and the time to the next one, ns (R399): step 2, the three beacons of step 3, steps 4 and 5. -/
def Dev.stopPhase (d : Dev) (k : Nat) : Dev × Nat :=
  match k with
  | 0 => (d.stopOutputs, 20000)
  | 1 | 2 => (d.safeBeacons 1, 10000)
  | 3 => (d.safeBeacons 1, 30000)
  | 4 => (d.stopDma.crcStop.flushEvents, 2000)
  | _ => (d.selfRefresh, 0)

/-- Phases of the orderly stop, all of which TRANSITION_COMPLETE waits for. -/
def stopPhases : Nat := 6

/-- The lines already issued have fired and their strobes have ended, so far as PD10 works; lanes have left L1 and L2 (R196, R399). -/
def Dev.firesOver (d : Dev) (t : Trans) : Bool :=
  (!d.live 10 || ((allBars.all fun b => (d.bar b).issued.isEmpty) && d.stb.toList.all fun s => !s.high && s.riseAt.isNone))
    && !(t.exits && d.lowPowerAny)

/-- The orderly stop goes on: its next phase once that is due. -/
def Dev.stopTick (d : Dev) : Dev :=
  match d.sys.trans with
  | none => d
  | some t =>
    if t.dest ≠ .shutdown || stopPhases ≤ t.stop || decide (d.now < t.stopAt) || (t.stop = 0 && !d.firesOver t) then d
    else
      let (d, wait) := d.stopPhase t.stop
      { d with sys := { d.sys with trans := some { t with stop := t.stop + 1, stopAt := d.now + wait } } }

/-- Step 6 of the orderly stop, with the record of the mode change (R399). -/
def Dev.enterShutdown (d : Dev) : Dev := (d.flushEvents.offDownTo 2).bootIdle

/-- What the entry to a mode does, once the mode has changed. -/
def Dev.entered (d : Dev) (from_ : Mode) (cause : Nat) : Dev :=
  let dest : Mode := d.mode
  let d := if from_ = .shadow && !(dest == .print || dest == .shuttle) then d.leaveShadow else d
  let d : Dev := match dest with
    | .idle =>
      let d := (d.settle.schedStop (from_ == .print || from_ == .shuttle || from_ == .hold)).stepAtIdle.idleStart
      { d with sys := { d.sys with deposed := false, endReady := false } }
    | .ready =>
      if cause = 0x09 then
        let d := d.settle
        { d with sys := { d.sys with endReady := true } }
      else ({ d with sys := { d.sys with endReady := false } } : Dev).schedStart
    | .print | .shuttle =>
      let d := d.barsOn.foldl (fun (d : Dev) (b : Fin 12) => (d.set (F.LTC_BAR_REGERR_MAX b) 0).modBar b fun s => { s with firstLine := none }) d
      if from_ == .ready then d.startPrint
      else if from_ == .hold then d.barsOn.foldl (fun (d : Dev) (b : Fin 12) => d.startBuoy b) d
      else d
    | .hold => { d with sys := { d.sys with holdFrom := from_ } }
    | .shadow => d.enterShadow
    | .safe =>
      let d : Dev := { d with sys := { d.sys with deposed := d.sys.deposed || cause == 0x07 } }
      ((d.settle.schedStop true).forceOutputs).raise Ev.SAFE_ENTERED 15 none [modeWord dest.code from_.code cause]
    | _ => d
  (d.denMode dest).lampMode dest

/-- The mode changes: MODE, PREV, and CAUSE for a transition of the device's own; MODE_CHANGE and the FATAL records of the trigger (R10, R27);
what the blocks do. -/
def Dev.changeMode (d : Dev) (dest : Mode) (cause : Nat) (evs : List Event := []) : Dev :=
  let from_ := d.mode
  let d : Dev := { d with sys := { d.sys with mode := dest, prev := from_, cause := if cause = 0 then d.sys.cause else cause,
                                              causeAt := if cause = 0 then d.sys.causeAt else some d.now, trans := none, halt := false } }
  let d := ((d.raise Ev.MODE_CHANGE 15 none [modeWord dest.code from_.code cause]).raiseAll evs).markMode dest
  match dest with
  | .sleep => d.enterSleep
  | .shutdown => (d.lampMode dest).enterShutdown
  | _ => d.entered from_ cause

/-! ### Completion (R21, R22) -/

/-- Every bar is at a line boundary: no line is issued that has not counted as fired (R14, R21). -/
def Dev.atBoundary (d : Dev) : Bool := allBars.all fun b => (d.bar b).issued.isEmpty

/-- Held transitions in the order of R22. -/
def heldOrder (l : List Trans) : List Trans := (l.filter fun t => t.dest = .hold) ++ l.filter fun t => t.dest ≠ .hold

/-- After a transition the first held one whose source is the current mode is made; those before it are dropped. -/
def Dev.nextHeld (d : Dev) : Dev :=
  match (heldOrder d.sys.held).dropWhile fun t => !devSource t.dest d.mode with
  | [] => { d with sys := { d.sys with held := [] } }
  | t :: r => { d with sys := { d.sys with trans := some { t with at_ := d.now }, held := r } }

/-- The transition in progress is made. -/
def Dev.complete (d : Dev) (t : Trans) : Dev :=
  let d := if t.host then (d.set F.SYS_MODE_REQ_RESULT 2).actDone else d
  let back := d.mode = .hold && (t.dest == .print || t.dest == .shuttle) && d.sys.schedDone
  let d := d.changeMode t.dest t.cause t.evs
  let d := d.nextHeld.markEntered
  if back && d.sys.trans.isNone then d.devTrans .ready 0x09 else d

/-- A transition is to go on: for a line boundary on every bar, for lanes that leave L1 and L2, for the steps of the orderly stop. -/
def Dev.transWaits (d : Dev) (t : Trans) : Bool :=
  if t.dest = .shutdown then decide (t.stop < stopPhases) else !d.atBoundary || (t.exits && d.lowPowerAny)

/-- TRANSITION_COMPLETE: nothing before the line boundaries, and before lanes have left L1 and L2; conditions put off until then are
checked now. -/
def Dev.transitionComplete (d : Dev) : Dev :=
  match d.sys.trans with
  | none => d
  | some t =>
    if d.transWaits t then d
    else if t.exits then
      let (d, why) := d.checkMode t.dest
      if why = 0 then d.complete t else ({ d with sys := { d.sys with trans := none } } : Dev).refuseMode why
    else d.complete t

/-- CAUSE_CLR: CAUSE and its shadow become 0; a cause set in this cycle wins (R25). -/
def Dev.modeCauseClr (d : Dev) : Dev :=
  let w := (F.SYS_MODE_CAUSE).into (Sparse.get resetWord d.shadow Reg.SYS_MODE) 0
  if d.sys.causeAt = some d.now then { d with shadow := Sparse.put resetWord d.shadow Reg.SYS_MODE w }
  else
  { d with sys := { d.sys with cause := 0 }, shadow := Sparse.put resetWord d.shadow Reg.SYS_MODE w }

/-- ORDERLY_STOP_DONE: PD1 persists the records and powers off (R399). -/
def Dev.stopDone (d : Dev) : Dev :=
  if d.mode = .shutdown && d.runs 1 then (d.persistAll.powerOff 1).bootIdle else d

end Sys2Proof.Machine
end

