-- ==== Sys2Proof/Machine/Take.lean ====
section
/-!
DEFINITION. Take-over and deposition of a duplex pair (spec/14_duplex.md, R341, R342, R344 to R348).
-/
namespace Sys2Proof.Machine

/-- What stands against a take-over: 1 the mirrored mode, 3 the partner's claim, 0 nothing (R344). A host request of the same cycle gives way
(R22). -/
def Dev.takeBlock (d : Dev) : Nat :=
  let m := d.get F.DPX_STATUS_PMODE
  let other := match d.sys.trans with | some t => !(t.host && t.at_ = d.now) | none => false
  if d.mode ≠ .shadow || other || !(m = 4 || m = 6) then 1
  else if 0xFFFF ≤ d.get F.DPX_CLAIM_PARTNER then 3
  else 0

/-- A bar enters the gap: lines that passed their issue points without being sent leave the carousel; lines whose issue point falls before T +
22 µs are not issued (R345). -/
def Dev.gapStart (d : Dev) (b : Fin 12) : Dev :=
  let gone := (d.bar b).issued.map (·.pos)
  let d := gone.foldl (fun (d : Dev) p => d.lineReaches b p) d
  let d := d.modBar b fun s => { s with issued := [], car := s.car.filter fun t => !gone.contains t.pos }
  (d.modDpxBar b fun s => { s with gap := some (d.now + 22000), recs := [], mism := [] }).commitDue b

/-- Held sets that have no record apply at once. -/
def Dev.releaseHeld (d : Dev) : Dev :=
  let hs := d.dpx.held
  let d := d.modDpx fun x => { x with held := [], recs := [], syncAt := none }
  let d := hs.foldl (fun (d : Dev) h =>
    let d : Dev := { d with job := { d.job with sets := d.job.sets ++ [h.set_] } }
    allBars.foldl (fun (d : Dev) (b : Fin 12) => d.applyAtOnce b h.set_) d) d
  (d.showPending).showHeld

/-- Compare outputs are driven at the level of their own evaluation, direct strobes low (R345). -/
def Dev.driveOutputs (d : Dev) : Dev :=
  let d : Dev := { d with stb := updAll d.stb fun _ s => { s with high := false } }
  (List.finRange 32).foldl (fun (d : Dev) (n : Fin 32) =>
    if d.cmpTarget n = 1 then d.emit (.pin pinCmpOut (d.effGet (F.LTC_CMP_CFG_PIN n)) (d.cmpLevel n d.cmp[n].pulse.isSome)) else d) d

/-- The lamp levels mirrored are those of the next LATCH, and of the coverage that goes on from there (R345). -/
def Dev.mirrorLamps (d : Dev) : Dev :=
  { d with lmp := { d.lmp with mods := updAll d.lmp.mods fun _ s =>
      { s with held := s.staged, cov := match s.staged with | some l => l.map (· % 2 ^ 16) | none => s.cov } } }

/-- The safety net takes over: causes 1 heartbeat, 2 line check, 3 host (R345). -/
def Dev.takeOver (d : Dev) (cause : Nat) : Dev :=
  let dest : Mode := if d.get F.DPX_STATUS_PMODE = 6 then .shuttle else .print
  let claim := d.get F.DPX_CLAIM_PARTNER + 1
  let last := d.pair Reg.DEN_LAST_LO Reg.DEN_LAST_HI
  let d := if d.sys.trans.isSome then d.refuseMode 3 else d
  let d := d.set F.ZXL_CLAIM_CLAIM claim
  let d := (d.set F.DPX_CFG_ROLE 1).effSet F.DPX_CFG_ROLE 1
  let d := (d.set F.DPX_STATUS_STATE 4).unguardAll
  let d := d.barsOn.foldl (fun (d : Dev) (b : Fin 12) => d.gapStart b) d
  let d := d.releaseHeld
  let d := (d.changeMode dest 0x08).mirrorLamps.markEntered.wrPair Reg.DEN_LAST_LO Reg.DEN_LAST_HI last
  let d := d.mirrorOut 0xAA (claim :: words48 d.web)
  let d := d.raise Ev.DPX_TAKEOVER 15 none [15, cause, claim]
  let d := (d.set F.DPX_TAKE_CAUSE cause).addSat F.DPX_TAKE_COUNT 1
  let d := d.wrPair Reg.DPX_TAKE_WEB_LO Reg.DPX_TAKE_WEB_HI d.web
  let d := d.modDpx fun x => { x with takeAt := some d.now, lost := false }
  let d := (headLanes.filter d.active).foldl (fun (d : Dev) n => d.sendBeacon n false) d
  let d := allBars.foldl (fun (d : Dev) (b : Fin 12) => if (d.mchg b).isSome then d.modeAbort b else d) d
  d.driveOutputs

/-- A trigger of the device's own: it takes over, or says why not and stays in SHADOW (R344). -/
def Dev.takeTrigger (d : Dev) (cause : Nat) : Dev :=
  match d.takeBlock with
  | 0 => d.takeOver cause
  | 3 => d.raise Ev.DPX_CLAIM_EXHAUSTED 15 none [15]
  | _ => d.raise Ev.DPX_PARTNER_LOST 15 none [15]

/-- HEARTBEAT_TIMEOUT: 310 µs without a heartbeat, once until the next one comes; the lost ones count as missed. One that arrives in the same
cycle wins. -/
def Dev.heartbeatTimeout (d : Dev) (arrives : Bool) : Dev :=
  let excess := match d.dpx.hbAt with | some t => decide (t + 310000 ≤ d.now) | none => false
  if arrives || d.mode ≠ .shadow || !excess || d.dpx.lost || !d.effBit F.DPX_CFG_HB_TAKE then d
  else ((d.modDpx fun x => { x with lost := true }).addSat F.DPX_HB_MISSED 3).takeTrigger 1

/-- TAKEOVER: a pulse of DPX_CTL.TAKEOVER, that of a trigger of the device's own which comes with it (R344). -/
def Dev.takeover (d : Dev) (own : Option Nat) : Dev :=
  match own, d.takeBlock with
  | some cause, 0 => d.takeOver cause
  | none, 0 => if d.scheduledBars.all d.guarded then d.takeOver 3 else d.dpxRefused 2
  | _, why => d.dpxRefused why

/-- LCRC_RECOMPUTE: the value of the bar's oldest mismatching line, computed again; a line past its issue point neither counts nor breaks
the run. -/
def Dev.lcrcRecompute (d : Dev) (b : Fin 12) (value : Nat) : Dev :=
  match d.dpx.bars[b].mism with
  | [] => d
  | (wire, own, _) :: rest =>
    let d := d.modDpxBar b fun s => { s with mism := rest }
    if d.mode ≠ .shadow || !d.guarded b || decide (wire ≤ d.get (F.ZXL_BAR_WIRE_COUNT b)) then d
    else if value ≠ own then
      ((d.addSat (F.DPX_BAR_MISM_SELF b) 1).raise Ev.DPX_SELF_FAULT b.val none [b.val]).setGuard b false
    else
      let d := (d.addSat (F.DPX_BAR_MISM_CONFIRMED b) 1).addSat (F.DPX_BAR_MISM_RUN b) 1
      let run := d.get (F.DPX_BAR_MISM_RUN b)
      let d := d.raiseC Ev.DPX_LCRC_MISMATCH b b.val none [b.val, wire, run] 1 []
      if run = 4 && d.effBit F.DPX_CFG_CRC_TAKE then d.takeTrigger 2 else d

/-! ### Deposition (R348) -/

/-- The ringmaster is deposed: SAFE with cause 0x07, ROLE 2. -/
def Dev.depose (d : Dev) : Dev :=
  if d.role ≠ 1 || !(decide (2 ≤ d.mode.code) && decide (d.mode.code ≤ 8)) then d
  else
    let d := (d.set F.DPX_CFG_ROLE 2).effSet F.DPX_CFG_ROLE 2
    (d.set F.DPX_STATUS_STATE 5).devTransWith .safe 0x07 [d.event Ev.DPX_DEPOSED 15 none [15]]

/-- TAKEOVER_RX. -/
def Dev.takeoverRx (d : Dev) (seq claim : Nat) : Dev :=
  if d.role ≠ 1 then d else d.firstCopy seq fun d => (d.set F.DPX_CLAIM_PARTNER claim).depose

/-- The endpoint port of this device: the image's ringmaster is wired to X, its safety net to Y. -/
def Dev.ownPort (d : Dev) : Nat := if d.img.role = 2 then 1 else 0

/-- The valid slots of a STATUS frame, and those that name the other port as owner, count in the pass under way. -/
def Dev.depositionNote (d : Dev) (crcOk : Bool) (slots : List (BitVec 64)) : Dev :=
  let valid := slots.filter fun v => Nat.testBit v.toNat 63
  let other := valid.filter fun v => slotBits v 51 1 ≠ d.ownPort
  if crcOk then d.modDpx fun x => { x with passValid := x.passValid + valid.length, passOther := x.passOther + other.length } else d

/-- A STATUS pass is over: when more than half of its valid slots name the other port as owner, the ringmaster is deposed. -/
def Dev.depositionPass (d : Dev) : Dev :=
  let x := d.dpx
  if x.passValid = 0 then d
  else
    let d := d.modDpx fun x => { x with passValid := 0, passOther := 0 }
    if x.passValid < 2 * x.passOther then d.depose else d

/-! ### Triggers of one cycle (R344) -/

/-- A first correct heartbeat arrives in this cycle as well. -/
def State.heartbeatWaits (s : State) : Bool :=
  s.pending.any fun
    | .heartbeatRx seq _ => s.dev.role = 2 && !s.dev.mirrorsUp.isEmpty && !s.dev.dpx.seen.contains seq
    | _ => false

/-- The loss of the heartbeat falls in this cycle as well and takes over (R344). -/
def State.lossWaits (s : State) : Bool :=
  s.pending.contains .heartbeatTimeout && s.dev.mode = .shadow && (s.dev.heartbeatTimeout s.heartbeatWaits).mode != .shadow

/-- The first of the device's own triggers that come with a pulse of TAKEOVER (R344). -/
def State.takeCause (s : State) : Option Nat :=
  if s.lossWaits then some 1
  else if s.pending.any fun
    | .lcrcRecompute b value => s.dev.mode = .shadow && (s.dev.lcrcRecompute b value).mode != .shadow
    | _ => false then some 2
  else none

end Sys2Proof.Machine
end

