-- ==== Sys2Proof/Machine/Boot.lean ====
section
/-!
DEFINITION. Bring-up (spec/16_bring_up.md, R367 to R390): release of domains, the boot steps and their policies, the boot log, BOOT_HALT,
waking, the memory at step 3 (R322 to R324, R328), heads at step 8 (R172), trims at step 9 (R56), critical-state errors, the flash.
-/
namespace Sys2Proof.Machine

/-! ### The boot log (R385, R387) -/

def Dev.bootHdr (d : Dev) (i : Nat) : Nat := d.prsNow i

/-- The header passes its CRC. -/
def Dev.hdrOk (d : Dev) : Bool := wordsCrc [d.bootHdr 0, d.bootHdr 1, d.bootHdr 2] = d.bootHdr 3

/-- Consecutive failures of step s; 0 where the header fails its CRC. -/
def Dev.failCount (d : Dev) (s : Nat) : Nat := if d.hdrOk then bits (d.bootHdr 0) (2 * (s - 1)) 2 else 0

def Dev.setHdr (d : Dev) (h0 h1 h2 : Nat) : Dev :=
  (((d.prsPut 0 h0).prsPut 1 h1).prsPut 2 h2).prsPut 3 (wordsCrc [h0, h1, h2])

def Dev.setCount (d : Dev) (s n : Nat) : Dev :=
  let h := d.bootHdr 0
  d.setHdr (h - bits h (2 * (s - 1)) 2 * 2 ^ (2 * (s - 1)) + n * 2 ^ (2 * (s - 1))) (d.bootHdr 1) (d.bootHdr 2)

def Dev.clearCounts (d : Dev) : Dev := d.setHdr 0 (d.bootHdr 1) (d.bootHdr 2)

/-- The persistent word of the newest entry. -/
def Dev.logWord (d : Dev) (i : Nat) : Nat := 4 + 4 * (d.bootHdr 2 % 16) + i

/-- A new entry at the start of step 1; a bad header is rewritten with every count 0. -/
def Dev.logStart (d : Dev) : Dev :=
  let ok := d.hdrOk
  let boots := if ok then min (2 ^ 32 - 1) (d.bootHdr 1 + 1) else 1
  let d := if ok then d.setHdr (d.bootHdr 0) boots ((d.bootHdr 2 + 1) % 16)
    else (d.setHdr 0 boots 0).raise Ev.BOOT_LOG_BAD 15 none [0x100]
  let cause := d.get F.RPC_CAUSE_SRC
  let d := (d.prsPut (d.logWord 0) boots).prsPut (d.logWord 1) (cause * 2 ^ 15)
  let d := (d.prsPut (d.logWord 2) 0).prsPut (d.logWord 3) (if Nat.testBit cause 12 then d.boot.crit else 0)
  d.set F.RPC_BOOTCNT_BOOTS boots

/-- The entry is updated: last step completed, and a failure with its step, code, detail and variant. -/
def Dev.logEntry (d : Dev) (s code detail variant : Nat) : Dev :=
  let w1 := d.prsNow (d.logWord 1)
  let w3 := d.prsNow (d.logWord 3)
  let d := d.prsPut (d.logWord 1) (w1 / 2 ^ 15 * 2 ^ 15 + d.boot.last * 2 ^ 11 + s * 2 ^ 7 + code % 2 ^ 7)
  let d := d.prsPut (d.logWord 2) detail
  d.prsPut (d.logWord 3) (d.boot.copyB.toNat * 2 ^ 31 + d.get F.RPC_BOOT_SKIPPED % 2 ^ 11 * 2 ^ 20 + variant * 2 ^ 16 + w3 % 2 ^ 16)

/-- The entry at step 11; word 2 holds the lane states of step 7, in a layout that no rule gives (R199, R387; log 64). -/
def Dev.logEnd (d : Dev) : Dev :=
  let d := (d.prsPut (d.logWord 2) (d.free 32)).took
  let w1 := d.prsNow (d.logWord 1)
  let w3 := d.prsNow (d.logWord 3)
  let d := d.prsPut (d.logWord 1) (w1 / 2 ^ 15 * 2 ^ 15 + 11 * 2 ^ 11 + w1 % 2 ^ 11)
  d.prsPut (d.logWord 3) (d.boot.copyB.toNat * 2 ^ 31 + d.get F.RPC_BOOT_SKIPPED % 2 ^ 11 * 2 ^ 20 + w3 % 2 ^ 20)

/-! ### Steps (R384, R385) -/

/-- The policies of R384. -/
inductive Policy where
  | retry | stop | skip | never
  deriving DecidableEq, Repr

def policyOf (s : Nat) : Policy :=
  match s with
  | 4 => .stop
  | 6 | 10 => .skip
  | 9 | 11 => .never
  | _ => .retry

/-- The time limit of a step, ns. -/
def stepLimit (s : Nat) : Nat :=
  match s with
  | 1 => 20000000 | 2 => 2000000000 | 3 => 2000000000 | 4 => 50000000 | 5 => 20000000
  | 6 => 20000000 | 7 => 500000000 | 8 => 200000000 | 9 => 1000000 | _ => 50000000

/-- BOOT_HALT: PD2 and PD3 come up with the defaults of the boot ROM (R385, R386). A transition in progress goes first (R21). -/
def Dev.bootHalt (d : Dev) : Dev :=
  if d.sys.trans.isSome then d
  else
  let d : Dev := { d with sys := { d.sys with halt := true, prev := .boot, cause := 0x0A, trans := none }, image := none }
  let d := d.raise Ev.MODE_CHANGE 15 none [modeWord 1 1 0x0A]
  ((d.raise Ev.BOOT_HALTED 15 none [modeWord 1 1 0x0A]).powerOn 2).powerOn 3

def Dev.skipMark (d : Dev) (s : Nat) : Dev := d.set ⟨Reg.RPC_BOOT, s - 1, 1⟩ 1

/-- The transmitter's taps come from the image (R192). -/
def Dev.loadTx (d : Dev) : Dev :=
  (List.finRange 18).foldl (fun (d : Dev) (n : Fin 18) => d.set ⟨Reg.ZXL_LANE_TX n, 0, 12⟩ ((d.img.lanes.getD n.val {}).tx)) d

/-- Lanes come up at step 7: those the map in use enables, with the caps of R199; those the alternate map names are EXCLUDED. -/
def Dev.startLanes (d : Dev) : Dev :=
  (List.finRange 18).foldl (fun (d : Dev) (n : Fin 18) =>
    let l := d.img.lanes.getD n.val {}
    if laneUsed d.img d.boot.attempt n then
      let cap := match d.boot.caps.find? fun c => c.1 = n.val with | some c => c.2 - 1 | none => 3
      (d.modLane n fun x => { x with cap := if d.boot.attempt = 1 then cap else 3 }).enterDetect n
    else if l.en then d.setLane n laneExcluded
    else d) d.loadTx

/-- A step begins; where it is retried, BOOT_HALT takes its place after three consecutive failures. -/
def Dev.startStep (d : Dev) (s : Nat) : Dev :=
  if 3 ≤ d.failCount s ∧ policyOf s = .retry then (d.modBoot fun b => { b with step := s }).bootHalt
  else
    let d := (d.modBoot fun b => { b with step := s, at_ := d.now, failed := false }).set F.RPC_STATUS_STEP s
    match s with
    | 1 => (allDoms.filter fun (p : Fin 12) => decide (4 ≤ p.val)).foldl (fun (d : Dev) (p : Fin 12) => d.powerOn p) d
    | 5 => d.powerOn 2
    | 6 => d.powerOn 3
    | 7 => d.startLanes
    | 8 => headLanes.foldl Dev.measureDelay d
    | _ => d

/-- The trims of step 9: a bad record loads codes 0 (R56). DESIGN CHOICE (log 61): LOADED is set with LOAD_BAD too. -/
def Dev.loadTrims (d : Dev) : Dev :=
  [0, 1].foldl (fun (d : Dev) n =>
    let v := d.prsNow (0x80 + 8 * n)
    let d := d.set (F.POS_TRIM_STAT_LOADED n) 1
    if d.prsNow (0x80 + 8 * n + 1) = crc32c (bytesLE 4 v) then (d.wr (Reg.POS_TRIM_ACT n) (BitVec.ofNat 32 v)).set (F.POS_TRIM_STAT_LOAD_BAD n) 0
    else ((d.wr (Reg.POS_TRIM_ACT n) 0).set (F.POS_TRIM_STAT_LOAD_BAD n) 1).raise Ev.TRIM_LOAD_BAD 15 none [n]) d

/-- Balls are released at step 10 (R381); a bank without its supply is reported (R367). -/
def Dev.release (d : Dev) (lamps : Bool) : Dev :=
  let d := (d.modBoot fun b => { b with released := true, slow := true, lampOff := !lamps }).showSlow
  let d := if lamps && d.effBit F.LMP_CFG_EN then
      d.lampsOn.foldl (fun (d : Dev) m => (d.lampAskId m).lampConfig m) d else d
  if d.get F.RPC_STATUS_VIO = 7 then d else d.raise Ev.BOOT_VIO_MISSING 15 none [0xA00, 7 - d.get F.RPC_STATUS_VIO]

/-- The freeze record, if it is new and good, is reported once (R416). -/
def Dev.freezeReport (d : Dev) : Dev :=
  let w (i : Nat) : Nat := d.prsNow (0xA0 + i)
  if Nat.testBit (w 2) 31 && wordsCrc [w 0, w 1, w 2] = w 3 then
    let d := d.raise Ev.FREEZE_REPORT 15 none [0, w 1, w 2]
    let w2 := w 2 % 2 ^ 31
    (d.prsPut 0xA2 w2).prsPut 0xA3 (wordsCrc [w 0, w 1, w2])
  else d

/-- Step 11: IDLE (R384, R398, R416). A transition in progress, to SHUTDOWN, goes first (R21). -/
def Dev.bootDone (d : Dev) : Dev :=
  if d.sys.trans.isSome then d
  else
  let d := (d.modBoot fun b => { b with step := 11 }).set F.RPC_STATUS_STEP 11
  let d := (d.changeMode .idle 0).logEnd
  let d := d.raise Ev.BOOT_DONE 15 none [0xB00, d.get F.RPC_CAUSE_SRC, (d.rd Reg.RPC_BOOT).toNat]
  let d := if d.thm.report then
      (d.modThm fun t => { t with report := false }).raise Ev.THM_TRIP_REPORT 15 none
        [d.get F.THM_LAST_TRIP_SENSOR, unsext 32 (d.getI F.THM_LAST_TRIP_TEMP), (d.rd Reg.THM_LAST_TRIP).toNat]
    else d
  d.freezeReport

/-- The step after one that has ended; step 5 is skipped where the image declares PCIe unused. -/
def Dev.nextStep (d : Dev) (s : Nat) : Dev :=
  if s = 10 then d.bootDone
  else if s = 4 && !d.img.pcie then (d.skipMark 5).startStep 6
  else d.startStep (s + 1)

/-- A step completes: its count clears. -/
def Dev.stepDone' (d : Dev) (s : Nat) : Dev :=
  let d := if d.failCount s = 0 then d else d.setCount s 0
  (d.modBoot fun b => { b with last := s }).nextStep s

/-- A step fails, under its policy. -/
def Dev.stepFail (d : Dev) (s code detail : Nat) : Dev :=
  let n := d.failCount s
  let count (d : Dev) : Dev :=
    let d := (d.setCount s (min 3 (n + 1))).logEntry s code detail n
    ((d.set F.RPC_BOOT_FAIL_STEP s).set F.RPC_BOOT_FAIL_CODE code).set F.RPC_BOOT_COUNT (min 3 (n + 1))
  match policyOf s with
  | .never => d
  | .skip =>
    let d := ((d.skipMark s).logEntry s code detail n).raise Ev.BOOT_STEP_SKIPPED 15 none [s * 2 ^ 8, code]
    let d := if s = 6 then d.powerOff 3 else (d.powerOff 11).release false
    d.nextStep s
  | .stop => (count d).bootHalt
  | .retry =>
    let d := (count d).raise Ev.BOOT_STEP_FAILED 15 none [s * 2 ^ 8, code]
    d.modBoot fun b => { b with failed := true, retryAt := d.now + 10000000 }

/-- The boot ROM starts: the log, then step 1 (R387); STOP counts from this boot (R395). -/
def Dev.startBoot (d : Dev) : Dev :=
  let d := ((d.set F.RPC_BOOT_SKIPPED 0).set F.THM_STATUS_STOP 0).logStart
  d.startStep 1

/-! ### Step 2: the image (R382, R383, R393) -/

/-- The image is in use: its values reach every running domain; the map and cap of step 7 follow from its failures. -/
def Dev.takeImage (d : Dev) (i : Image) (copyB signed x4 : Bool) : Dev :=
  let att := min 2 (d.failCount 7)
  let d : Dev := { d.modBoot fun b => { b with attempt := att, copyB := copyB, caps := if att = 1 then b.caps else [] } with image := some i }
  let d := (((d.set F.RPC_IMAGE_SEQ i.seqNo).setB F.RPC_BOOT_IMAGE copyB).setB F.RPC_BOOT_SIGNED signed).setB F.RPC_BOOT_X4 x4
  let d := (d.set F.THM_EXCL_EXCL i.excl).modThm fun t => { t with exclKnown := true }
  allDoms.foldl (fun (d : Dev) (p : Fin 12) => if d.runs p then d.loadImage p else d) d

/-- The population fits the part: 1,024 heads and endpoints, 64 endpoints on a chain, 122,880 nozzles in a row, 90,000 positions on a lane
(R12, R197, R447; which of the limits of R447 the check 0x25 makes is DEDUCED, log 69). -/
def populationOk (i : Image) : Bool :=
  decide (i.heads.length ≤ 1024) && i.heads.all (fun h => decide (h.h < 1024) && decide (h.bar < 12)) && i.eps.all (fun e => decide (e.ep < 1024))
    && i.nozzles.all (fun n => decide (n ≤ 122880))
    && i.lanes.all fun l => decide (l.expect ≤ 64) && decide ((l.pieces.map (·.count)).foldl (· + ·) 0 ≤ 90000)

/-- At most two sensors excluded (R393). -/
def exclOk (i : Image) : Bool := decide (((List.range 16).filter fun n => Nat.testBit i.excl n).length ≤ 2)

/-! ### Step 3: the memory (R322 to R324, R328) -/

/-- The state of a spare rank at a boot: a migration that was not completed is completed by mapping. -/
def Dev.loadSpare (d : Dev) (i : Fin 2) : Dev :=
  let s := bits (d.prsNow (0x90 + i)) 30 2
  let s := if !Nat.testBit d.img.spare i then 0 else if s = 0 then 1 else if s = 2 then 3 else s
  let d := (d.set (F.DRC_DI_STATE_SPARE i) s).set (F.DRC_DI_STATE_ACTIVE i) (if s = 3 then 1 else 0)
  if s = 0 then d else d.prsPut (0x90 + i) (d.rd (Reg.DRC_DI_STATE i)).toNat

/-- What step 3 does: whether the store is kept, and the variant (R323, R324). A record that fails its check word makes variant 1 act as 0. -/
def Dev.memPlan (d : Dev) (stored : Bool) (count : Nat) : Bool × Nat :=
  let mig := [0, 1].any fun i => bits (d.prsNow (0x90 + i)) 30 2 = 2
  let unret := d.drc.unret.toList.any id
  let count := if count = 1 && !stored then 0 else count
  (d.drc.selfRef && !mig && !unret && stored && count = 0, count)

/-- An eye, in ps, narrower than 0.3 UI: 46.875 ps at OP0, 93.75 ps at OP1 (R322). -/
def narrow (fs : Nat) (es : List (Nat × Nat)) : Bool := es.any fun e => decide (1000 * min e.1 e.2 < fs)

/-- Step 3 fails: another population, a check that does not pass, or a narrow eye of the training (R306, R322, R324). -/
def Dev.memFails (d : Dev) (r : DramOut) : Bool :=
  let (keep, count) := d.memPlan r.stored (d.failCount 3)
  !r.populated || (if keep || count = 1 then !r.passes else narrow 93750 r.eyes1 || (count ≠ 2 && narrow 46875 r.eyes))

/-- The memory comes up: with its content where it was in self-refresh, no migration was in progress, no retirement has been cleared, and
the stored training is good; else every data unit is written with zeros. `count` is the variant of R324. -/
def Dev.memStart (d : Dev) (stored : Bool) (count : Nat) : Dev :=
  let (keep, count) := d.memPlan stored count
  let d := (List.finRange 2).foldl (fun (d : Dev) (i : Fin 2) => d.loadSpare i) d
  let d : Dev := { d with drc := { d.drc with selfRef := false, unret := Vector.replicate 2 false,
                                              cr := updAll d.drc.cr fun _ c => { c with debt := 0, winAt := d.now, dueAt := d.now, polledAt := d.now },
                                              wckAt := d.now, scrubFrom := d.now } }
  let d := (d.setB F.DRC_STATUS_RETAINED keep).setB F.DRC_STATUS_STORED (keep || count = 1)
  let d := if keep then d else ({ d with store := [], poison := [] } : Dev).set F.DRC_STATUS_INIT_DONE 1
  let d := if count = 2 then (d.set F.DRC_STATUS_OP1_ONLY 1).set F.DRC_STATUS_OP 1 else d
  d.showRes

/-- Step 3 with what the training found: eyes, and the record where it differs. -/
def Dev.stepDram (d : Dev) (r : DramOut) : Dev :=
  if d.memFails r then d.took.stepFail 3 (d.free 8) 0
  else
    let d := d.memStart r.stored (d.failCount 3)
    let narrowest (e : (Nat × Nat) × Nat) : Nat × Nat := match r.eyes1[e.2]? with | some x => (min e.1.1 x.1, min e.1.2 x.2) | none => e.1
    let d := (r.eyes.take 2).zipIdx.foldl (fun (d : Dev) e =>
      (d.set (F.DRC_DI_EYE_WRITE e.2) (narrowest e).1).set (F.DRC_DI_EYE_READ e.2) (narrowest e).2) d
    let d := if d.bit F.DRC_STATUS_STORED then d
      else (r.record.take 256).zipIdx.foldl (fun (d : Dev) w => d.prsPut (0x100 + w.2) w.1.toNat) d
    d.stepDone' 3

/-! ### Step 7: the lanes (R199) -/

/-- Enabled lanes that have not ended their bring-up. -/
def Dev.lanesOpen (d : Dev) : List (Fin 18) :=
  (List.finRange 18).filter fun (n : Fin 18) => laneUsed d.img d.boot.attempt n && d.laneSt n ≠ laneActive && d.laneSt n ≠ laneFailed

/-- The boot log records each lane's state, failure code and rate (R199). -/
def Dev.logLanes (d : Dev) : Dev :=
  d.modBoot fun b => { b with laneLog := (List.finRange 18).map fun (n : Fin 18) =>
    (n.val, d.laneSt n, d.get (F.ZXL_LANE_STATUS_FAILCODE n), d.get (F.ZXL_LANE_STATUS_RATE n)) }

/-- The end of step 7: it fails when a lane that carries pieces is FAILED, or below rate 1. How the log entry's word 2 packs the lane states
is open: no layout is given (log 64). -/
def Dev.stepLanes (d : Dev) : Dev :=
  let d := d.logLanes
  let bad := headLanes.filter fun n => !(d.pieces n).isEmpty && (d.laneSt n ≠ laneActive || d.get (F.ZXL_LANE_STATUS_RATE n) = 0)
  match bad with
  | [] => (d.setMaxRate).stepDone' 7
  | n :: _ =>
    let c := d.get (F.ZXL_LANE_STATUS_FAILCODE n)
    let caps := (List.finRange 18).filterMap fun (n : Fin 18) =>
      match (d.lane n).failAt with
      | some (st, rate) => if d.laneSt n = laneFailed && (st = laneStep || st = laneAlign) then some (n.val, rate) else none
      | none => none
    let detail := d.free 32
    (d.took.modBoot fun b => { b with caps := caps }).stepFail 7 (if c = 0 then 0xFF else c) detail

/-- After 500 ms a lane that is not ACTIVE is FAILED. -/
def Dev.failLanes (d : Dev) : Dev :=
  d.lanesOpen.foldl (fun (d : Dev) (n : Fin 18) =>
    let c := d.get (F.ZXL_LANE_STATUS_FAILCODE n)
    (d.setLane n laneFailed).raise Ev.LANE_FAILED 15 none [n.val, laneFailed + c * 2 ^ 8]) d

/-! ### Step 8: endpoints and heads (R172, R384) -/

/-- A head of the map with what its endpoint reports: the record is kept, or takes the new head. -/
def Dev.loadHead (d : Dev) (l : List HeadRep) (i : HeadImg) : Dev :=
  let w (k : Nat) : Nat := d.prsNow (headWord i.h k)
  let ctr := w 2 + w 3 % 2 ^ 16 * 2 ^ 32
  let add (d : Dev) (s : HeadSt) : Dev := { d with noz := { d.noz with heads := d.noz.heads ++ [s] } }
  match l.find? fun r => r.h = i.h with
  | none => add d { img := i, id := w 0 + w 1 * 2 ^ 32, model := w 3 / 2 ^ 16, ctr := ctr, saved := ctr }
  | some r =>
    let id := r.id % 2 ^ 64
    if id = w 0 + w 1 * 2 ^ 32 then
      add d { img := i, present := true, id := id, model := w 3 / 2 ^ 16, rated := r.rated, ctr := ctr, saved := ctr }
    else
      let d := ((d.prsPut (headWord i.h 0) id).prsPut (headWord i.h 1) (id / 2 ^ 32)).prsPut (headWord i.h 2) 0
      let d := d.prsPut (headWord i.h 3) (r.model % 2 ^ 16 * 2 ^ 16)
      let d := d.raise Ev.HEAD_CHANGED i.bar (some i.ep) [i.bar + i.h * 2 ^ 16, 0, w 0, w 1]
      add d { img := i, present := true, id := id, model := r.model % 2 ^ 16, rated := r.rated }

/-- The first endpoint missing from its chain. -/
def Dev.missingEp (d : Dev) : Option Nat :=
  (headLanes.find? fun (n : Fin 18) => laneUsed d.img d.boot.attempt n && d.active n &&
    decide (d.get (F.ZXL_LANE_STATUS_ENDPOINTS n) < d.get (F.ZXL_LANE_CFG_EP_EXPECT n))).map
      fun (n : Fin 18) => 64 * n.val + d.get (F.ZXL_LANE_STATUS_ENDPOINTS n)

/-- Step 8 once the delays are measured: heads, then the full state and the masks of every endpoint. -/
def Dev.stepHeads (d : Dev) (l : List HeadRep) : Dev :=
  match d.missingEp with
  | some ep => d.stepFail 8 0x81 ep
  | none =>
    let d : Dev := { d with noz := { d.noz with heads := [] } }
    let d := d.img.heads.foldl (fun (d : Dev) i => d.loadHead l i) d
    let d := d.img.eps.foldl (fun (d : Dev) e => d.fullPush e) d
    let d := d.barsOn.foldl (fun (d : Dev) (b : Fin 12) => (List.range 8).foldl (fun (d : Dev) p => d.sendPattern b p) d) d
    d.stepDone' 8

/-- DELAY_MEASURE_DONE: a delay beyond 3,000 ns at boot step 8 fails the step (R216). -/
def Dev.delayResult (d : Dev) (n : Fin 18) (ring : Int) (eps : List EpDelay) : Dev :=
  let running := match (d.lane n).dmeas with | some t => decide (t + 630000 ≤ d.now) && d.active n | none => false
  let d := d.delayDone n ring eps
  let excess := (chainDelays ring eps 0).zipIdx.find? fun x => decide ((48000 : Int) < x.1)
  match excess with
  | some x => if running && d.mode = .boot && d.boot.step = 8 && !d.boot.failed then d.stepFail 8 0x82 (64 * n.val + x.2) else d
  | none => d

/-! ### The commands of the boot -/

/-- A boot step runs. -/
def Dev.booting (d : Dev) : Bool :=
  d.mode = .boot && !d.sys.halt && !d.boot.failed && d.live 1 && decide (1 ≤ d.boot.step) && decide (d.boot.step ≤ 10)

/-- BOOT_STEP_COMPLETE: the step in progress ends with what it read, or fails; without VIOA the flash does not answer (R450). -/
def Dev.bootStep (d : Dev) (r : StepOut) : Dev :=
  if !d.booting then d
  else
    match d.boot.step, r with
    | 7, .done => if d.lanesOpen.isEmpty then d.stepLanes else d
    | 7, _ => d
    | 9, .done => d.loadTrims.stepDone' 9
    | s, .fail code detail => d.stepFail s code.val detail
    | 1, .done => if (allDoms.filter fun (p : Fin 12) => decide (4 ≤ p.val)).all d.runs then d.stepDone' 1 else d
    | 2, .image i copyB signed x4 =>
      if d.get F.RPC_STATUS_VIO % 2 = 0 then d.stepFail 2 0x26 0
      else if d.bit F.RPC_FUSE_SECURE && !signed then d.stepFail 2 0x24 0
      else if !exclOk i || !populationOk i then d.stepFail 2 0x25 0
      else (d.takeImage i copyB signed x4).stepDone' 2
    | 3, .dram x => d.stepDram x
    | 4, .done => d.stepDone' 4
    | 5, .done => if d.clkGood 4 then d.stepDone' 5 else d
    | 6, .done => if d.runs 3 then d.ptpConfig.stepDone' 6 else d
    | 8, .heads l => if headLanes.all fun n => (d.lane n).dmeas.isNone || !d.active n then d.stepHeads l else d
    | 10, .done => (d.release true).stepDone' 10
    | _, _ => d

/-- BOOT_STEP_TIMEOUT: code 0xFF; step 7 ends with its lanes FAILED. -/
def Dev.bootTimeout (d : Dev) : Dev :=
  if !d.booting || decide (d.now < d.boot.at_ + stepLimit d.boot.step) then d
  else if d.boot.step = 7 then d.failLanes.stepLanes
  else d.stepFail d.boot.step 0xFF 0

/-- BOOT_RETRY: 10 ms after the failure. -/
def Dev.bootRetry (d : Dev) : Dev :=
  if d.mode = .boot && d.boot.failed && decide (d.boot.retryAt ≤ d.now) then d.wideReset 15 false (some (d.now + 10000)) else d

/-- A host request for BOOT in BOOT_HALT: every count clears and a new boot starts; PD4 to PD11 pass through reset (R385). -/
def Dev.haltBoot (d : Dev) : Dev :=
  let d := ((d.set F.SYS_MODE_REQ_TARGET 1).set F.SYS_MODE_REQ_RESULT 2).set F.SYS_MODE_REQ_REASON 0
  let d : Dev := { d with sys := { d.sys with halt := false, prev := .boot } }
  let d := (d.raise Ev.MODE_CHANGE 15 none [modeWord 1 1 0]).clearCounts
  let d := (allDoms.filter fun (p : Fin 12) => decide (4 ≤ p.val)).foldl (fun (d : Dev) (p : Fin 12) =>
    if d.runs p then (d.resetDom p).modDom p fun x => { x with st := .releaseWait, waitAt := d.now } else d) d
  (d.modBoot fun b => { b with step := 0, failed := false, last := 0 }).startBoot

/-- MODE_REQUEST with what BOOT_HALT makes of it (R19, R26). -/
def Dev.modeRequestAny (d : Dev) (code : Nat) : Dev :=
  if d.sys.halt && code = 1 && d.get F.SYS_MODE_REQ_RESULT ≠ 1 && d.sys.trans.isNone then d.haltBoot else d.modeRequest code

/-- WAKE: out of SLEEP; during its entry the boot follows at once (R388). -/
def Dev.wakeUp (d : Dev) : Dev :=
  if d.mode = .sleep then
    let d := d.set ⟨Reg.RPC_CAUSE, 16, 1⟩ 1
    ({ d.modBoot fun b => { b with step := 0, wake := false } with sys := { prev := .sleep } } : Dev).powerOn 1
  else
    match d.sys.trans with
    | some t => if t.dest = .sleep then d.modBoot fun b => { b with wake := true } else d
    | none => d

/-- TRANSITION_COMPLETE, with a wake that fell during entry to SLEEP. A freeze pre-empts every transition (R415). -/
def Dev.transDone (d : Dev) : Dev :=
  if d.frz.isSome then d
  else
    let d := d.transitionComplete
    if d.mode = .sleep && d.boot.wake then d.wakeUp else d

/-! ### Release of a domain (R374, R377) -/

/-- What a domain that comes up after the boot brings with it (R377). -/
def Dev.comeUp (d : Dev) (p : Fin 12) : Dev :=
  match p.val with
  | 3 => d.ptpConfig
  | 4 => d.memStart true 0
  | 8 => d.loadTx
  | 10 => d.loadTrims
  | _ => d

/-- The time grid of the speed and fault windows starts at the release of PD10 (R466), the watchdog at that of PD1 (R380). -/
def Dev.gridStart (d : Dev) (p : Fin 12) : Dev :=
  if p = 1 then d.modBoot fun b => { b with dogAt := d.now }
  else if p = 10 then { d with pos := { d.pos with speedStart := d.now, speedPrev := d.now, faultStart := d.now } } else d

/-- RESET_RELEASE: a domain whose sources have released, whose clocks are good and whose boot step has come. -/
def Dev.resetRelease (d : Dev) (p : Fin 12) : Dev :=
  let d := d.expireSrcs
  if !d.releasable p then d
  else
    let seen := d.doms[p].seen
    let d := ((d.modDom p fun x => { x with st := .run, seen := 0 }).loadImage p).gridStart p
    if d.boot.step = 11 then
      let d := d.comeUp p
      let d := if d.get F.RPC_PWR_RESULT = 1 && d.get F.RPC_PWR_DOM = p.val then d.set F.RPC_PWR_RESULT 2 else d
      d.raise Ev.RST_DONE 15 none [p.val, seen]
    else if p.val = 1 && d.mode = .boot && d.boot.step = 0 then d.startBoot
    else d

/-! ### RSTn (R371, R385) -/

def Dev.rstnLow (d : Dev) : Dev :=
  if d.boot.por then d.modBoot fun b => { b with rstn := true }
  else
    let d := if d.sys.halt then d.clearCounts else d
    (d.modBoot fun b => { b with rstn := true }).wideReset 4 false none

def Dev.rstnHigh (d : Dev) : Dev := (d.modBoot fun b => { b with rstn := false }).dropSrcs fun s => s.bit = 4

/-! ### Critical-state errors (R379) -/

/-- A reset for a critical error of this cycle has a reach at least as wide (R379). -/
def Dev.critCovered (d : Dev) (reach : Nat) : Bool :=
  match d.boot.critAt with
  | some (t, r) => t = d.now && decide (reach ≤ r)
  | none => false

/-- The reach set for a class: 0 SAFE, 1 SYSTEM, 2 DEVICE, 3 as 2; as the cycle began, where a reset of the cycle has come between. -/
def Dev.critReach (d : Dev) (cls : Nat) : Nat :=
  let f : Fld := ⟨Reg.RPC_CRIT, 2 * (cls - 1), 2⟩
  min 2 (if d.critCovered 0 then d.began f else d.get f)

/-- CRIT_ERROR of class 1 to 4, under its reach. Of two classes in one cycle the wider reach applies: an error whose reach a reset of the cycle
covers is counted, no more. -/
def Dev.critError (d : Dev) (cls : Nat) : Dev :=
  if d.modeIn [.sleep, .frozen] then d
  else
    let reach := d.critReach cls
    if d.critCovered reach then d.addSat F.RPC_CRIT_ERRORS 1
    else
    let d := (d.set F.RPC_CRIT_LAST cls).addSat F.RPC_CRIT_ERRORS 1
    let evt (d : Dev) : Dev := if d.live 1 then d.raise Ev.CRIT_ERROR 15 none [0, cls] else d
    let reset (d : Dev) (device : Bool) : Dev :=
      (d.modBoot fun b => { b with crit := cls, critAt := some (d.now, reach) }).wideReset 12 device (some (d.now + 10000))
    match reach with
    | 0 =>
      match d.mode with
      | .boot =>
        if d.sys.halt then evt d
        else
          match policyOf d.boot.step with
          | .retry =>
            let code := d.free 8
            let d := if d.booting then d.took.stepFail d.boot.step code 0 else d
            reset d false
          | .stop => d.stepFail d.boot.step (d.free 8) 0 |>.took
          | _ => reset d false
      | .safe | .shutdown => evt d
      | _ => d.devTransWith .safe 0x06 (if d.live 1 then [d.event Ev.CRIT_ERROR 15 none [0, cls]] else [])
    | 1 => reset d false
    | _ => reset d true

/-! ### The flash (R386) -/

/-- SPI_READ, SPI_WRITE: a write of RPC_SPI_CTL with GO = 1. -/
def Dev.spiGo (d : Dev) (v : Word) : Dev :=
  if d.get F.RPC_SPI_CTL_RESULT = 1 then d
  else
    let d := ((d.set F.RPC_SPI_CTL_X4 (F.RPC_SPI_CTL_X4.of v)).set F.RPC_SPI_CTL_READ (F.RPC_SPI_CTL_READ.of v)).set F.RPC_SPI_CTL_LEN
      (F.RPC_SPI_CTL_LEN.of v)
    if !(d.mode = .idle || d.sys.halt) then (d.set F.RPC_SPI_CTL_RESULT 3).set F.RPC_SPI_CTL_REASON 2
    else
      let rd := F.RPC_SPI_CTL_READ.of v = 1
      let len := min 256 (F.RPC_SPI_CTL_LEN.of v)
      let d := ((d.set F.RPC_SPI_CTL_RESULT 1).set F.RPC_SPI_CTL_REASON 0).modBoot fun b => { b with spi := some (rd, len) }
      let buf := (List.range len).map fun i => (d.rd (Reg.RPC_SPI_BUF (i / 4))).toNat / 2 ^ (8 * (i % 4)) % 2 ^ 8
      d.emit (.spi rd (d.get F.RPC_SPI_ADDR_OPCODE) (d.get F.RPC_SPI_ADDR_ADDR) (if rd then [] else buf))

/-- One byte of the transfer buffer. -/
def Dev.spiByte (d : Dev) (i : Nat) (b : BitVec 8) : Dev :=
  d.set ⟨Reg.RPC_SPI_BUF (i / 4), 8 * (i % 4), 8⟩ b.toNat

/-- SPI_DONE: the buffer takes what was read. -/
def Dev.spiDone (d : Dev) (data : List (BitVec 8)) : Dev :=
  match d.boot.spi with
  | none => d
  | some (rd, len) =>
    let d := (d.modBoot fun b => { b with spi := none }).set F.RPC_SPI_CTL_RESULT 2
    if rd then ((data.take len).zipIdx).foldl (fun (d : Dev) x => d.spiByte x.2 x.1) d else d

end Sys2Proof.Machine
end

