-- ==== Sys2Proof/Machine/Views.lean ====
section
/-!
DEFINITION. What a read of BAR0 returns (R1, R4, R16, R437): the windows of R142, R161, R164, R223, R266 and R294, the fields that units
show as they stand, and the snapshot shadows.
-/
namespace Sys2Proof.Machine

/-- The index of an address in a row of registers. -/
def inRow (base stride n a : Nat) : Option Nat :=
  if base ≤ a ∧ (a - base) % stride = 0 ∧ (a - base) / stride < n then some ((a - base) / stride) else none

/-! ### Windows -/

/-- The place behind an offset of BAR0: the offset itself, or the entry that a window's selector names; none where nothing is there (R4). -/
def Dev.place (d : Dev) (a : Nat) : Option Nat :=
  if 0x1500000 ≤ a then none
  else if 0x920000 ≤ a ∧ a < 0x940000 then d.matSel.map fun s => matCell s.1 s.2 ((a - 0x920000) / 8) + a % 8
  else if 0xA01000 ≤ a ∧ a < 0xA01200 then
    let b := d.get F.NOZ_MASK_SEL_BAR
    if b < 12 then some (Reg.NOZ_MASK_WIN (8 * b + d.get F.NOZ_MASK_SEL_PAT) ((a - 0xA01000) / 4)) else none
  else if 0xA04000 ≤ a ∧ a < 0xA08000 then
    let b := d.get F.NOZ_OUT_SEL_BAR
    if b < 12 then some (Reg.NOZ_OUT_WIN (2 * b + d.get F.NOZ_OUT_SEL_BANK) ((a - 0xA04000) / 4)) else none
  else if 0xB01080 ≤ a ∧ a < 0xB01100 then some (Reg.ZXL_FVEC (d.get F.ZXL_FSEL_CLASS) ((a - 0xB01080) / 4))
  else if 0xC10000 ≤ a ∧ a < 0xC12000 then
    some (Reg.VIS_TAB (8 * d.get F.VIS_TAB_SEL_UNIT + d.get F.VIS_TAB_SEL_TABLE) ((a - 0xC10000) / 4))
  else if 0xE01000 ≤ a ∧ a < 0xE01080 then some (Reg.LMP_LEVEL (d.get F.LMP_SEG_SEL_MOD) ((a - 0xE01000) / 4))
  else some a

/-! ### Fields that units show as they stand -/

/-- SYS_MODE (R25). -/
def Dev.modeView (d : Dev) : Word :=
  BitVec.ofNat 32 (d.sys.mode.code + d.sys.prev.code * 2 ^ 8 + d.sys.cause % 2 ^ 8 * 2 ^ 16 + d.sys.trans.isSome.toNat * 2 ^ 29
    + d.sys.deposed.toNat * 2 ^ 30 + d.sys.halt.toNat * 2 ^ 31)

/-- CDC_STATUS (R134): the decoder serves a reader while a bar's next contone line lacks a block row; the encoder works while an
encoding descriptor is in progress. -/
def Dev.cdcStatus (d : Dev) : Word :=
  let dec := d.screens && allBars.any fun b =>
    match d.nextScr b with
    | none => false
    | some p =>
      match d.entry p.seq with
      | none => false
      | some e => e.desc.cls = 0 && p.copy % 2 = 0 && (d.rowsNeeded b e p).any fun r => (d.stagedRow b p r).isNone
  let enc := d.job.ing.toList.any fun g => match g.desc with | some ds => bits (ingWord ds 5) 28 2 = 1 | none => false
  BitVec.ofNat 32 (dec.toNat * 2 + enc.toNat)

/-- A half of the screening array has a line to screen: the east half takes positions from 61,440 on. -/
def Dev.halfRuns (d : Dev) (east : Bool) : Bool :=
  allBars.any fun b => (d.work b).isSome && (!east || decide (61440 < d.nozzles b))

/-- SCR_BAR[n]_STATUS (R157). -/
def Dev.scrBarStatus (d : Dev) (b : Fin 12) : Word :=
  let s := d.bar b
  let car := d.unissued b
  let committed := (car.filter (·.committed)).length
  let ahead := (car.filter fun t => !t.committed).length
  let loading := match d.nextScr b with
    | none => false
    | some p =>
      match d.entry p.seq with
      | none => false
      | some e => (d.gainDue b e p).isSome
  BitVec.ofNat 32 (ahead % 32 * 2 ^ 16 + committed % 16 * 2 ^ 8 + s.replaying.toNat * 2 ^ 6 + s.paused.toNat * 2 ^ 5 + loading.toNat * 2 ^ 4
    + (d.gainBusy b 1).toNat * 2 ^ 3 + (d.gainBusy b 0).toNat * 2 ^ 2 + (d.matBusy b 1).toNat * 2 + (d.matBusy b 0).toNat)

/-- NOZ_BAR[n]_STATUS (R176); UNPRINTED is kept in the register. -/
def Dev.nozBarStatus (d : Dev) (b : Fin 12) : Word :=
  let set_ := (d.spreadSet b (d.effGet (F.NOZ_BAR_CFG_OUT_BANK b))).length
  let hot := (d.noz.heads.filter fun h => h.img.bar = b.val && h.span = 1).length
  BitVec.ofNat 32 (set_ % 2 ^ 13 * 2 ^ 16 + hot % 2 ^ 8 * 2 ^ 8 + (d.outBusy b 1).toNat * 2 ^ 3 + (d.outBusy b 0).toNat * 2 ^ 2
    + d.get (F.NOZ_BAR_STATUS_UNPRINTED b))

/-- The registers of the head that NOZ_HEAD_SEL names (R172); word i of 0x20 to 0x40. Before boot step 8 ACT shows the persistent record (R5). -/
def Dev.headView (d : Dev) (i : Nat) : Word :=
  match d.head (d.get F.NOZ_HEAD_SEL_HEAD) with
  | none =>
    let w (k : Nat) : Nat := d.prsNow (headWord (d.get F.NOZ_HEAD_SEL_HEAD) k)
    if i = 7 then BitVec.ofNat 32 (w 2) else if i = 8 then BitVec.ofNat 32 (w 3 % 2 ^ 16) else 0
  | some h =>
    BitVec.ofNat 32 <| match i with
      | 0 => h.id
      | 1 => h.id / 2 ^ 32
      | 2 => h.present.toNat * 2 ^ 31 + h.ovt.toNat * 2 ^ 30 + (decide (h.span = 1)).toNat * 2 ^ 29 + (decide (h.span = 2)).toNat * 2 ^ 28 + h.lifeWarn.toNat * 2 ^ 27
               + h.lifeEnd.toNat * 2 ^ 26 + h.img.ep % 2 ^ 10 * 2 ^ 16 + h.model % 2 ^ 16
      | 3 => h.img.slot % 4 * 2 ^ 30 + h.img.row % 2 * 2 ^ 29 + h.img.bar % 16 * 2 ^ 24 + h.img.first % 2 ^ 17
      | 4 => h.img.count % 2 ^ 17
      | 5 => h.rated
      | 6 => h.rated / 2 ^ 32 % 2 ^ 16
      | 7 => h.ctr
      | _ => h.ctr / 2 ^ 32 % 2 ^ 16

/-- VIS_STATUS (R266). -/
def Dev.visStatus (d : Dev) : Word :=
  let act := ((List.finRange 4).filter fun (p : Fin 4) => (d.port p).frame.isSome).foldl (fun (a : Nat) (p : Fin 4) => a + 2 ^ p.val) 0
  BitVec.ofNat 32 (d.vis.waiting.length % 2 ^ 16 * 2 ^ 16 + d.vis.m2m.isSome.toNat * 2 ^ 4 + act)

/-- VIS_VS[s]_OUT: the size of the crop, clipped to the frame, after scaling (R257). -/
def Dev.vsOut (d : Dev) (s : Nat) : Word :=
  let p : Fin 4 := ⟨d.effGet (F.VIS_VS_CFG_SRC s) % 4, Nat.mod_lt _ (by decide)⟩
  let w := min (2 * d.effGet (F.VIS_VS_CROP_X_W s)) (d.frameWidth p - 2 * d.effGet (F.VIS_VS_CROP_X_X0 s))
  let h := min (d.effGet (F.VIS_VS_CROP_Y_H s)) (d.frameLines p - d.effGet (F.VIS_VS_CROP_Y_Y0 s))
  let ow := sizeOut w (clampN 2048 32768 (d.effGet (F.VIS_VS_STEP_H s)))
  let oh := sizeOut h (clampN 2048 32768 (d.effGet (F.VIS_VS_STEP_V s)))
  BitVec.ofNat 32 (oh % 2 ^ 16 * 2 ^ 16 + ow % 2 ^ 16)

/-- The state code of a domain (R374). -/
def DomState.code : DomState → Nat
  | .off => 0 | .reset => 1 | .pending => 2 | .releaseWait => 3 | .run => 4

/-- The live word of the SYS, RPC and PRS blocks. -/
def Dev.view0 (d : Dev) (a : Nat) : Option Word :=
  if a = Reg.SYS_MODE then some d.modeView
  else if a = Reg.RPC_STATUS then
    let run := (allDoms.filter d.runs).foldl (fun (x : Nat) (p : Fin 12) => x + 2 ^ p.val) 0
    some (F.RPC_STATUS_RUN.into (d.rd a) run)
  else if a = Reg.PRS_STATUS then some (F.PRS_STATUS_BUSY.into (d.rd a) (!d.prsQ.isEmpty).toNat)
  else
    match inRow (Reg.RPC_DOM_STATUS 0) 4 12 a with
    | some n =>
      let x := d.doms[barOf n]
      some (BitVec.ofNat 32 (x.st.code * 2 ^ 29 + x.src % 2 ^ 17))
    | none => (inRow (Reg.PRS_WORD 0) 4 8192 a).map fun w => BitVec.ofNat 32 (d.prsWord w)

/-- The live word of the POS block. -/
def Dev.viewPos (d : Dev) (a : Nat) : Option Word :=
  if a = Reg.POS_STATUS then some d.posStatus
  else if a = Reg.POS_WEB_LO then some (BitVec.ofNat 32 d.web)
  else if a = Reg.POS_WEB_HI then some (BitVec.ofNat 32 (d.web / 2 ^ 32))
  else if a = Reg.POS_HWM_LO then some (BitVec.ofNat 32 (d.pos.hwm / 2 ^ 24))
  else if a = Reg.POS_HWM_HI then some (BitVec.ofNat 32 (d.pos.hwm / 2 ^ 56))
  else (inRow (Reg.POS_CH_STATUS 0) 64 4 a).map fun n =>
    (F.POS_CH_STATUS_LATENCY n).into (d.rd a) (min 0xFFFF (d.latency ⟨n % 4, Nat.mod_lt _ (by decide)⟩))

/-- The live word of the LTC, JOB, CDC, SCR, NOZ, ZXL and VIS blocks. -/
def Dev.viewPrint (d : Dev) (a : Nat) : Option Word :=
  match a / 0x100000 with
  | 6 => (inBars a (Reg.LTC_BAR_STATUS 0) 64).map fun (b : Fin 12) =>
      (F.LTC_BAR_STATUS_RUN b).into ((F.LTC_BAR_STATUS_GATED b).into (d.rd a) (d.held b).toNat) (d.clocksRun && (d.bar b).cur.isSome).toNat
  | 7 => if a = Reg.JOB_USE then some (BitVec.ofNat 32 (d.useCount (d.get F.JOB_USE_Q_JOB) % 2 ^ 16)) else none
  | 8 => if a = Reg.CDC_STATUS then some d.cdcStatus else none
  | 9 =>
    if a = Reg.SCR_STATUS then some (BitVec.ofNat 32 ((d.halfRuns true).toNat * 2 + (d.halfRuns false).toNat))
    else (inBars a (Reg.SCR_BAR_STATUS 0) 64).map d.scrBarStatus
  | 10 =>
    match inRow Reg.NOZ_HEAD_ID_LO 4 9 a with
    | some i => some (d.headView i)
    | none => (inBars a (Reg.NOZ_BAR_STATUS 0) 32).map d.nozBarStatus
  | 11 => if a = Reg.ZXL_EXCL then
        some (BitVec.ofNat 32 ((headLanes.filter fun n => d.laneSt n = laneExcluded).foldl (fun (x : Nat) (n : Fin 18) => x + 2 ^ n.val) 0))
      else none
  | 12 => if a = Reg.VIS_STATUS then some d.visStatus else (inRow (Reg.VIS_VS_OUT 0) 32 4 a).map d.vsOut
  | _ => none

/-- The live word at a place, with the fields that units show as they stand. -/
def Dev.view (d : Dev) (a : Nat) : Word :=
  match a / 0x100000 with
  | 0 | 1 | 3 => (d.view0 a).getD (d.rd a)
  | 5 => (d.viewPos a).getD (d.rd a)
  | _ => (d.viewPrint a).getD (d.rd a)

/-! ### Reads -/

/-- The block whose window holds an offset (R4, R8). -/
def blkOf (a : Nat) : Nat := min 20 (a / 0x100000)

/-- The snapshot bits at a place: they read from the shadow (R437). -/
def snapMask (a : Nat) : Word := match findReg a with | some (r, _, _) => BitVec.ofNat 32 r.snap | none => 0

/-- The shadow of a place. -/
def Dev.shadowRd (d : Dev) (a : Nat) : Word := Sparse.get resetWord d.shadow a

/-- The word a read of BAR0 returns where its block answers; 0 where no register is defined (R4). -/
def Dev.readWord (d : Dev) (off : Nat) : Word :=
  match d.place (off / 4 * 4) with
  | none => 0
  | some a =>
    let m := snapMask a
    (d.shadowRd a &&& m) ||| (d.view a &&& ~~~m)

/-- A read of BAR0 by a master: 0 and REG_DOMAIN_OFF where the block does not answer (R16). -/
def Dev.hostRead (d : Dev) (off : Nat) : Dev × Word :=
  if !d.live 1 || d.frz.isSome then (d, 0)
  else if 0x1500000 ≤ off then (d, 0)
  else if d.on (blkOf off) then (d, d.readWord off)
  else (d.domainOff (blkOf off), 0)

/-- A read of `n` bytes of a register at a byte offset: the addressed bytes of the full word (R1). The table has no row for a PCIe read; the
transport reads whole words. -/
def Dev.hostReadBytes (d : Dev) (off n : Nat) : Dev × List (BitVec 8) :=
  let (d, v) := d.hostRead (off / 4 * 4)
  (d, ((bytesLE 4 v.toNat).drop (off % 4)).take n)

/-! ### The snapshot (R436, R438) -/

/-- The addresses of a row. -/
def RegDef.addrs (r : RegDef) : List Nat := (List.range r.n1).flatMap fun i => (List.range r.n2).map fun j => r.base + r.s1 * i + r.s2 * j

/-- Every place that has snapshot fields. -/
def snapAddrs : List Nat :=
  (((List.range 22).flatMap fun k => defsAt (k * 0x100000)).filter fun r => r.snap ≠ 0).flatMap RegDef.addrs

/-- The bar SYS_SNAP names is issuing lines. -/
def Dev.snapWaits (d : Dev) : Bool :=
  let b := d.get F.SYS_SNAP_BAR
  decide (b < 12) && d.linesRun && (d.bar (barOf b)).cur.isSome && !(d.bar (barOf b)).done

/-- SNAP_TAKE: a snapshot is requested; one that is pending serves both. -/
def Dev.snapRequest (d : Dev) : Dev :=
  if d.bit F.SYS_SNAP_PEND then d
  else ({ d with snap := { d.snap with at_ := d.now, ready := false, base := d.dpx.fired.toList.getD (d.get F.SYS_SNAP_BAR) 0 } } : Dev).set F.SYS_SNAP_PEND 1

/-- SNAP_AUTO: every PERIOD × 100 µs. -/
def Dev.snapAuto (d : Dev) : Dev :=
  let period := d.get F.SYS_SNAP_AUTO_PERIOD * 100000
  if period = 0 || decide (d.now < d.snap.autoAt + period) then d
  else ({ d with snap := { d.snap with autoAt := d.now } } : Dev).snapRequest

/-- Every block copies its snapshot fields, registers as the cycle began: what is counted in the cycle belongs to the next snapshot (R438).
Those of a domain that is powered down capture 0. -/
def Dev.captureAll (d : Dev) : List (Nat × Word) :=
  let d : Dev := { d with regs := d.was }
  snapAddrs.foldl (fun l a => Sparse.put resetWord l a (if d.doms[domAt a].st = .off then 0 else d.view a)) []

/-- The reference bar has fired a line since the request. -/
def Dev.snapFired (d : Dev) : Bool := d.bit F.SYS_SNAP_PEND && d.dpx.fired.toList.getD (d.get F.SYS_SNAP_BAR) 0 ≠ d.snap.base

/-- A cycle begins: a line fired in the one before lets the snapshot be captured (R436). -/
def Dev.snapTick (d : Dev) : Dev := { d with snap := { d.snap with ready := d.snapFired } }

/-- SNAP_CAPTURE: in the cycle after the reference bar's next fired line, or after 1 ms, or at once where the bar issues no lines. -/
def Dev.snapCapture (d : Dev) : Dev :=
  if !d.bit F.SYS_SNAP_PEND then d
  else if d.snapWaits && !d.snap.ready && decide (d.now < d.snap.at_ + 1000000) then d
  else (({ d with shadow := d.captureAll } : Dev).set F.SYS_SNAP_PEND 0).add F.SYS_SNAP_SEQ 1

end Sys2Proof.Machine
end

