-- ==== Sys2Proof/Machine/SwReset.lean ====
section
/-!
DEFINITION. Software resets and power requests (spec/16_bring_up.md, R375, R377, R378).
-/
namespace Sys2Proof.Machine

/-! ### Idle checks (R377): 0, or the reason of the refusal. They are made on the state before the cycle (R378) -/

/-- The block with its registers as the cycle began. -/
def Dev.before (d : Dev) : Dev := { d with regs := d.was, eff := d.shown.eff }

def Dev.ingestIdle (d : Dev) : Bool := (List.finRange 4).all fun (c : Fin 4) => !d.bit (F.JOB_ING_STATUS_RUN c)
def Dev.portsOff (d : Dev) : Bool := (List.finRange 4).all fun (p : Fin 4) => !d.effBit (F.VIS_CAM_CFG_EN p)

/-- Every lane of a domain is OFF, FAILED, EXCLUDED or in L2. -/
def Dev.lanesIdle (d : Dev) (p : Fin 12) : Bool :=
  ((List.finRange 18).filter fun (n : Fin 18) => laneDom n = p).all fun (n : Fin 18) => [laneOff, laneL2, laneFailed, laneExcluded].contains (d.laneSt n)

/-- The modes in which a domain's request is accepted. -/
def Dev.resetMode (d : Dev) (p : Fin 12) : Bool :=
  match p.val with
  | 4 | 5 | 6 | 7 => d.modeIn [.idle, .calibrate, .safe]
  | 8 | 9 => d.modeIn [.idle, .calibrate]
  | 10 => d.mode = .idle
  | _ => true

/-- The units of a domain have no work. -/
def Dev.domIdle (d : Dev) (p : Fin 12) : Bool :=
  match p.val with
  | 2 => d.ingestIdle && (List.finRange 2).all fun (e : Fin 2) => !d.bit (F.HST_EGR_STATUS_RUN e)
  | 4 => d.ingestIdle && !d.bit F.DRC_STATUS_FC_BUSY && ((List.range 2).all fun i => d.spareOf i ≠ 2)
           && (List.finRange 4).all fun (n : Fin 4) =>
                !((d.bit (F.VIS_CAM_CFG_M2M n) || d.effBit (F.VIS_CAM_CFG_RAWCOPY n)) && d.effBit (F.VIS_CAM_CFG_EN n))
  | 5 => d.shown.cdc = 0
  | 6 | 7 => !(if p.val = 7 then d.shown.east else d.shown.west) && (d.shown.vis.toNat % 32 = 0) && d.ingestIdle && !d.denOn
  | 8 => d.lanesIdle p && d.get F.DPX_STATUS_STATE = 0
  | 9 => d.lanesIdle p
  | 10 => !d.effBit F.LMP_CFG_EN && !d.bit F.LMP_PNL_CFG_EN && (List.range 32).all fun n => d.get (F.LTC_CMP_CFG_MODE n) = 0
  | 11 => d.portsOff && d.shown.vis = 0 && !d.denOn
  | _ => true

/-- A previous request is pending, or a transition is in progress (R378). -/
def Dev.resetBusy (d : Dev) : Bool := d.sys.trans.isSome || d.get F.RPC_SWRST_RESULT = 1 || d.get F.RPC_PWR_RESULT = 1

/-- The check of a request of DOMAIN reach, or of a power request. -/
def Dev.domReason (d : Dev) (via : Master) (dom : Nat) (power : Bool) : Nat :=
  if h : dom < 12 then
    let p : Fin 12 := ⟨dom, h⟩
    if dom < 2 || (power && dom = 10) then 5
    else if d.resetBusy then 3
    else if (dom = 2 && via == .pcie) || (dom = 3 && via == .net) then 4
    else if !d.resetMode p then 2
    else if !d.before.domIdle p then 1
    else 0
  else 5

/-- The target of a BLOCK reset, by its code: class and index. -/
inductive BlockTarget where
  | ingest (c : Fin 4) | crc (n : Fin 8) | port (p : Fin 4) | lane (n : Fin 18) | encoder (ch : Fin 4) | lampBus
  deriving DecidableEq, Repr

def blockTarget (code : Nat) : Option BlockTarget :=
  if h : code < 4 then some (.ingest ⟨code, h⟩)
  else if h : 0x10 ≤ code ∧ code - 0x10 < 8 then some (.crc ⟨code - 0x10, h.2⟩)
  else if h : 0x20 ≤ code ∧ code - 0x20 < 4 then some (.port ⟨code - 0x20, h.2⟩)
  else if h : 0x30 ≤ code ∧ code - 0x30 < 18 then some (.lane ⟨code - 0x30, h.2⟩)
  else if h : 0x50 ≤ code ∧ code - 0x50 < 4 then some (.encoder ⟨code - 0x50, h.2⟩)
  else if code = 0x60 then some .lampBus
  else none

def Dev.blockIdle (d : Dev) : BlockTarget → Bool
  | .ingest c => !d.bit (F.JOB_ING_STATUS_RUN c)
  | .crc n => !d.crcRun n
  | .port p => !d.effBit (F.VIS_CAM_CFG_EN p)
  | .lane n => [laneOff, laneFailed, laneExcluded].contains (d.laneSt n)
  | .encoder ch => !d.chEn ch
  | .lampBus => !d.effBit F.LMP_CFG_EN

def Dev.blockReason (d : Dev) (code : Nat) : Nat :=
  match blockTarget code with
  | none => 5
  | some t => if d.resetBusy then 3 else if d.before.blockIdle t then 0 else 1

/-! ### The resets -/

/-- The registers of a row of a block at their reset words. -/
def Dev.clearRow (d : Dev) (base len : Nat) : Dev :=
  let out (l : List (Nat × Word)) : List (Nat × Word) := l.filter fun x => ¬ (base ≤ x.1 ∧ x.1 < base + len)
  { d with regs := out d.regs, was := out d.was, eff := out d.eff }

/-- Reset of one unit (R377). -/
def Dev.blockReset (d : Dev) : BlockTarget → Dev
  | .ingest c => (d.clearRow (Reg.JOB_ING_BASE_LO c) 32).modIng c fun _ => {}
  | .crc n => (d.clearRow (Reg.CRC_U_CFG n) 128).setCrcRun n false |>.set ⟨Reg.CRC_STATUS, 8 + n.val, 1⟩ 0
  | .port p =>
    (((d.wr (Reg.VIS_CAM_ERR0 p) 0).wr (Reg.VIS_CAM_ERR1 p) 0).wr (Reg.VIS_CAM_EXCESS p) 0).wr (Reg.VIS_CAM_DROP p) 0
  | .lane n => (d.setLane n laneOff).modLane n fun _ => {}
  | .encoder ch => d.wr (Reg.POS_CH_RAW ch) 0
  | .lampBus => { d with lmp := { d.lmp with queue := [], sending := none, ask := none, respEnd := 0, due := none } }

/-- A refusal (R377). -/
def Dev.rstRefused (d : Dev) (power : Bool) (dom reason : Nat) : Dev :=
  let d := if power then (d.set F.RPC_PWR_RESULT 3).set F.RPC_PWR_REASON reason else (d.set F.RPC_SWRST_RESULT 3).set F.RPC_SWRST_REASON reason
  d.raise Ev.RST_REFUSED 15 none [dom, reason, power.toNat]

/-- A host request that a wide reset overtakes is refused with SUPERSEDED (R22). -/
def Dev.overtaken (d : Dev) : Dev :=
  match d.sys.trans with
  | some t => if t.host then d.refuseMode 3 else d
  | none => d

/-- SW_RESET: a pulse of RPC_SWRST.GO. -/
def Dev.swReset (d : Dev) (via : Master) (reach dom block : Nat) : Dev :=
  let d := (((d.set F.RPC_SWRST_REACH reach).set F.RPC_SWRST_DOM dom).set F.RPC_SWRST_BLOCK block).set F.RPC_SWRST_REASON 0
  let t := some (d.now + 10000)
  match reach with
  | 3 => (d.overtaken.selfRefresh.set F.RPC_SWRST_RESULT 1).wideReset 7 true t
  | 2 => (d.overtaken.selfRefresh.set F.RPC_SWRST_RESULT 1).wideReset 8 false t
  | 1 =>
    match d.domReason via dom false with
    | 0 =>
      let d := d.set F.RPC_SWRST_RESULT 1
      (if dom = 4 then d.selfRefresh else d).assertSrc 9 (2 ^ dom) t
    | r => d.rstRefused false dom r
  | _ =>
    match d.blockReason block, blockTarget block with
    | 0, some x =>
      let d := (d.set F.RPC_SWRST_RESULT 1).set ⟨Reg.RPC_CAUSE, 10, 1⟩ 1
      (d.blockReset x).modBoot fun b => { b with srcs := b.srcs ++ [{ bit := 10, mask := 0, block := some block, until_ := t }] }
    | r, _ => d.rstRefused false 0 r

/-- DOMAIN_POWER_DOWN and DOMAIN_POWER_UP: a pulse of RPC_PWR.GO. The memory enters self-refresh before PD4 goes (R329). -/
def Dev.power (d : Dev) (via : Master) (dom : Nat) (off : Bool) : Dev :=
  let d := ((d.setB F.RPC_PWR_OFF off).set F.RPC_PWR_DOM dom).set F.RPC_PWR_REASON 0
  match d.domReason via dom true with
  | 0 =>
    let p := barOf dom
    if off then
      let d := if dom = 4 then d.selfRefresh else d
      ((d.powerOff p).set F.RPC_PWR_RESULT 2).raise Ev.RST_DONE 15 none [dom, 0]
    else if d.doms[p].st = .off then (d.powerOn p).set F.RPC_PWR_RESULT 1
    else d.set F.RPC_PWR_RESULT 2
  | r => d.rstRefused true dom r

end Sys2Proof.Machine
end

