-- ==== Sys2Proof/Machine/Frz.lean ====
section
/-!
DEFINITION. Freeze (R414 to R417) and the TAP (R418, R419), of spec/18_integrity_and_debug.md.
-/
namespace Sys2Proof.Machine

/-! ### Freeze -/

/-- A reset of SYSTEM or DEVICE reach has asserted in this cycle, out of another mode than FROZEN. -/
def Dev.wideNow (d : Dev) : Bool := d.mode = .boot && match d.boot.wideAt with | some (t, _) => t = d.now | none => false

/-- A freeze request of the cycle of such a reset: FROZEN is entered first, its record is written, and then the reset holds (R417). -/
def Dev.freezeFirst (d : Dev) (src : Nat) : Dev :=
  match d.boot.wideAt with
  | some (_, f, up) =>
    let d : Dev := if up && !f.raw then { d with drc := { d.drc with selfRef := true } } else d
    (d.modBoot fun b => { b with wideAt := none }).freezeRecord { f with src := src }
  | none => d

/-- A freeze request from its source, 0 FREEZEn and 1 DBG_FREEZE (R414, R415): the AON latches capture; self-refresh unless RAW. In SLEEP,
and in SHUTDOWN once PD1 is off, only the record is left to make. -/
def Dev.freeze (d : Dev) (src : Nat) : Dev :=
  if d.boot.por || d.mode = .frozen || d.frz.isSome then d
  else if d.wideNow then d.freezeFirst src
  else
    let f := d.latched src (d.bit F.DBG_FREEZE_RAW_RAW)
    if d.mode = .sleep || (d.mode = .shutdown && !d.runs 1) then d.frozen f
    else
      let d := d.overtaken
      let d := if f.raw then d else d.selfRefresh
      let evs := match d.sys.trans with | some t => t.evs | none => []
      { d with sys := { d.sys with trans := some { dest := .frozen, cause := 0, host := false, at_ := d.now, evs := evs } }, frz := some f }

/-- DBG_FREEZE (R414): a wrong key is counted. -/
def Dev.dbgFreeze (d : Dev) (v : Word) : Dev :=
  if F.DBG_FREEZE_KEY.of v ≠ 0xF0E5 then d.addSat F.DBG_STATUS_BADKEY 1
  else if F.DBG_FREEZE_GO.of v = 1 then d.freeze 1
  else d

/-- FREEZE_STROBES_DONE: once every STB output is low. -/
def Dev.strobesDone (d : Dev) : Dev :=
  match d.frz with
  | some f => if d.stb.toList.any (·.high) then d else d.frozen f
  | none => d

/-! ### The TAP -/

def Dev.modJtag (d : Dev) (f : Jtag → Jtag) : Dev := { d with jtag := f d.jtag }

/-- An instruction is in effect: a reset that RSTREQ asserted releases, one that it requested is asserted (R371, R418). -/
def Dev.jtagIr (d : Dev) (code : Nat) (dr : JtagDr) (cap : Nat) : Dev :=
  let d := d.dropSrcs fun s => s.bit = 14
  let d := match d.jtag.rstReq with
    | some device => if d.boot.por then d else d.wideReset 14 device none
    | none => d
  d.modJtag fun j => { j with ir := code, dr := dr, cap := cap, rstReq := none, drives := 0 }

/-- The identity of stepping B0 (R418). -/
def idcode : Nat := 0x112805EB

def Dev.jtagIdcode (d : Dev) : Dev := d.jtagIr 0x01 .idcode idcode

/-- SAMPLE/PRELOAD: what the boundary register captures of the balls is not given. -/
def Dev.jtagSample (d : Dev) : Dev := (d.jtagIr 0x02 .boundary (d.free 64)).took

/-- EXTEST, CLAMP, HIGHZ: in FROZEN they take effect on the balls, elsewhere they select bypass. -/
def Dev.jtagDrive (d : Dev) (code : Nat) : Dev :=
  let d := d.jtagIr code .bypass 0
  if d.mode = .frozen then d.modJtag fun j => { j with drives := code - 2, dr := if code = 0x03 then .boundary else .bypass } else d

def Dev.jtagScansel (d : Dev) (k : Nat) : Dev := (d.jtagIr 0x10 .scanSel 0).modJtag fun j => { j with scanSel := k }

/-- SCANRD: the chain of the selected clock domain in FROZEN; what it holds follows the scan map, which the spec does not give. -/
def Dev.jtagScanrd (d : Dev) : Dev :=
  let d := d.jtagIr 0x11 (.scan d.jtag.scanSel) 0
  if d.mode = .frozen then (d.modJtag fun j => { j with cap := d.free 64 }).took else d

def Dev.jtagSramaddr (d : Dev) (mem addr : Nat) : Dev :=
  (d.jtagIr 0x20 .sramAddr 0).modJtag fun j => { j with sramMem := mem, sramAddr := addr }

/-- The 72 bits at a memory address: persistent words with their wear; memories 0 to 3 as `data` and `check` say; 0 for other codes. -/
def Dev.sramWord (d : Dev) (mem addr data check : Nat) : Nat :=
  match mem with
  | 0 | 1 | 2 | 3 => check * 2 ^ 64 + data
  | 4 => if addr < 8192 then check * 2 ^ 64 + d.get (F.PRS_WEAR_WRITES addr) * 2 ^ 32 + d.prsWord addr else check * 2 ^ 64 + data
  | _ => 0

/-- SRAMRD: in FROZEN the word at the address, which then increments; elsewhere 0. -/
def Dev.jtagSramrd (d : Dev) (data check : Nat) : Dev :=
  let d := d.jtagIr 0x21 .sram 0
  if d.mode = .frozen then
    d.modJtag fun j => { j with cap := d.sramWord j.sramMem j.sramAddr data check, sramAddr := (j.sramAddr + 1) % 2 ^ 32 }
  else d

def Dev.jtagRstreq (d : Dev) (device : Bool) : Dev := (d.jtagIr 0x40 .rstReq 0).modJtag fun j => { j with rstReq := some device }

def Dev.jtagBypass (d : Dev) : Dev := d.jtagIr 0xFF .bypass 0

/-- TEST_LOGIC_RESET: IDCODE is loaded; no ball is driven from the boundary register. -/
def Dev.testLogicReset (d : Dev) : Dev := d.modJtag fun j => { j with ir := 0x01, dr := .idcode, cap := idcode, drives := 0 }

end Sys2Proof.Machine
end

