-- ==== Sys2Proof/Machine/HostOps.lean ====
section
/-!
DEFINITION. What a host write of each kind of register does (R2, R6, R107, R112), and the host operations that reach several blocks: the
settings capture, the out banks, control registers with several pulses.
-/
namespace Sys2Proof.Machine

/-! ### Access codes (R2, R436) -/

/-- A W1C write clears the shadow of a snapshot field with the live bit (R436). -/
def Dev.shadowClear (d : Dev) (a : Nat) (m : Word) : Dev :=
  { d with shadow := Sparse.put resetWord d.shadow a (d.shadowRd a &&& ~~~(m &&& snapMask a)) }

/-- The low word of a pair whose high word lies at an address: the pair takes effect when the high word is written (R6). -/
def pairLow (a : Nat) : Option Nat :=
  if [Reg.SYS_ANCHOR_HI, Reg.JOB_SCHED_BASE_HI, Reg.JOB_TABLE_BASE_HI, Reg.LMP_COV_BASE_HI, Reg.PTP_SET_SEC_HI, Reg.HST_WIN_BASE_HI,
      Reg.HST_INT_EN_HI, Reg.HST_RT_NOTIFY_HI].contains a
      || (List.range 4).any (fun n => a = Reg.JOB_ING_BASE_HI n || a = Reg.VIS_CAM_BUF_HI n || a = Reg.PTP_ACT_SEC_HI n)
      || (List.range 2).any (fun e => a = Reg.HST_EGR_BASE_HI e)
      || (List.range 8).any (fun n => [Reg.CRC_U_POLY_HI n, Reg.CRC_U_INIT_HI n, Reg.CRC_U_XOROUT_HI n, Reg.CRC_U_EXPECT_HI n,
           Reg.CRC_U_ADDR_HI n].contains a)
  then some (a - 4) else none

/-- The staged registers of a write: a flat-field base is staged as a pair by its high word. -/
def stagedBy (a : Nat) : List Nat :=
  match (List.range 4).find? fun p => a = Reg.VIS_CAM_FF_LO p || a = Reg.VIS_CAM_FF_HI p with
  | some p => if a = Reg.VIS_CAM_FF_HI p then [Reg.VIS_CAM_FF_LO p, a] else []
  | none => [a]

/-- The configuration registers of a write: the base of the gain tables is a pair. -/
def configuredBy (a : Nat) : List Nat :=
  if a = Reg.SCR_GAIN_BASE_LO then [] else if a = Reg.SCR_GAIN_BASE_HI then [Reg.SCR_GAIN_BASE_LO, a] else [a]

def addNew (l m : List Nat) : List Nat := l ++ m.filter fun a => !l.contains a

/-- The bar whose gain selection or offset a staged word changes (R281). -/
def touchesGain (a : Nat) (old v : Word) : Option (Fin 12) :=
  match inBars a (Reg.SCR_BAR_CFG 0) 64, inBars a (Reg.SCR_BAR_TOFS 0) 64 with
  | some b, _ => if v.toNat / 2 ^ 4 % 4 ≠ old.toNat / 2 ^ 4 % 4 then some b else none
  | _, some b => if v ≠ old then some b else none
  | _, _ => none

/-- A write of RW, staged, configuration and W1C fields of a register by their access codes. -/
def Dev.plainWrite (d : Dev) (a : Nat) (v : Word) : Dev :=
  match findReg a with
  | none => d
  | some (r, _, _) =>
    let rw : Word := BitVec.ofNat 32 r.rw
    let old := d.rd a
    let gone := d.clears a (v &&& BitVec.ofNat 32 r.w1c)
    let new := ((old &&& ~~~rw) ||| (v &&& rw)) &&& ~~~gone
    let d := d.wr a new
    let d := if r.w1c = 0 then d else d.shadowClear a gone
    let d := match pairLow a with
      | some lo => (d.effWr lo (d.rd lo)).effWr a new
      | none => d
    let d := match (List.range 4).find? fun p => a = Reg.VIS_CAM_FF_HI p with
      | some p => d.effWr (ffLoAt p) (d.rd (Reg.VIS_CAM_FF_LO p))
      | none => if a = Reg.SCR_GAIN_BASE_HI then d.effWr gainLoAt (d.rd Reg.SCR_GAIN_BASE_LO) else d
    let d := if r.rws = 0 then d
      else
        let d : Dev := { d with job := { d.job with written := addNew d.job.written (stagedBy a) } }
        match touchesGain a old new with
        | some b => d.denHost b
        | none => d
    if isCfg a || (cmpCfgReg a).isSome then
      ({ d with job := { d.job with cfgWritten := addNew d.job.cfgWritten (configuredBy a) } } : Dev).set F.SYS_COMMIT_STATUS_CFG_PEND 1
    else d

/-- A bit of a written word. -/
def hit (f : Fld) (v : Word) : Bool := f.of v ≠ 0

/-! ### Sets of the density loop, and what follows a set (R264, R280, R294, R335) -/

/-- The GAINS record of a set that the loop has captured since its last one was `was`. -/
def Dev.loopRecord (d : Dev) (b : Fin 12) (was : Nat) : Dev :=
  let seq := d.get (F.DEN_BAR_LASTSET_SEQ b)
  if seq = was then d
  else
    let bank := (F.SCR_BAR_CFG_GAIN_BANK b).of (d.newestWord (Reg.SCR_BAR_CFG b))
    d.gainsRecord b bank seq ((d.set? seq).bind fun s => s.lines[b])

/-- Sets of the density loop that have applied on their bar (R280). -/
def Dev.ownApplied (d : Dev) : Dev :=
  d.den.ownSets.foldl (fun (d : Dev) t =>
    let b := barOf t.1
    let waits := (d.job.sets.any fun s => s.seq = t.2 && !Nat.testBit s.applied t.1) || (d.bar b).reach.any fun r => r.1 = t.2
    if waits then d else d.denOwn b t.2) d

/-- After a command that may have captured or applied a set: what follows the bars hears of it. -/
def Dev.hand (d : Dev) : Dev := d.ownApplied.handOver

/-- DEN_CAPTURE with its record. -/
def Dev.captureDen (d : Dev) (sets : Bool) (restores : List (Fin 12)) : Dev :=
  match d.den.upds with
  | [] => d
  | u :: _ => ((d.denCapture sets restores).loopRecord (barOf u.bar) (d.get (F.DEN_BAR_LASTSET_SEQ (barOf u.bar)))).hand

/-- DEN_RESTORE with its record. -/
def Dev.restoreDen (d : Dev) (b : Fin 12) : Dev := ((d.denRestore b).loopRecord b (d.get (F.DEN_BAR_LASTSET_SEQ b))).hand

/-! ### Jobs and settings -/

/-- SETTINGS_COMMIT: a pulse of SYS_COMMIT.SET; the safety net holds its sets in SHADOW (R107, R111, R343). -/
def Dev.settingsCommit (d : Dev) : Dev :=
  let d : Dev := { d with den := { d.den with setAt := some d.now } }
  if d.mode = .shadow then d.holdSet
  else
    let touched := d.writtenFields.filterMap fun f => touchesGain f.1 (d.newestWord f.1) f.2
    let (d, s) := d.capture setModes
    match s with
    | none => d
    | some s => (((touched.foldl (fun (d : Dev) b => d.denHost b) d).placeSet s).setRecord s).handOver

/-- SCHED_TAIL_WRITE; ignored in SHADOW (R336). -/
def Dev.tailWrite (d : Dev) (v : Word) : Dev := if d.mode = .shadow then d else d.schedTail v

/-- The pulses of JOB_CTL; ignored in SHADOW (R336). -/
def Dev.jobReset (d : Dev) : Dev := if d.mode = .shadow then d else d.schedReset
def Dev.jobBreak (d : Dev) (more : List (Nat × Nat)) : Dev := if d.mode = .shadow then d else (d.breakSched more).refindLines

/-- JOB_ING CTL: EN, VEC and TMO; a write with EN = 1 restarts a stopped channel (R106). -/
def Dev.ingCtl (d : Dev) (c : Fin 4) (v : Word) : Dev :=
  let d := d.plainWrite (Reg.JOB_ING_CTL c) v
  if hit (F.JOB_ING_CTL_EN c) v then d.ingestRestart c else d

/-- OUT_BANK_WRITE; the window is ignored in SHADOW, and what is applied is mirrored (R166, R335, R336). -/
def Dev.outBank (d : Dev) (b : Fin 12) (bank : Nat) (i : Option Nat) (v : Word) : Dev :=
  if d.mode = .shadow && i.isSome then d
  else if d.outBusy b bank then d.outBankWrite b bank i v
  else
    let a := match i with | some i => Reg.NOZ_OUT_WIN (2 * b.val + bank) i | none => if bank = 0 then Reg.NOZ_BAR_OUTN0 b else Reg.NOZ_BAR_OUTN1 b
    (d.outBankWrite b bank i v).nozRecord [(a, v)]

/-- LIFE_SAVE (R174). -/
def Dev.lifeSaveAll (d : Dev) : Dev := d.saveHeads 0

/-- LIFE_PERSIST: head counts and lamp on-seconds, every 30 minutes (R174, R299). -/
def Dev.lifePersistAll (d : Dev) : Dev :=
  if d.noz.lastPersist + 1800000000000 ≤ d.now then d.lifePersist.hoursSave else d

/-- STB_CUT_CLEAR. -/
def Dev.stbClear (d : Dev) (m : Word) : Dev :=
  let gone := d.clears Reg.LTC_STB_STATUS m
  (d.stbCutClear gone).shadowClear Reg.LTC_STB_STATUS gone

/-- FVEC_CLEAR. -/
def Dev.vecClear (d : Dev) (w : Nat) (m : Word) : Dev :=
  let c := d.get F.ZXL_FSEL_CLASS
  let gone := d.clears (Reg.ZXL_FVEC c w) m
  (d.fvecClear w gone).shadowClear (Reg.ZXL_FVEC c w) gone

/-- EQ_WRITE: MODE and MU of EQ act at once; CTLE and the taps in MODE 2 only (R191). An unchanged CTLE is no write of it. -/
def Dev.eqReg (d : Dev) (n : Fin 18) (which : Fin 3) (v : Word) : Dev :=
  if which = 0 then
    let d := (d.set (F.ZXL_LANE_EQ_MODE n) ((F.ZXL_LANE_EQ_MODE n).of v)).set (F.ZXL_LANE_EQ_MU n) ((F.ZXL_LANE_EQ_MU n).of v)
    let d := d.modLane n fun l => { l with modeAt := some d.now }
    if (F.ZXL_LANE_EQ_CTLE n).of v = d.get (F.ZXL_LANE_EQ_CTLE n) then d else d.eqWrite n 0 v
  else d.eqWrite n which v

/-- ZXL_ECMD: one command at a time; a bar above 11 names none. -/
def Dev.ecmdReg (d : Dev) (v : Word) : Dev :=
  let ep := F.ZXL_ECMD_EP.of v
  let reg := F.ZXL_ECMD_REG.of v
  match F.ZXL_ECMD_OP.of v with
  | 1 => d.ecmdRead ep reg
  | 2 => d.ecmdWrite ep reg
  | 3 => if ep < 12 then d.ecmdBroadcast (barOf ep) reg else d
  | _ => if d.zxl.ecmd.isSome then d else d.plainWrite Reg.ZXL_ECMD v

/-! ### Integrity, persistent words, temperature -/

/-- A write to a register of a check-value unit by its offset in the unit (R405, R406). Of several pulses in one write FINISH acts before ABORT,
and either alone where it stops the unit (DESIGN CHOICE, log 71). RESULT and COUNT are read-only, and above them no
register is defined (R2, R4). -/
def Dev.crcReg (d : Dev) (n : Fin 8) (off : Nat) (v : Word) : Dev :=
  let a := Reg.CRC_U_CFG n + off
  match off with
  | 0x04 =>
    if v.getLsbD 2 && d.crcRun n && d.crcSrc n = 0 then d.crcFinish n
    else if v.getLsbD 3 && d.crcRun n then
      let fed := d.free 32
      let tile := (List.range (d.crcLen n)).map fun i => BitVec.ofNat 8 (Config.freeValue (d.fresh + 1 + i))
      { d.crcAbort n fed tile with fresh := d.fresh + 1 + d.crcLen n }
    else if v.getLsbD 0 then d.crcStart n true
    else if v.getLsbD 1 then d.crcStart n false
    else d
  | 0x38 => d.crcStream n (bytesLE 4 v.toNat)
  | 0x3C => d.crcStream n (bytesLE 1 v.toNat)
  | 0x08 => d.plainWrite a v
  | _ =>
    if !(off = 0x00 || off = 0x0C || (decide (0x10 ≤ off) && decide (off ≤ 0x34)) || off = 0x40 || off = 0x44) then d
    else if d.crcRun n then d.crcWerr n
    else if off = 0x30 then d.effWr a v
    else if off = 0x34 then (d.wr (a - 4) (d.effRd (a - 4))).wr a v
    else d.plainWrite a v

/-- A host write of a persistent word whose read-back check is open. -/
def Dev.prsReg (d : Dev) (w : Nat) (v : Word) : Dev := (d.prsHostWrite w v (d.free 1 = 1)).took

/-- An extra sample whose counts are open (R394). -/
def Dev.sampleOpen (d : Dev) (waits : Bool) : Dev :=
  let cs := (List.range 16).map fun i => Config.freeValue (d.fresh + i) % 2 ^ 16
  ({ d with fresh := d.fresh + 16 } : Dev).thmSample cs waits

/-! ### Time -/

/-- PTP_ACT CTL: CANCEL, then ARM with the target written (R361). -/
def Dev.actReg (d : Dev) (a : Fin 4) (v : Word) : Dev :=
  let t := (F.PTP_ACT_CTL_TARGET a).of v
  let d := if hit (F.PTP_ACT_CTL_CANCEL a) v then d.actionCancel a else d
  if hit (F.PTP_ACT_CTL_ARM a) v then d.actionArm a t else d.set (F.PTP_ACT_CTL_TARGET a) t

def Dev.ptpClear (d : Dev) : Dev := d.zeroCounts [F.PTP_RXDROP_COUNT]

/-- The pulses of PTP_CTL. -/
def Dev.ptpReg (d : Dev) (v : Word) : Dev :=
  let d := if hit F.PTP_CTL_SET_TIME v then d.setTime else d
  let d := if hit F.PTP_CTL_CAPTURE v then d.timeCapture else d
  if hit F.PTP_CTL_CNT_CLR v then d.ptpClear else d

end Sys2Proof.Machine
end

