-- ==== Sys2Proof/Machine/PosCmd.lean ====
section
/-!
DEFINITION. The commands of the position block (spec/02_web_position.md, R28 to R59, R466): register writes of its own rows,
samples and edges of the channels, serial words, windows and trimming.
-/
namespace Sys2Proof.Machine

/-- POS_SET_REFUSED with the register offset (R28, R46, R59). DESIGN CHOICE (log 61): no channel applies, and the source stands in word
0x20. -/
def Dev.posRefused (d : Dev) (off : Nat) : Dev := d.raise Ev.POS_SET_REFUSED 15 none [d.src.val, off]

/-- A channel that is newly enabled starts afresh: no word, no index reference, no phase (R39, R41, R466). DESIGN CHOICE (log 61): the
accepted levels of A, B and Z stay as they were. -/
def Dev.chStart (d : Dev) (ch : Fin 4) : Dev :=
  d.posCh ch fun c => { c with phase := none, moved := 0, lag := 0, since := d.now, ref := none, idxDue := false, reqAt := none,
                               defer := false, ssi := none, word := none, silent := 0, low := 0, high := 0 }

/-- POS_CFG, POS_SCALE_LO and POS_SCALE_HI (R28); the pair acts at its high word (R6). -/
def Dev.posCfgWrite (d : Dev) (off : Nat) (v : Word) : Dev :=
  if off ≠ 0 ∧ off ≠ 0x30 ∧ off ≠ 0x34 then d
  else if !d.modeIn [.idle, .calibrate] then d.posRefused off
  else if off = 0 then
    let en := v.toNat / 2 ^ 8 % 16
    let src := v.toNat % 4
    if !Nat.testBit en src then d.posRefused 0
    else
      let fresh := (List.finRange 4).filter fun ch : Fin 4 => Nat.testBit en ch.val && !d.chEn ch
      let d : Dev := if src = d.src.val then d else { d with pos := { d.pos with extrap := none } }
      fresh.foldl Dev.chStart (d.wr Reg.POS_CFG (BitVec.ofNat 32 (en * 2 ^ 8 + src)))
  else if off = 0x30 then d.wr Reg.POS_SCALE_LO v
  else
    let hi : Word := BitVec.ofNat 32 (v.toNat % 2 ^ 8)
    ((d.wr Reg.POS_SCALE_HI hi).effWr Reg.POS_SCALE_LO (d.rd Reg.POS_SCALE_LO)).effWr Reg.POS_SCALE_HI hi

/-! ### Analog channels (R30, R31) -/

def chOf2 (n : Fin 2) : Fin 4 := ⟨n.val, by omega⟩

/-- A trimmed sample and the motion of the signal enter the running measurement of a channel (R53). -/
def Dev.measSample (d : Dev) (n : Fin 2) (t : Int × Int) (step : Int) : Dev :=
  { d with pos := { d.pos with meas := d.pos.meas.set n (d.pos.meas[n].map fun m => { m.sample t with turned := m.turned + step }) } }

/-- The motion of a channel in 1/4,096 period, `n` of it new and `per` whole periods (R30, R31, R54): the count follows it; while AMP_LOW is
set it holds; while fine interpolation stops only whole periods count. What is held back is counted when that ends. -/
def Dev.follow (d : Dev) (ch : Fin 4) (n per : Int) (stopped : Bool) : Dev :=
  let lag := d.pos.ch[ch].lag + n
  let take := if d.bit (F.POS_CH_STATUS_AMP_LOW ch) then 0 else if stopped then 4096 * per else lag
  (d.posCh ch fun x => { x with moved := x.moved + n, lag := lag - take }).count ch take

/-- A sample pair of 100 ns, in units of 0.1 mV: the runs of samples out of range (R31), whole periods on the untrimmed pair, and the phase
of the trimmed pair (R30). DESIGN CHOICE (log 61): the first sample after the channel is enabled sets the phase, and the raw counter keeps
its value. -/
def Dev.analogSample (d : Dev) (n : Fin 2) (s c : Int) : Dev :=
  let ch := chOf2 n
  if !d.chRuns ch then d
  else
    let r2 := s * s + c * c
    let low := decide (r2 < 3000 * 3000)
    let high := decide (6500 * 6500 < r2)
    let d := d.posCh ch fun x => { x with low := if low then x.low + 1 else 0, high := if high then x.high + 1 else 0 }
    let d := if low then d else d.set (F.POS_CH_STATUS_AMP_LOW ch) 0
    let d := if high then d else d.set (F.POS_CH_STATUS_AMP_HIGH ch) 0
    let t := trimmed (d.rd (Reg.POS_TRIM_ACT n)) s c
    if r2 = 0 || t = (0, 0) then d.measSample n t 0
    else
      let u := phaseOf s c
      let fine := sext 12 (phaseOf t.1 t.2 + 4096 - u)
      let x := d.pos.ch[ch]
      let d := d.posCh ch fun x => { x with phase := some u, fine := fine }
      match x.phase with
      | none => d.measSample n t 0
      | some o =>
        let step := phaseStep o u
        (d.measSample n t step).follow ch (step + fine - x.fine) ((step - ((u : Int) - o)) / 4096) d.pos.applying[n].isSome

/-- The 16th consecutive sample out of range begins an episode (R31). -/
def Dev.amplitudeEpisode (d : Dev) (ch : Fin 4) (high : Bool) : Dev :=
  let run := if high then d.pos.ch[ch].high else d.pos.ch[ch].low
  let f := if high then F.POS_CH_STATUS_AMP_HIGH ch else F.POS_CH_STATUS_AMP_LOW ch
  if d.chRuns ch && decide (16 ≤ run) && !d.bit f then (d.set f 1).fault ch .amp else d

/-! ### Index (R40 to R42) -/

/-- Re-home a channel by a correction in counts: the counter, and for the source the web coordinate and the mark together. -/
def Dev.rehome (d : Dev) (ch : Fin 4) (corr : Int) : Dev :=
  let nm := corr * d.scale
  let d := d.wr (Reg.POS_CH_RAW ch) (BitVec.ofInt 32 ((d.rd (Reg.POS_CH_RAW ch)).toNat + corr))
  let d := if d.src = ch then
      let d := d.webShift nm
      { d with pos := { d.pos with hwm := (((d.pos.hwm : Int) + nm) % (webFull : Int)).toNat } }
    else d
  (d.set ⟨Reg.POS_IDX_REHOME, ch.val, 1⟩ 0).raise Ev.INDEX_REHOMED 15 none [ch.val, unsext 32 corr, unsext 32 (nm / 2 ^ 24)]

/-- An index check against the expected count: the error, and a deviation counted against its own limit (R41). -/
def Dev.indexCheck (d : Dev) (ch : Fin 4) (err : Int) : Dev :=
  let d := d.wr (Reg.POS_CH_IDXERR ch) (BitVec.ofInt 32 err)
  if d.get (F.POS_CH_IDXCTL_TOL ch) < err.natAbs then
    let d := d.counted (F.POS_CH_IDXDEV_DEV ch)
    let n := d.get (F.POS_CH_IDXDEV_DEV ch)
    if d.get (F.POS_CH_IDXCTL_LIMIT ch) < n && !d.pos.ch[ch].idxRaised then
      (d.posCh ch fun c => { c with idxRaised := true }).encFault ch (2 ^ 15) n
    else d
  else d

/-- An active index edge captures the count, checks it and re-homes an armed channel. -/
def Dev.index (d : Dev) (ch : Fin 4) : Dev :=
  if !d.bit (F.POS_CH_IDXCTL_EN ch) then d
  else
    let raw := (d.rd (Reg.POS_CH_RAW ch)).toNat
    let d := d.wr (Reg.POS_IDX_SEEN ch) (BitVec.ofNat 32 raw)
    let per := d.get (F.POS_CH_IDXPER_PERIOD ch)
    let c := d.pos.ch[ch]
    match c.ref with
    | some r =>
      if per = 0 then d.posCh ch fun x => { x with ref := some raw }
      else
        let want := unsext 32 (if c.back then (r : Int) - per else (r : Int) + per)
        let err := sext 32 (raw + 2 ^ 32 - want)
        let d := d.indexCheck ch err
        if d.bit ⟨Reg.POS_IDX_REHOME, ch.val, 1⟩ then
          (d.rehome ch (-err)).posCh ch fun x => { x with ref := some want }
        else d.posCh ch fun x => { x with ref := some raw }
    | none => d.posCh ch fun x => { x with ref := some raw }

/-- The index level is the active one (R35). -/
def Dev.idxActive (d : Dev) (ch : Fin 4) (level : Bool) : Bool := level != d.bit (F.POS_CH_CFG_IDX_POL ch)

/-- An active index edge: it is taken after an edge of the same cycle that waits (R40). -/
def Dev.indexDue (d : Dev) (ch : Fin 4) (wait : Bool) : Dev := if wait then d.posCh ch fun c => { c with idxDue := true } else d.index ch

/-- After the last edge of the cycle the index that waited for it is taken (R40). -/
def Dev.indexTake (d : Dev) (ch : Fin 4) (wait : Bool) : Dev :=
  if d.pos.ch[ch].idxDue && !wait then (d.posCh ch fun c => { c with idxDue := false }).index ch else d

/-- A level of an index input; the filter of R33 applies to the quadrature channels. -/
def Dev.indexEdge (d : Dev) (ch : Fin 4) (level wait : Bool) : Dev :=
  if !d.chRuns ch || (2 ≤ ch.val && d.get (F.POS_CH_CFG_MODE ch) = 1) then d
  else
    let minsp := if ch.val < 2 then 0 else d.get (F.POS_CH_CFG_MINSP ch)
    let (l, acc, spc) := d.pos.ch[ch].z.sample minsp d.now level
    let d := d.posCh ch fun c => { c with z := l }
    let d := if spc then d.fault ch .glitch else d
    if acc && d.idxActive ch level then d.indexDue ch wait else d

/-! ### Quadrature (R32 to R34) -/

def Dev.isQuad (d : Dev) (ch : Fin 4) : Bool := d.chRuns ch && decide (2 ≤ ch.val) && d.get (F.POS_CH_CFG_MODE ch) = 0

/-- Sampled levels of A and B. The motion comes first, then spacing faults (R51). -/
def Dev.quadEdge (d : Dev) (ch : Fin 4) (a b : Bool) : Dev :=
  if !d.isQuad ch then d
  else
    let minsp := d.get (F.POS_CH_CFG_MINSP ch)
    let c := d.pos.ch[ch]
    let (la, accA, spcA) := c.a.sample minsp d.now a
    let (lb, accB, spcB) := c.b.sample minsp d.now b
    let d := (d.posCh ch fun c => { c with a := la, b := lb }).quadDecode ch accA accB
    let d := if spcA then d.fault ch .glitch else d
    if spcB then d.fault ch .glitch else d

/-- A line still differs from its accepted level and its spacing has passed (R33). -/
def Line.elapsed (l : Line) (minsp now : Nat) : Bool := l.last != l.acc && decide (l.at_ + minsp * 10 ≤ now)

/-- The line once its change is accepted. -/
def Line.take (l : Line) (now : Nat) : Line := { acc := l.last, at_ := now, last := l.last }

/-- The spacing of a line has elapsed with the line still changed: the change is accepted (R33), with that of the other line of the pair
where its spacing has passed too (R34). `line` 0 is A, 1 B, 2 Z; `wait` as in `indexDue`. -/
def Dev.minspElapsed (d : Dev) (ch : Fin 4) (line : Fin 3) (wait : Bool) : Dev :=
  if !d.isQuad ch then d
  else
    let minsp := d.get (F.POS_CH_CFG_MINSP ch)
    let c := d.pos.ch[ch]
    if line = 2 then
      if !c.z.elapsed minsp d.now then d
      else
        let d := d.posCh ch fun c => { c with z := c.z.take d.now }
        if d.idxActive ch c.z.last then d.indexDue ch wait else d
    else
      let a := c.a.elapsed minsp d.now
      let b := c.b.elapsed minsp d.now
      if !(if line = 0 then a else b) then d
      else
        (d.posCh ch fun c => { c with a := if a then c.a.take d.now else c.a, b := if b then c.b.take d.now else c.b }).quadDecode ch a b

/-! ### Serial words (R36 to R39) -/

def Dev.isSsi (d : Dev) (ch : Fin 4) : Bool := d.chRuns ch && decide (2 ≤ ch.val) && d.get (F.POS_CH_CFG_MODE ch) = 1

/-- PERIOD in ns: 10 to 10,000 units of 100 ns (R38, R58). -/
def Dev.ssiPeriodNs (d : Dev) (ch : Fin 4) : Nat := clampN 10 10000 (d.get (F.POS_CH_SSI_TIME_PERIOD ch)) * 100

/-- The next request of a channel is due: a period after the one before it, and at any time after the channel is enabled. -/
def Dev.ssiDue (d : Dev) (ch : Fin 4) : Bool := match d.pos.ch[ch].reqAt with | some t => decide (t + d.ssiPeriodNs ch ≤ d.now) | none => true

/-- The request of a period (R38): deferred during a transfer, and until two clock periods after the transfer before it; NO_WORD after four
periods (R39). DESIGN CHOICE (log 61): a request whose predecessor still waits for the data line adds none. -/
def Dev.ssiRequest (d : Dev) (ch : Fin 4) : Dev :=
  if !(d.isSsi ch && d.ssiDue ch) then d
  else
    let c := d.pos.ch[ch]
    let d := if 4 ≤ c.silent then d.set (F.POS_CH_STATUS_NO_WORD ch) 1 else d
    let due := match c.reqAt with | some t => t + d.ssiPeriodNs ch | none => d.now
    d.posCh ch fun c => { c with silent := c.silent + 1, reqAt := some due,
                                 defer := c.defer || (match c.ssi with | some r => r.run.isSome | none => false),
                                 ssi := match c.ssi with
                                   | some r => some r
                                   | none => some { at_ := max d.now (c.ssiEnd + 2 * d.ssiClk ch) } }

/-- TIMEOUT in ns, at least one unit. -/
def Dev.ssiTimeoutNs (d : Dev) (ch : Fin 4) : Nat := max 1 (d.get (F.POS_CH_SSI_TIME_TIMEOUT ch)) * 100

/-- The data line is high: the transfer starts with a falling edge of ENCn_CK, also in the cycle in which the timeout expires (R36, R38). -/
def Dev.ssiStart (d : Dev) (ch : Fin 4) : Dev :=
  match d.pos.ch[ch].ssi with
  | some r =>
    if d.isSsi ch && r.run.isNone && decide (r.at_ ≤ d.now) && decide (d.now ≤ r.at_ + d.ssiTimeoutNs ch) then
      d.posCh ch fun c => { c with ssi := some { r with run := some d.now } }
    else d
  | none => d

/-- The data line was not high in time: the word is lost. -/
def Dev.ssiTimeout (d : Dev) (ch : Fin 4) : Dev :=
  match d.pos.ch[ch].ssi with
  | some r =>
    if d.isSsi ch && r.run.isNone && decide (r.at_ + d.ssiTimeoutNs ch ≤ d.now) then
      (d.posCh ch fun c => { c with ssi := none }).fault ch .timeout
    else d
  | none => d

/-- A valid word is accepted: the first sets the counter, a later one moves it by the difference (R39). -/
def Dev.ssiAccept (d : Dev) (ch : Fin 4) (w : Nat) : Dev :=
  let n := d.ssiBits ch
  let ok (d : Dev) : Dev := (d.posCh ch fun c => { c with word := some w, silent := 0 }).set (F.POS_CH_STATUS_NO_WORD ch) 0
  match d.pos.ch[ch].word with
  | none => (ok d).wr (Reg.POS_CH_RAW ch) (BitVec.ofNat 32 w)
  | some old =>
    let diff := halfRange n w old
    let step := d.get (F.POS_CH_SSI_MAXSTEP_STEP ch)
    if step ≠ 0 ∧ step < diff.natAbs then d.fault ch .jump else (ok d).count ch diff

/-- The transfer is over: a request that came during it follows two clock periods later (R38). -/
def Dev.ssiEnd (d : Dev) (ch : Fin 4) (end_ : Nat) : Dev :=
  d.posCh ch fun c => { c with ssi := if c.defer then some { at_ := end_ + 2 * d.ssiClk ch } else none, defer := false, ssiEnd := end_ }

/-- A completed transfer: the bits as sampled, as one number, the first the most significant (R36). LEAD bits are discarded, then come position and check
bits. The word enters LATENCY after the first falling edge of the clock (R47), which is one clock period and 100 ns after its last bit. -/
def Dev.ssiWord (d : Dev) (ch : Fin 4) (word : Nat) : Dev :=
  match d.pos.ch[ch].ssi with
  | some { run := some t, .. } =>
    if d.isSsi ch && decide (t + d.latency ch ≤ d.now) then
      let n := d.ssiBits ch
      let pos := word / 2 ^ d.ssiChkLen ch % 2 ^ n
      let ok := d.ssiCheck ch pos (word % 2 ^ d.ssiChkLen ch)
      let d := d.ssiEnd ch (t + (d.ssiLen ch + 1) * d.ssiClk ch)
      if ok then d.ssiAccept ch (if d.bit (F.POS_CH_SSI_GRAY ch) then grayToBin n pos else pos) else d.fault ch .check
    else d
  | _ => d

/-! ### The web coordinate and the windows (R46, R48, R52, R466) -/

/-- A trim interruption goes on from a coordinate that has just been set: only motion from now on counts (R46, R54). -/
def Dev.extrapSet (d : Dev) : Dev :=
  match d.pos.extrap with
  | none => d
  | some e =>
    let ch : Fin 4 := ⟨e.ch % 4, Nat.mod_lt _ (by decide)⟩
    let lag := if d.bit (F.POS_CH_CFG_INVERT ch) then -d.pos.ch[ch].lag else d.pos.ch[ch].lag
    { d with pos := { d.pos with extrap := some { e with start := d.now, moved := 0, acc := -(lag * d.scale) } } }

/-- A write of POS_WEB_SET_HI: coordinate and mark take the pair (R46). -/
def Dev.webSet (d : Dev) (hi : Word) : Dev :=
  if d.modeIn [.idle, .ready, .calibrate] then
    let h : Word := BitVec.ofNat 32 (hi.toNat % 2 ^ 16)
    let d := d.wr Reg.POS_WEB_SET_HI h
    let w := (d.rd Reg.POS_WEB_SET_LO).toNat + h.toNat * 2 ^ 32
    ({ d with pos := { d.pos with web := w * 2 ^ 24, hwm := w * 2 ^ 24, setAt := some d.now } } : Dev).extrapSet
  else d.posRefused 0x1C

/-- The part of a speed window of ns in which a channel has been enabled (R466). -/
def Dev.windowPart (d : Dev) (ch : Fin 4) (ns : Nat) : Nat := d.pos.speedStart + ns - max d.pos.speedStart d.pos.ch[ch].since

/-- The over-speed check of an analog channel over one speed window of ns, or the part of it since the channel was enabled
(R31, R466). -/
def Dev.overSpeed (d : Dev) (ch : Fin 4) (ns : Nat) : Dev :=
  let m := d.pos.ch[ch].moved.natAbs * 1000000000
  let lim := 500000 * 4096 * d.windowPart ch ns
  if !d.chEn ch then d
  else if lim < m then (d.set (F.POS_CH_STATUS_OVERSPEED ch) 1).fault ch .excess
  else if m < lim then d.set (F.POS_CH_STATUS_OVERSPEED ch) 0
  else d

/-- The end of a speed window: POS_SPEED, DIR, STABLE, over-speed, and the next window. -/
def Dev.speedWindowEnd (d : Dev) : Dev :=
  let ns := speedWinNs d.pos.speedWin
  if d.now < d.pos.speedStart + ns then d
  else
    let v := speedOf d.pos.acc ns
    let mag := min 0xFFFFFFFF v.natAbs
    let hist := ((mag, decide (v < 0)) :: d.pos.hist).take 16
    let d := ((d.set F.POS_SPEED_SPEED mag).setB F.POS_STATUS_DIR (v < 0)).setB F.POS_STATUS_STABLE (stable hist (d.get F.POS_STABLE_TOL))
    let d := (d.overSpeed 0 ns).overSpeed 1 ns
    { d with pos := { d.pos with acc := d.pos.accNext, accNext := 0, hist := hist, speedPrev := d.pos.speedStart, speedStart := d.pos.speedStart + ns, speedWin := d.get F.POS_SPEED_WIN_WIN,
                                 ch := updAll d.pos.ch fun _ c => { c with moved := 0 } } }

/-- The end of a fault window: every channel's counts restart. -/
def Dev.faultWindowEnd (d : Dev) : Dev :=
  let ns := faultWinNs d.pos.faultWin
  if d.now < d.pos.faultStart + ns then d
  else
    { d with pos := { d.pos with faultStart := d.pos.faultStart + ns, faultWin := d.get F.POS_FLT_WIN_MS,
                                 ch := updAll d.pos.ch fun _ c => { c with win := {} } } }

/-- POS_CTL.CNT_CLR: every cumulative fault counter and IDXDEV; an increment of the same cycle stands (R52). -/
def Dev.posCntClr (d : Dev) : Dev :=
  let d := (d.wr Reg.POS_ILLEGAL 0).wr Reg.POS_GLITCH 0
  let d := (List.finRange 4).foldl (fun d ch =>
    ((((d.wr (Reg.POS_CH_SSI_ERR ch) 0).wr (Reg.POS_CH_SSI_JUMP ch) 0).wr (Reg.POS_CH_ANA_ERR ch) 0).wr (Reg.POS_CH_IDXDEV ch) 0)) d
  let d := (if d.pos.incAt = d.now then d.pos.incs else []).foldl (fun (d : Dev) f => d.addSat ⟨f.1, f.2.1, f.2.2⟩ 1) d
  { d with pos := { d.pos with ch := updAll d.pos.ch fun _ c => { c with idxRaised := false } } }

/-! ### Trimming (R53 to R56) -/

/-- STAT.BUSY: measuring or applying. -/
def Dev.trimBusy (d : Dev) (n : Fin 2) : Dev := d.setB (F.POS_TRIM_STAT_BUSY n) (d.pos.meas[n].isSome || d.pos.applying[n].isSome)

/-- A pulse of MEASURE: a measurement over PERIODS signal periods, at least 4,096, starts or restarts (R53). -/
def Dev.trimMeasure (d : Dev) (n : Fin 2) : Dev :=
  let need := 4096 * max 4096 (d.get (F.POS_TRIM_CTL_PERIODS n))
  let d : Dev := { d with pos := { d.pos with meas := d.pos.meas.set n (some { need := need }) } }
  (d.set (F.POS_TRIM_STAT_DONE n) 0).trimBusy n

/-- The measurement over a number of signal periods completes once the signal has moved by them: corrective codes added to those in effect,
limited to ±127 (R53). -/
def Dev.trimDone (d : Dev) (n : Fin 2) (periods : Nat) : Dev :=
  match d.pos.meas[n] with
  | some { need := need, turned := turned, ext := some e } =>
    if need ≠ 4096 * periods || decide (turned.natAbs < need) then d
    else
      let act := d.rd (Reg.POS_TRIM_ACT n)
      let (a, b, g, p) := trimCodes e (d.free 8)
      let sums := [a + trimOf act 0, b + trimOf act 1, g + trimOf act 2, p + trimOf act 3]
      let c := sums.map (clampI (-127) 127)
      let amp := roundDiv (peakOf e[0] + peakOf e[1] : Nat) (20 * 2 ^ 16)
      let d := if peakOf e[0] = 0 then d.took else d
      let d := d.wr (Reg.POS_TRIM_MEAS n) (trimWord (c.getD 0 0) (c.getD 1 0) (c.getD 2 0) (c.getD 3 0))
      let d := ((d.setB (F.POS_TRIM_STAT_SAT n) (c ≠ sums)).set (F.POS_TRIM_STAT_DONE n) 1).set (F.POS_TRIM_STAT_AMP n) amp.toNat
      let d : Dev := { d with pos := { d.pos with meas := d.pos.meas.set n none } }
      (d.trimBusy n).raise Ev.TRIM_DONE 15 none [n.val]
  | _ => d

/-- A pulse of APPLY: allowed in CALIBRATE, and in PRINT while STABLE. The codes act on samples from now on, fine interpolation stops, and
the coordinate of a source channel advances at the last measured speed (R54). -/
def Dev.trimApply (d : Dev) (n : Fin 2) : Dev :=
  if d.mode = .calibrate || (d.mode = .print && d.bit F.POS_STATUS_STABLE) then
    let v := d.rd (if d.bit (F.POS_TRIM_CTL_USE_HOST n) then Reg.POS_TRIM_HOST n else Reg.POS_TRIM_MEAS n)
    let d := (d.wr (Reg.POS_TRIM_ACT n) v).set (F.POS_TRIM_STAT_REFUSED n) 0
    let ex := match d.pos.extrap with
      | some e => some e
      | none => if d.src = chOf2 n then some { ch := n.val, start := d.now, speed := d.speedI } else none
    let d : Dev := { d with pos := { d.pos with applying := d.pos.applying.set n (some (d.pos.applying[n].getD d.now)), extrap := ex } }
    (d.set F.POS_STATUS_EXTRAP 1).trimBusy n
  else (d.set (F.POS_TRIM_STAT_REFUSED n) 1).raise Ev.TRIM_REFUSED 15 none [n.val]

/-- The coordinate advances at the last measured speed during the interruption (R54). -/
def Dev.extrapolate (d : Dev) : Dev :=
  match d.pos.extrap with
  | none => d
  | some e =>
    let to_ := e.speed * 2 ^ 24 * ((d.now - e.start : Nat) : Int) / 1000000000
    let d' : Dev := { d with pos := { d.pos with extrap := some { e with moved := to_ } } }
    (d'.webShift (to_ - e.moved)).mark d.pos.web

/-- The interpolated value is taken up: the count follows what was held back, and the coordinate the counts. The step of the coordinate. -/
def Dev.extrapEnd (d : Dev) (n : Fin 2) : Dev × Int :=
  let d := d.follow (chOf2 n) 0 0 false
  match d.pos.extrap with
  | some e =>
    if e.ch = n.val then
      let step := e.acc - e.moved
      let d' : Dev := { d with pos := { d.pos with extrap := none } }
      ((d'.webShift step).mark d.pos.web, step)
    else (d, 0)
  | none => (d, 0)

/-- The interruption ends, and the step is reported in nm (R54). -/
def Dev.trimApplied (d : Dev) (n : Fin 2) : Dev :=
  if d.pos.applying[n].isNone then d
  else
    let (d, step) := ({ d with pos := { d.pos with applying := d.pos.applying.set n none } } : Dev).extrapEnd n
    let d := d.setB F.POS_STATUS_EXTRAP (d.pos.applying[0].isSome || d.pos.applying[1].isSome)
    (d.trimBusy n).raise Ev.TRIM_APPLIED 15 none [n.val, unsext 32 (step / 2 ^ 24)]

/-- An interruption lasts at most 50 µs (R54): one that is not over by then ends. -/
def Dev.trimLimit (d : Dev) : Dev :=
  (List.finRange 2).foldl (fun (d : Dev) (n : Fin 2) =>
    match d.pos.applying[n] with
    | some t => if t + 50000 ≤ d.now then d.trimApplied n else d
    | none => d) d

/-- The persistent words of a channel's trim record: the codes and their CRC-32C (R56). -/
def trimRecord (n : Fin 2) : Nat := 0x0080 + 8 * n.val

/-- A pulse of STORE. -/
def Dev.trimStore (d : Dev) (n : Fin 2) : Dev :=
  let v := (d.rd (Reg.POS_TRIM_ACT n)).toNat
  (d.prsWrite (trimRecord n) v).prsWrite (trimRecord n + 1) (crc32c (bytesLE 4 v))

end Sys2Proof.Machine
end

