-- ==== Sys2Proof/Machine/HostWrite.lean ====
section
/-!
DEFINITION. A write of BAR0 by a host (R1 to R6, R16): each register that a command has a row for does what that command does; every other
register is written by its access codes. One function per group of blocks.
-/
namespace Sys2Proof.Machine

/-- What waits in the queue beside a write, and so falls in its cycle (log entry 60), where a rule settles the two: lock losses by lane
(R190), a request that leaves IDLE (R196), heads whose over-temperature bit a STATUS frame sets, as endpoint and slot (R170), a trigger of
the device's own that takes over (R344), an action slot that fires (R362), and a thermal sample (R400). -/
structure Waiting where
  losses : List (Fin 18) := []
  leaves : Bool := false
  hot : List (Nat × Nat) := []
  takes : Option Nat := none
  fires : Bool := false
  sample : Bool := false

/-- SYS (R25, R26, R113, R429, R436). -/
def Dev.writeSys (d : Dev) (w : Waiting) (a : Nat) (v : Word) : Dev :=
  match a with
  | 0x10 => if hit F.SYS_MODE_CAUSE_CLR v then d.modeCauseClr else d
  | 0x14 => if w.fires then d.modeRefusedEvt 2 else (d.modeRequestAny (F.SYS_MODE_REQ_TARGET.of v)).hand
  | 0x20 =>
    let d := d.plainWrite a v
    let d := if hit F.SYS_COMMIT_SET v then d.settingsCommit.hand else d
    if hit F.SYS_COMMIT_CFG v then d.configCommit.hand else d
  | 0x30 =>
    let d := d.set F.SYS_SNAP_BAR (F.SYS_SNAP_BAR.of v)
    if hit F.SYS_SNAP_TAKE v then d.snapRequest else d
  | 0x34 => { d.plainWrite a v with snap := { d.snap with autoAt := d.now } }
  | 0x40 => d.evtRingWrite 0 v
  | 0x44 => d.evtRingWrite 1 v
  | 0x48 => d.evtRingWrite 2 v
  | 0x50 => d.evtTailWrite v
  | 0x54 => d.evtCfgWrite v
  | _ => d.plainWrite a v

/-- RPC (R377, R386, R389). -/
def Dev.writeRpc (d : Dev) (via : Master) (a : Nat) (v : Word) : Dev :=
  match a with
  | 0x100004 => d.causeClear v
  | 0x100008 =>
    if hit F.RPC_SWRST_GO v then d.swReset via (F.RPC_SWRST_REACH.of v) (F.RPC_SWRST_DOM.of v) (F.RPC_SWRST_BLOCK.of v) else d.plainWrite a v
  | 0x10000C => if hit F.RPC_PWR_GO v then d.power via (F.RPC_PWR_DOM.of v) (hit F.RPC_PWR_OFF v) else d.plainWrite a v
  | 0x100030 => if hit F.RPC_SPI_CTL_GO v then d.spiGo v else d.plainWrite a v
  | _ => d.plainWrite a v

/-- THM, PRS, CRC, DBG (R402, R409, R406, R414). -/
def Dev.writeCare (d : Dev) (w : Waiting) (a : Nat) (v : Word) : Dev :=
  if a = Reg.THM_CTL then
    let d := if hit F.THM_CTL_SAMPLE v then d.sampleOpen w.sample else d
    if hit F.THM_CTL_PEAK_CLR v then d.peakClr else d
  else if a = Reg.PRS_CTL then (if hit F.PRS_CTL_CNT_CLR v then d.prsCntClr else d)
  else if a = Reg.DBG_FREEZE then d.dbgFreeze v
  else
    match inRow (Reg.PRS_WORD 0) 4 8192 a, decide (0x400100 ≤ a ∧ a < 0x400500) with
    | some w, _ => d.prsReg w v
    | none, true => d.crcReg ⟨(a - 0x400100) / 128 % 8, Nat.mod_lt _ (by decide)⟩ ((a - 0x400100) % 128) v
    | none, false => d.plainWrite a v

/-- POS (R28, R46, R52 to R56). -/
def Dev.writePos (d : Dev) (a : Nat) (v : Word) : Dev :=
  match a with
  | 0x500000 => d.posCfgWrite 0 v
  | 0x500030 => d.posCfgWrite 0x30 v
  | 0x500034 => d.posCfgWrite 0x34 v
  | 0x50001C => d.webSet v
  | 0x500008 => if hit F.POS_CTL_CNT_CLR v then d.posCntClr else d
  | _ =>
    match inRow (Reg.POS_TRIM_CTL 0) 32 2 a, inRow (Reg.POS_CH_CFG 0) 64 2 a with
    | some n, _ =>
      let n : Fin 2 := ⟨n % 2, Nat.mod_lt _ (by decide)⟩
      let d := d.plainWrite a v
      let d := if hit (F.POS_TRIM_CTL_MEASURE n) v then d.trimMeasure n else d
      let d := if hit (F.POS_TRIM_CTL_APPLY n) v then d.trimApply n else d
      if hit (F.POS_TRIM_CTL_STORE n) v then d.trimStore n else d
    | none, some _ => d.plainWrite a (v &&& ~~~(3 : Word))
    | none, none => d.plainWrite a v

/-- LTC (R71, R79, R81, R83). DESIGN CHOICE (log 62): every write of LTC_CMP_CFG arms the channel anew. -/
def Dev.writeLtc (d : Dev) (a : Nat) (v : Word) : Dev :=
  if a = Reg.LTC_STB_STATUS then d.stbClear v
  else
    match inBars a (Reg.LTC_BAR_OFFSET 0) 64, inBars a (Reg.LTC_BAR_OFFSET_D 0) 64, inRow (Reg.LTC_CMP_POOL_HI 0) 8 16384 a, cmpCfgReg a with
    | some b, _, _, _ => d.offsetWrite b false v
    | _, some b, _, _ => d.offsetWrite b true v
    | _, _, some i, _ => d.cmpPoolWrite i v
    | _, _, _, some n => ((d.cmpOwe n).plainWrite a v).cmpArm n
    | _, _, _, _ => d.plainWrite a v

/-- JOB and CDC (R95, R100, R102, R106, R134, R336). -/
def Dev.writeJob (d : Dev) (a : Nat) (v : Word) : Dev :=
  match a with
  | 0x700000 =>
    let d := if hit F.JOB_CTL_SCHED_RESET v then d.jobReset else d
    if hit F.JOB_CTL_BREAK v then d.jobBreak [] else d
  | 0x700004 => if d.mode = .idle then d.plainWrite a v else d
  | 0x70001C => d.tailWrite v
  | 0x800004 => if hit F.CDC_CTL_CNT_CLR v then d.cdcCntClr else d
  | _ =>
    match inRow (Reg.JOB_ING_CTL 0) 32 4 a with
    | some c => d.ingCtl ⟨c % 4, Nat.mod_lt _ (by decide)⟩ v
    | none => d.plainWrite a v

/-- SCR and NOZ (R142, R157, R161, R166, R170 to R176). -/
def Dev.writeScr (d : Dev) (w : Waiting) (a : Nat) (v : Word) : Dev :=
  match a with
  | 0x900004 => if hit F.SCR_CTL_CNT_CLR v then d.scrCntClr else d
  | 0xA00008 =>
    let d := if hit F.NOZ_CTL_OVT_CLR v then d.ovtClr w.hot else d
    let d := if hit F.NOZ_CTL_LIFE_SAVE v then d.lifeSaveAll else d
    if hit F.NOZ_CTL_CNT_CLR v then d.nozCntClr else d
  | 0xA00040 => d.headActWrite v
  | _ =>
    match inBars a (Reg.NOZ_BAR_OUTN0 0) 32, inBars a (Reg.NOZ_BAR_OUTN1 0) 32 with
    | some b, _ => d.outBank b 0 none v
    | _, some b => d.outBank b 1 none v
    | _, _ =>
      match a / 0x1000000 with
      | 0x10 => if a % 8 = 4 then d.matrixWrite (a / 8 % 128) (a / 1024 % 128) v else d.plainWrite a v
      | 0x11 => if d.mode = .shadow then d else d.plainWrite a v
      | 0x12 =>
        let n := (a - 0x12000000) / 16384
        d.outBank (barOf (n / 2)) (n % 2) (some (a / 4 % 4096)) v
      | _ => d.plainWrite a v

/-- ZXL (R191 to R201, R216, R223, R224). -/
def Dev.writeZxl (d : Dev) (w : Waiting) (a : Nat) (v : Word) : Dev :=
  if a = Reg.ZXL_ECMD then d.ecmdReg v
  else if a = Reg.ZXL_PCTL then (if hit F.ZXL_PCTL_DMEAS v then d.delayMeasure else d)
  else if 0x15000000 ≤ a then d.vecClear (a / 4 % 32) v
  else if 0xB00100 ≤ a ∧ a < 0xB00A00 then
    let n := laneOf ((a - 0xB00100) / 128)
    let loss := w.losses.contains n
    match (a - 0xB00100) % 128 with
    | 0x04 =>
      let d := if hit (F.ZXL_LANE_CTL_RETRAIN n) v then d.retrain n loss else d
      let d := if hit (F.ZXL_LANE_CTL_L1 n) v then d.lowPowerReq n false loss w.leaves else d
      let d := if hit (F.ZXL_LANE_CTL_L2 n) v then d.lowPowerReq n true loss w.leaves else d
      let d := if hit (F.ZXL_LANE_CTL_WAKE n) v then d.laneWake n loss else d
      if hit (F.ZXL_LANE_CTL_MARGIN n) v then d.marginStart n loss else d
    | 0x14 => d.eqReg n 0 v
    | 0x18 => d.eqReg n 1 v
    | 0x1C => d.eqReg n 2 v
    | _ => d.plainWrite a v
  else d.plainWrite a v

/-- VIS and DEN (R244, R265, R266, R272, R282, R285). The configuration, geometry, framing, defects and raw
buffer of a port are written in IDLE and CALIBRATE; DEDUCED (log entry 65): a write discarded elsewhere is reported as one of a table is. -/
def Dev.writeVis (d : Dev) (a : Nat) (v : Word) : Dev :=
  match a with
  | 0xC00008 => if hit F.VIS_CTL_CNT_CLR v then d.visCntClr else d
  | 0xD00024 =>
    let d := if hit F.DEN_CTL_BAND_NOW v then d.bandNow else d
    if hit F.DEN_CTL_CNT_CLR v then d.denCntClr else d
  | _ =>
    if 0x13000000 ≤ a then d.visTableWrite (a / 4 % 2048) v
    else if 0xC00100 ≤ a ∧ a < 0xC00300 then
      let p : Fin 4 := ⟨(a - 0xC00100) / 128 % 4, Nat.mod_lt _ (by decide)⟩
      if a = Reg.VIS_CAM_I2C p then
        let op := (F.VIS_CAM_I2C_OP p).of v
        if op = 1 || op = 2 then d.i2cGo p (op = 2) v else if (d.port p).i2c.isSome then d else d.plainWrite a v
      else if [Reg.VIS_CAM_CFG p, Reg.VIS_CAM_GEOM p, Reg.VIS_CAM_FRAMING p, Reg.VIS_CAM_DEFN p, Reg.VIS_CAM_BUF_LO p, Reg.VIS_CAM_BUF_HI p,
               Reg.VIS_CAM_BUF_SLOT p].contains a && !d.modeIn [.idle, .calibrate] then d.visRefused p (a - 0xC00000)
      else if a = Reg.VIS_CAM_CFG p && p.val ≠ 0 then d.plainWrite a (v &&& ~~~(0x40000000 : Word))
      else d.plainWrite a v
    else
      match inBars a (Reg.DEN_BAR_CTL 0) 64 with
      | some b =>
        let d := if hit (F.DEN_BAR_CTL_RESTORE b) v then d.restoreDen b else d
        if hit (F.DEN_BAR_CTL_RESUME b) v then d.denResume b else d
      | none => d.plainWrite a v

/-- LMP, DRC, DPX, PTP, HST (R303, R326 to R330, R332, R350, R361, R365, R428, R431). -/
def Dev.writeEnd (d : Dev) (w : Waiting) (a : Nat) (v : Word) : Dev :=
  match a with
  | 0xE0001C =>
    let d := if hit F.LMP_CTL_LATCH_NOW v then d.latchNow else d
    let d := if hit F.LMP_CTL_CNT_CLR v then d.lmpCntClr else d
    if hit F.LMP_CTL_HOURS_SAVE v then d.hoursSave else d
  | 0xF00008 => d.opChange (hit F.DRC_OP_TARGET v)
  | 0xF00030 =>
    let i : Fin 2 := ⟨F.DRC_CTL_DI.of v % 2, Nat.mod_lt _ (by decide)⟩
    let d := d.plainWrite a v
    let d := if hit F.DRC_CTL_CNT_CLR v then d.drcCntClr else d
    let d := if hit F.DRC_CTL_RETIRE v then d.rankRetire i else d
    if hit F.DRC_CTL_UNRETIRE v then d.unretire i else d
  | 0x1000004 =>
    let d := if hit F.DPX_CTL_TAKEOVER v then (d.takeover w.takes).hand else d
    if hit F.DPX_CTL_CNT_CLR v then d.dpxCntClr else d
  | 0x100000C => d.claimSet v
  | 0x110000C => d.ptpReg v
  | 0x1200020 => d.intPendClear false v
  | 0x1200024 => d.intPendClear true v
  | _ =>
    match inRow (Reg.PTP_ACT_CTL 0) 16 4 a, inRow (Reg.HST_EGR_CTL 0) 32 2 a with
    | some n, _ => d.actReg ⟨n % 4, Nat.mod_lt _ (by decide)⟩ v
    | _, some e => d.egressCtl ⟨e % 2, Nat.mod_lt _ (by decide)⟩ v
    | _, _ => d.plainWrite a v

/-- A write at a place of a block that answers. -/
def Dev.writeAt (d : Dev) (via : Master) (w : Waiting) (blk a : Nat) (v : Word) : Dev :=
  match blk with
  | 0 => d.writeSys w a v
  | 1 => d.writeRpc via a v
  | 2 | 3 | 4 | 20 => d.writeCare w a v
  | 5 => d.writePos a v
  | 6 => d.writeLtc a v
  | 7 | 8 => d.writeJob a v
  | 9 | 10 => d.writeScr w a v
  | 11 => d.writeZxl w a v
  | 12 | 13 => d.writeVis a v
  | _ => d.writeEnd w a v

/-- A command that leaves the lane's lock in this cycle (R189). -/
def Instr.losesLock (d : Dev) : Instr → Option (Fin 18)
  | .lockLoss n symbols => if d.lossLimit n ≤ symbols then some n else none
  | _ => none

/-- The head bits that a STATUS frame sets, by endpoint and slot (R168). -/
def Instr.hotBits : Instr → List (Nat × Nat)
  | .statusFrameReturn n _ true slots => slots.zipIdx.flatMap fun s =>
      if Nat.testBit s.1.toNat 63 then
        ((List.range 4).filter fun h => Nat.testBit s.1.toNat (52 + h)).map fun h => (64 * n.val + s.2, h)
      else []
  | _ => []

/-- An action slot fires in this cycle as well (R362). -/
def State.firesNow (s : State) : Bool := s.pending.any fun | .actionFire a => s.dev.actFires a && s.dev.live 3 | _ => false

/-- The last write of a register that waits, where its block answers. -/
def State.lastWrite (s : State) (a : Nat) : Option Word :=
  if !s.dev.live 1 || !s.dev.on (blkOf a) then none
  else (s.pending.filterMap fun
    | .registerWrite x v be => if x = a ∧ be.val = 15 then some v else none
    | .rtWriteRegister x v => if x = a ∧ s.dev.effBit F.HST_RT_CFG_EN then some v else none
    | .evtTailWrite v => if a = Reg.SYS_EVT_TAIL then some v else none
    | _ => none).getLast?

/-- A write of SYS_EVT_TAIL of the same cycle (R429). -/
def State.evtTail (s : State) : Option Word := s.lastWrite Reg.SYS_EVT_TAIL

/-- A read that arrives in the capture cycle waits for the capture (R436). -/
def State.captured (s : State) : Dev := if s.pending.any fun | .snapCapture => true | _ => false then s.dev.hw 1 Dev.snapCapture else s.dev

/-- What waits in the queue. -/
def State.waiting (s : State) : Waiting :=
  { losses := s.pending.filterMap (Instr.losesLock s.dev),
    leaves := s.pending.any fun i => match i with
      | .modeRequest t => t.val ≠ 2 && t.val ≠ 0
      | .registerWrite a v be => a = Reg.SYS_MODE_REQ && be.val = 15 && F.SYS_MODE_REQ_TARGET.of v ≠ 2 && F.SYS_MODE_REQ_TARGET.of v ≠ 0
      | _ => false,
    hot := s.pending.flatMap Instr.hotBits,
    takes := s.takeCause,
    fires := s.firesNow,
    sample := s.pending.any fun | .thermalSample _ => true | _ => false }

/-- A write of BAR0: byte enables short of four bytes discard it (R1); a block that does not answer is reported (R16); where no register is
defined it is ignored (R4). -/
def Dev.hostWrite (d : Dev) (via : Master) (off : Nat) (v : Word) (be : Nat) (w : Waiting := {}) : Dev :=
  if be ≠ 15 || off % 4 ≠ 0 || 0x1500000 ≤ off || !d.live 1 || d.frz.isSome then d
  else if !d.on (blkOf off) then d.domainOff (blkOf off)
  else
    match d.place off with
    | some a => d.writeAt via w (blkOf off) a v
    | none => d

end Sys2Proof.Machine
end

