-- ==== Sys2Proof/Machine/Rt.lean ====
section
/-!
DEFINITION. The register transport on NET0 and NET1 (spec/19_host.md, R432 to R434).
-/
namespace Sys2Proof.Machine

/-- HST_RT_CFG in effect: the transport is on. -/
def Dev.rtEn (d : Dev) : Bool := d.effBit F.HST_RT_CFG_EN

/-- What a port can take: its link is up, the transport is on, and the register fabric works. -/
def Dev.rtTakes (d : Dev) (p : Fin 2) : Bool := d.rtEn && d.bit (F.NET_P_STATUS_UP p) && d.live 1 && d.frz.isNone

def Dev.rtDrop (d : Dev) : Dev := if d.live 2 then d.addSat F.HST_RT_STAT_DROP 1 else d

def Dev.ownIp (d : Dev) (p : Fin 2) (ip : Nat) : Bool := d.get (F.NET_P_IP_IP p) = ip

/-- A block of the job store is outside it, or PD4 does not serve: as R16 or R426. -/
def Dev.rtStore (d : Dev) (a n : Nat) (f : Dev → Dev × List Nat) : Dev × Nat × List Nat :=
  if !d.live 4 || !d.memTakes then (d.domainOff 15, 2, [])
  else if d.cap < a + n then ((if d.live 2 then d.winRange a else d), 2, [])
  else let (d, ws) := f d; (d, 0, ws)

/-- LEN of a job-store operation (R432). -/
def lenOk (n : Nat) : Bool := n % 64 = 0 && decide (64 ≤ n) && decide (n ≤ 8192)

/-- Bytes as little-endian words. -/
def toWords (bs : List (BitVec 8)) : List Nat := (chunks 4 bs.length bs).map ofBytesLE

/-- The three words of an operation in a response, and what follows them. -/
def opWords (op status len addr w2 : Nat) (more : List Nat) : List Nat :=
  [op * 2 ^ 28 + status * 2 ^ 24 + len, addr % 2 ^ 32, w2 % 2 ^ 32] ++ more

/-- Execute one operation: its status, and its words in the response (R432, R433). -/
def Dev.rtOp (d : Dev) (o : RtOp) : Dev × Nat × List Nat :=
  match o with
  | .rd a =>
    let st := if 0x1500000 ≤ a || d.on (blkOf a) then 0 else 2
    let (d, v) := d.hostRead a
    (d, st, opWords 1 st 0 a v.toNat [])
  | .wr a v =>
    let st := if 0x1500000 ≤ a || d.on (blkOf a) then 0 else 2
    (d.hostWrite .net a v 15, st, opWords 2 st 0 a v.toNat [])
  | .rdStore a n =>
    if !lenOk n then (d, 1, opWords 3 1 (n % 2 ^ 16) a (a / 2 ^ 32) [])
    else
      let (d, st, ws) := d.rtStore a n fun d => (d, toWords (d.storeRead a n))
      (d, st, opWords 3 st n a (a / 2 ^ 32) (if st = 0 then ws else (List.range (n / 4)).map fun _ => 0))
  | .wrStore a bs =>
    if !lenOk bs.length then (d, 1, opWords 4 1 (bs.length % 2 ^ 16) a (a / 2 ^ 32) [])
    else
      let (d, st, _) := d.rtStore a bs.length fun d => (d.storeData a bs, [])
      (d, st, opWords 4 st bs.length a (a / 2 ^ 32) [])
  | .bad w => (d, 1, [w.toNat / 2 ^ 28 * 2 ^ 28 + 2 ^ 24 + w.toNat % 2 ^ 24, 0, 0])

/-- An operation that is not executed: its words with a status. -/
def skipWords (o : RtOp) (st : Nat) : List Nat :=
  match o with
  | .rd a => opWords 1 st 0 a 0 []
  | .wr a v => opWords 2 st 0 a v.toNat []
  | .rdStore a n => opWords 3 st (n % 2 ^ 16) a (a / 2 ^ 32) []
  | .wrStore a bs => opWords 4 st (bs.length % 2 ^ 16) a (a / 2 ^ 32) []
  | .bad w => [w.toNat / 2 ^ 28 * 2 ^ 28 + st * 2 ^ 24 + w.toNat % 2 ^ 24, 0, 0]

/-- The operations in order; after one that fails the others are not executed (STATUS 4). -/
def Dev.rtOps (d : Dev) : List RtOp → List Nat → Dev × List Nat
  | [], ws => (d, ws)
  | o :: r, ws =>
    let (d, st, x) := d.rtOp o
    if st = 0 then d.rtOps r (ws ++ x) else (d, ws ++ x ++ r.flatMap fun y => skipWords y 4)

def rtHeader (count seq flags : Nat) : List Nat := [0xA15C * 2 ^ 16 + 2 ^ 8 + count, seq, flags, 0]

/-- The response goes out and is kept; the four most recent sources are remembered (R433). -/
def Dev.rtAnswer (d : Dev) (p : Fin 2) (src seq : Nat) (ws : List Nat) : Dev :=
  let x : RtSrc := { port := p.val, src := src, seq := seq, resp := ws }
  let l := (d.rt.srcs.filter fun y => ¬ (y.port = p.val ∧ y.src = src)) ++ [x]
  ({ d with rt := { d.rt with srcs := l.drop (l.length - 4), last := some (p.val, src) } } : Dev).emit (.net p 0x10 ws)

/-- Bytes of an operation in a request, and in its response: three words, and the data of the job store. -/
def reqBytes : RtOp → Nat
  | .wrStore _ bs => 12 + bs.length
  | _ => 12

def respBytes : RtOp → Nat
  | .rdStore _ n => if lenOk n then 12 + n else 12
  | _ => 12

/-- Bytes of job-store data that an operation moves. -/
def moved (o : RtOp) : Nat := reqBytes o + respBytes o - 24

/-- An IP datagram of operations: the headers of IPv4, without options, UDP and the transport, and the operations (R432). -/
def ipBytes (ops : List RtOp) (f : RtOp → Nat) : Nat := 20 + 8 + 16 + (ops.map f).foldl (· + ·) 0

/-- A request is executed and answered (R433). -/
def Dev.rtRun (d : Dev) (m : RtMsg) : Dev :=
  match d.rt.srcs.find? fun y => y.port = m.port.val && y.src = m.src && y.seq = m.seq with
  | some y => (if d.live 2 then d.addSat F.HST_RT_STAT_DUP 1 else d).rtAnswer m.port m.src m.seq y.resp
  | none =>
    let head := rtHeader m.ops.length m.seq 1
    if 9000 < ipBytes m.ops reqBytes || 9000 < ipBytes m.ops respBytes then
      d.rtAnswer m.port m.src m.seq (head ++ m.ops.flatMap fun o => skipWords o 3)
    else
      let (d, ws) := d.rtOps m.ops head
      let d : Dev := { d with rt := { d.rt with busy := d.now + (m.ops.map moved).foldl (· + ·) 0 * 20 / 23 } }
      if d.live 3 then d.rtAnswer m.port m.src m.seq ws else d

/-- The oldest request that waits is executed, once the data of the one before has moved, at 1.15 GB/s (R433). -/
def Dev.rtServe (d : Dev) : Dev :=
  match d.rt.queue with
  | [] => d
  | m :: r =>
    if d.now < d.rt.busy || !d.live 1 || d.frz.isSome then d
    else ({ d with rt := { d.rt with queue := r } } : Dev).rtRun m

/-- RT_DATAGRAM: eight requests can wait (R433). -/
def Dev.rtDatagram (d : Dev) (m : RtMsg) : Dev :=
  if !d.rtTakes m.port then d
  else if !d.ownIp m.port m.ip || m.udp ≠ d.effGet F.HST_RT_CFG_UDP || !m.header || m.ops.isEmpty || decide (100 < m.ops.length)
      || decide (8 ≤ d.rt.queue.length) then d.rtDrop
  else ({ d with rt := { d.rt with queue := d.rt.queue ++ [m] } } : Dev).rtServe

/-- One operation of a request, on its own: what it reads is recorded. -/
def Dev.rtSingle (d : Dev) (o : RtOp) : Dev :=
  if !d.rtEn || !d.live 1 || d.frz.isSome then d
  else
    match o with
    | .rd a => let (d, bs) := d.hostReadBytes (a / 4 * 4) 4; d.emit (.read a bs)
    | .rdStore a n =>
      if !lenOk n then d
      else
        let (d', st, _) := d.rtStore a n fun d => (d, [])
        d'.emit (.read a (if st = 0 then d.storeRead a n else List.replicate n 0))
    | o => (d.rtOp o).1

/-- RT_ARP and RT_ICMP_ECHO: answered for the port's own address, else discarded and counted. -/
def Dev.rtArp (d : Dev) (p : Fin 2) (ip : Nat) : Dev :=
  if !d.rtTakes p then d
  else if d.ownIp p ip then d.emit (.net p 0x11 [ip, d.get (F.NET_P_MAC_LO_MAC p), d.get (F.NET_P_MAC_HI_MAC p)]) else d.rtDrop

def Dev.rtIcmp (d : Dev) (p : Fin 2) (ip : Nat) (data : List (BitVec 8)) : Dev :=
  if !d.rtTakes p then d
  else if d.ownIp p ip then d.emit (.net p 0x12 (ip :: data.map (·.toNat))) else d.rtDrop

/-- RT_NOTIFY: an enabled bit has newly set; at most one NOTIFY per 100 µs, to the source of the last valid request (R434). -/
def Dev.rtNotify (d : Dev) : Dev :=
  let free := match d.rt.notifyAt with | some t => decide (t + 100000 ≤ d.now) | none => true
  match d.rt.last with
  | none => d
  | some (p, src) =>
    if d.rtEn && d.rt.fresh && free && d.live 2 then
      ({ d with rt := { d.rt with fresh := false, notifyAt := some d.now } } : Dev).emit
        (.net p 0x13 (rtHeader 0 0 2 ++ [(d.rd Reg.HST_INT_PEND_LO).toNat, (d.rd Reg.HST_INT_PEND_HI).toNat, src]))
    else d

end Sys2Proof.Machine
end

