-- ==== Sys2Proof/Machine/Wire.lean ====
section
/-!
DEFINITION. What leaves a lane's transmitter (spec/08_zixlink_lanes.md R178 to R181, R183 to R189, R194, R195; spec/09_zixlink_protocol.md
R206 to R208, R212, R215, R219, R221, R224, R226, R228, R230, R233): the bytes of each frame, control blocks and ordered sets, the 8b/10b and
64b/66b codes, and what each lane sends in a CK9 cycle. The codes are those of IEEE 802.3 clauses 36 and 49, which R179 names (log 63).
-/
namespace Sys2Proof.Machine

/-! ### Frames (R206, R207) -/

/-- The n bytes of a number, the most significant first (R180, R207). -/
def bytesBE (n v : Nat) : List Nat := (List.range n).map fun i => v / 2 ^ (8 * (n - 1 - i)) % 2 ^ 8

/-- CRC-8 of a priority block over bytes 1 to 6: polynomial 0x07, initial value 0, no reflection, no final exclusive or (R208). -/
def crc8 (bs : List Nat) : Nat := crcBits 8 0x07 0 (bs.flatMap (bitsMsb 8))

/-- The bytes of a list in groups of 8. -/
def groups8 : Nat → List Nat → List (List Nat)
  | 0, _ => []
  | n + 1, l => l.take 8 :: groups8 n (l.drop 8)

/-- A multi-block frame: its start block, then LEN data blocks of the data, pad and the CRC-32C trailer (R206, R207). In a LINE frame with
ZERO the trailer lies over the end of the one data block (log 63). -/
def frame (type : Nat) (abt : Bool) (bar : Nat) (own : List Nat) (len : Nat) (data : List Nat) : List Blk :=
  let start := [type, abt.toNat * 2 ^ 7 + bar % 2 ^ 4] ++ bytesBE 2 len ++ own
  let body := (data ++ List.replicate (8 * len) 0).take (8 * len - 4)
  let crc := crc32c ((start ++ body).map (BitVec.ofNat 8))
  { ctrl := true, bytes := start } :: (groups8 len (body ++ (bytesBE 4 crc).reverse)).map fun g => { ctrl := false, bytes := g }

/-- A priority block: bytes 1 to 6 under their CRC-8 (R208). -/
def prioBlock (type : Nat) (bs : List Nat) : Blk := { ctrl := true, bytes := type :: (bs ++ [crc8 bs]) }

/-- The entry of a MASK frame as a block (R226). -/
def MaskEntry.word (e : MaskEntry) : Nat :=
  e.kind * 2 ^ 62 + e.action * 2 ^ 60 + e.row * 2 ^ 59 + e.first % 2 ^ 17 * 2 ^ 17 + e.arg % 2 ^ 17

/-- Four levels to a byte, the first in the low bits (R90, R212). -/
def levelBytes : Nat → List Nat → List Nat
  | 0, _ => []
  | n + 1, l => (l.getD 0 0 % 4 + l.getD 1 0 % 4 * 4 + l.getD 2 0 % 4 * 16 + l.getD 3 0 % 4 * 64) :: levelBytes n (l.drop 4)

/-- Data blocks that hold n bytes and the trailer. -/
def dataBlocks (n : Nat) : Nat := (n + 4 + 7) / 8

/-- The blocks of something sent on a lane, with ABT as it stands, and with REM, the time in 1/8 ns from the block's departure to the fire
instant (R206, R207, R212, R215, R219, R221, R224, R226, R228, R335). Fields that no rule gives a frame are 0 (log 63). -/
def Sent.blocks (abt : Bool) (rem : Nat) : Sent → List Blk
  | .fire _ bar row wire _ ext a =>
    [prioBlock 0x80 ([((abt || a).toNat * 2 ^ 7 + row * 2 ^ 6 + ext.toNat * 2 ^ 5 + bar % 2 ^ 4)] ++ bytesBE 2 wire ++ bytesBE 2 rem ++ [0])]
  | .dmark _ => [prioBlock 0x82 [abt.toNat * 2 ^ 7 + 0xF, 0, 0, 0, 0, 0]]
  | .line _ bar wire phase first count levels =>
    let zero := levels.isEmpty
    let own := bytesBE 2 wire ++ bytesBE 2 (zero.toNat * 2 ^ 15 + phase)
    let head := bytesBE 8 (first * 2 ^ 47 + count * 2 ^ 30)
    let n := (count + 3) / 4
    if zero then frame 0x81 abt bar own 1 head else frame 0x81 abt bar own (1 + dataBlocks n) (head ++ levelBytes n levels)
  | .beacon _ claim safe seq sec ns =>
    frame 0x83 abt 0xF (bytesBE 2 claim ++ [safe.toNat, seq % 2 ^ 8]) 2 (bytesBE 2 sec ++ bytesBE 4 ns)
  | .status _ seq n => frame 0x84 abt 0xF (bytesBE 2 seq ++ [n % 2 ^ 8, 0]) (n + 1) []
  | .mask _ bar l seq es =>
    frame 0x85 abt bar (bytesBE 2 l ++ [seq % 2 ^ 8, es.length % 2 ^ 8]) (es.length + 1) (es.flatMap fun e => bytesBE 8 e.word)
  | .cmd _ bcast target tag op reg l ws =>
    frame 0x86 abt (if bcast then 0xE else 0xF) (bytesBE 2 (bcast.toNat * 2 ^ 15 + target % 2 ^ 10) ++ [tag % 2 ^ 8, op])
      (1 + dataBlocks (4 * ws.length)) (bytesBE 2 reg ++ bytesBE 2 (max 1 ws.length) ++ [0, 0] ++ bytesBE 2 l ++ ws.flatMap (bytesBE 4))
  | .mode _ bar kind l epoch a => frame 0x88 (abt || a) bar ([kind] ++ bytesBE 2 l ++ [0]) 1 (bytesBE 2 epoch)
  | .mirror _ type ws =>
    frame type false 0xF (bytesBE 4 (ws.headD 0)) (dataBlocks (4 * (ws.length - 1))) ((ws.drop 1).flatMap (bytesBE 4))
  | _ => []

/-- The IDLE block (R180). -/
def idleBlock : Blk := { ctrl := true, bytes := 0x1E :: List.replicate 7 0 }

/-- An ALIGN block (R180). -/
def alignBlock (seq : Nat) : Blk := { ctrl := true, bytes := [0x2D] ++ bytesBE 4 seq ++ [0, 0, 0] }

/-- LPI and DARK blocks (R180). -/
def lpiBlock : Blk := { ctrl := true, bytes := 0x33 :: List.replicate 7 0 }
def darkBlock : Blk := { ctrl := true, bytes := 0x36 :: List.replicate 7 0 }

/-- The gap after a CMD to one endpoint: IDLE blocks, one longer than the RSP, which holds the words read (R224). -/
def Sent.gap : Sent → Nat
  | .cmd _ false _ _ op _ _ _ => 2 + dataBlocks (if op = 1 then 4 else 0)
  | _ => 0

/-- A frame at RATE 0: K27.7, the same bytes as D characters, K29.7 (R206). -/
def charsOf (bs : List Blk) : List Blk :=
  [{ ctrl := true, bytes := [0xFB] }] ++ (bs.flatMap fun b => b.bytes.map fun x => { ctrl := false, bytes := [x] })
    ++ [{ ctrl := true, bytes := [0xFD] }]

/-- A lane ordered set: K28.5, K28.1, TYPE, D0 to D4 (R181). -/
def orderedSet (type : Nat) (ds : List Nat) : List Blk :=
  [{ ctrl := true, bytes := [0xBC] }, { ctrl := true, bytes := [0x3C] }] ++ (type :: ds).map fun x => { ctrl := false, bytes := [x] }

/-! ### 8b/10b (R179; IEEE 802.3 clause 36) -/

/-- abcdei of D.x for negative running disparity, a the most significant. -/
def code6 : List Nat :=
  [0b100111, 0b011101, 0b101101, 0b110001, 0b110101, 0b101001, 0b011001, 0b111000,
   0b111001, 0b100101, 0b010101, 0b110100, 0b001101, 0b101100, 0b011100, 0b010111,
   0b011011, 0b100011, 0b010011, 0b110010, 0b001011, 0b101010, 0b011010, 0b111010,
   0b110011, 0b100110, 0b010110, 0b110110, 0b001110, 0b101110, 0b011110, 0b101011]

/-- fghj of D.x.y, with the primary form of y = 7, for negative running disparity. -/
def code4 : List Nat := [0b1011, 0b1001, 0b0101, 0b1100, 0b1101, 0b1010, 0b0110, 0b1110]

/-- fghj of K.x.y for negative running disparity. -/
def code4K : List Nat := [0b1011, 0b0110, 0b1010, 0b1100, 0b1101, 0b0101, 0b1001, 0b0111]

/-- How many of the n low bits are 1. -/
def onesOf (n v : Nat) : Nat := ((bitsLsb n v).filter id).length

/-- A sub-block of n bits under the running disparity, and the disparity after it: one that is not balanced, or that the code inverts,
is complemented at positive disparity. -/
def subBlock (n v : Nat) (inv rd : Bool) : Nat × Bool :=
  let even := 2 * onesOf n v = n
  let x := if rd && (!even || inv) then 2 ^ n - 1 - v else v
  (x, if even then rd else !rd)

/-- A character as its 10 bits abcdei fghj, a the most significant, and the disparity after it. -/
def enc10 (k : Bool) (v : Nat) (rd : Bool) : Nat × Bool :=
  let x := v % 32
  let y := v / 32 % 8
  let (six, rd6) := subBlock 6 (if k && x = 28 then 0b001111 else code6.getD x 0) (x = 7) rd
  let alt := y = 7 && (if rd6 then [11, 13, 14].contains x else [17, 18, 20].contains x)
  let (four, rd4) :=
    if k then subBlock 4 (code4K.getD y 0) true rd6
    else subBlock 4 (if alt then 0b0111 else code4.getD y 0) (y = 3) rd6
  (six * 2 ^ 4 + four, rd4)

/-! ### 64b/66b (R179; IEEE 802.3 clause 49) -/

/-- Scramble bits by x^58 + x^39 + 1; the state holds the last 58 bits sent, the last the least significant. -/
def scramble (s : Nat) (l : List Bool) : Nat × List Bool :=
  l.foldl (fun (acc : Nat × List Bool) b =>
    let x := (b != Nat.testBit acc.1 38) != Nat.testBit acc.1 57
    ((acc.1 * 2 + x.toNat) % 2 ^ 58, acc.2 ++ [x])) (s, [])

/-- A block as 66 bits in the order of transmission, the first the least significant: the sync header, 01 for data and 10 for control, not
scrambled, then the bytes from byte 0, each from its least significant bit. -/
def enc66 (b : Blk) (s : Nat) : Nat × Nat :=
  let (s', l) := scramble s (b.bytes.flatMap (bitsLsb 8))
  let bits := [b.ctrl, !b.ctrl] ++ l
  ((bits.reverse.foldl (fun a x => 2 * a + x.toNat) 0), s')

/-! ### What a lane sends (R183 to R189, R194, R195, R233) -/

/-- The bits of a CK9 cycle at a rate, in 1/16 (R178). -/
def cycleBits (rate : Nat) : Nat := match rate with | 0 => 200 | 1 => 1650 | 2 => 4125 | _ => 4500

/-- The bits of a character, or of a block, in 1/16. -/
def unitBits (rate : Nat) : Nat := if rate = 0 then 160 else 1056

/-- The rate a lane's transmitter runs at: RATE 0 until STEP has counted down (R183 to R186). -/
def Dev.txRate (d : Dev) (n : Fin 18) : Nat :=
  let st := d.laneSt n
  if st ≤ laneNegotiate || (st = laneStep && ((d.lane n).tx.count ≠ 0 || !(d.lane n).tx.rest.isEmpty)) then 0 else d.get (F.ZXL_LANE_STATUS_RATE n)

/-- The sets of bring-up: DET, ENUM and CAP with the device's own values, none forwarded yet (R181, R183 to R185). -/
def Dev.laneSet (d : Dev) (n : Fin 18) : List Blk :=
  let l := d.lane n
  match d.laneSt n with
  | 1 => orderedSet 0x01 ([0x80] ++ bytesBE 2 l.nonce ++ [0, 0])
  | 3 => orderedSet 0x03 [0, 3 * 2 ^ 4 + 0xF, Config.zixVersion % 2 ^ 8, 0, 0]
  | _ => orderedSet 0x02 [0, n.val % 16, 0, 0, 0]

/-- The transmitter is on in a state: off in RECOVER while dark, in L1 and L2 once the last block is sent, until the exit; the PLL of an
exit from L2 takes 100 µs (R189, R194, R195). -/
def Dev.txOn (d : Dev) (n : Fin 18) : Bool :=
  let l := d.lane n
  match d.laneSt n with
  | 1 | 2 | 3 | 4 | 5 | 6 => true
  | 7 => !l.dark
  | 8 => l.tx.count ≠ 0 || l.exit.isSome
  | 9 => l.tx.count ≠ 0 || (match l.exit with | some t => decide (t + 100000 ≤ d.now) | none => false)
  | _ => false

/-- ALIGN blocks are sent: in ALIGN, in RECOVER once the receiver has relocked, in an exit from L1, and in an exit from L2 once the last
endpoint forwards (R187, R189, R194, R195). -/
def Dev.aligns (d : Dev) (n : Fin 18) : Bool :=
  let l := d.lane n
  match d.laneSt n with
  | 5 => true
  | 7 => match l.relock with | some t => decide (t ≤ d.now) | none => false
  | 8 => true
  | 9 => match l.exit with | some t => decide (t + 740000 ≤ d.now) | none => false
  | _ => false

/-- What a lane sends when nothing waits: the sets or blocks of its state, and IDLE blocks between frames. At RATE 0 no fill is given
between frames (log 63). -/
def Dev.fill (d : Dev) (n : Fin 18) (rate : Nat) (t : Tx) : List Blk × Tx :=
  let st := d.laneSt n
  if st = laneStep && t.count ≠ 0 then
    (orderedSet 0x04 ([d.get (F.ZXL_LANE_STATUS_RATE n)] ++ bytesBE 2 (t.count - 1) ++ [0, 0]), { t with count := t.count - 1 })
  else if st = laneL1 && t.count ≠ 0 then ([lpiBlock], { t with count := t.count - 1 })
  else if st = laneL2 && t.count ≠ 0 then ([darkBlock], { t with count := t.count - 1 })
  else if rate = 0 then ((if st = laneActive then [] else d.laneSet n), t)
  else if d.aligns n then ([alignBlock t.align], { t with align := (t.align + 1) % 2 ^ 32 })
  else ([idleBlock], t)

/-- REM of a block that leaves when so much of the cycle's bit time is still to go: from its departure to the fire instant, in 1/8 ns, rounded
down (R215). -/
def remOf (now at_ rate credit : Nat) : Nat := (at_ * 8 - (now * 8 + ((cycleBits rate - credit) * 80 + cycleBits rate - 1) / cycleBits rate)) % 2 ^ 16

/-- A BEACON carries the network time at which its start block leaves (R219). -/
def Dev.beaconNow (d : Dev) (rate credit : Nat) : Sent → Sent
  | .beacon n c s q _ _ =>
    let t := d.time.ns + (cycleBits rate - credit) * 10 / cycleBits rate
    .beacon n c s q ((d.time.sec + t / 1000000000) % 2 ^ 16) (t % 1000000000)
  | x => x

/-- The units of something sent on a lane. -/
def Dev.unitsOf (d : Dev) (n : Fin 18) (rate : Nat) (t : Tx) (x : Sent) : List Blk :=
  let x := d.beaconNow rate t.credit x
  let rem := match x with | .fire _ _ _ _ at_ _ _ => remOf d.now at_ rate t.credit | _ => 0
  let bs := x.blocks (d.laneAbt n) rem
  if rate = 0 then charsOf bs else bs ++ List.replicate x.gap idleBlock

/-- The next unit of a lane: a priority block goes between any two blocks, then the frame in progress goes on, then the next frame in the
order of R233 begins, else the fill of the state (R208, R233). -/
def Dev.nextUnit (d : Dev) (n : Fin 18) (rate : Nat) (t : Tx) : Option (Blk × Tx) :=
  let take (t : Tx) (l : List Blk) : Option (Blk × Tx) := match l with | [] => none | b :: r => some (b, { t with rest := r })
  if d.laneSt n ≠ laneActive then
    match t.rest with
    | b :: r => some (b, { t with rest := r })
    | [] => let (l, t) := d.fill n rate t; take t l
  else
    match t.prio, rate, t.rest, t.queue with
    | x :: q, r + 1, rest, _ => (d.unitsOf n (r + 1) t x).head?.map fun b => (b, { t with prio := q, rest := rest })
    | _, _, b :: r, _ => some (b, { t with rest := r })
    | x :: q, 0, [], _ => take { t with prio := q } (d.unitsOf n 0 t x)
    | [], r, [], x :: q => take { t with queue := q } (d.unitsOf n r t x)
    | [], r, [], [] => let (l, t) := d.fill n r t; take t l

/-- What a lane sends in the time left of a cycle. -/
def Dev.sendUnits (d : Dev) (n : Fin 18) (rate : Nat) : Nat → Tx → Tx
  | 0, t => t
  | k + 1, t =>
    if t.credit < unitBits rate then t
    else
      match d.nextUnit n rate t with
      | none => { t with credit := 0 }
      | some (b, t) =>
        let t := { t with credit := t.credit - unitBits rate }
        if rate = 0 then
          let (c, rd) := enc10 b.ctrl (b.bytes.headD 0) t.disp
          d.sendUnits n rate k { t with disp := rd, out := t.out ++ [reflect 10 c] }
        else
          let (c, s) := enc66 b t.scr
          d.sendUnits n rate k { t with scr := s, out := t.out ++ [c] }

/-- One CK9 cycle of a lane's transmitter: at most five units. -/
def Dev.txCycle (d : Dev) (n : Fin 18) : Dev :=
  if !d.txOn n then (if (d.lane n).tx.out.isEmpty then d else d.modLane n fun l => { l with tx := { l.tx with out := [] } })
  else
    let rate := d.txRate n
    let t := (d.lane n).tx
    let t := d.sendUnits n rate 5 { t with credit := t.credit % unitBits rate + cycleBits rate, out := [] }
    d.modLane n fun l => { l with tx := t }

end Sys2Proof.Machine
end

