-- ==== Sys2Proof/Machine/Tick.lean ====
section
/-!
DEFINITION. What follows a command within the block, and the tick: the time that passes while no command waits. The clocked work of the
tick is that of one CK9 cycle of 10 ns: the line clocks, the device time, the compare coordinates, and the times that run out.
-/
namespace Sys2Proof.Machine

/-- An occurrence that needs several domains. -/
def Dev.hwAll (d : Dev) (ps : List (Fin 12)) (f : Dev → Dev) : Dev := if ps.all d.live then f d else d

/-- After a motion of the web: a turn of the mark is taken by the bars and, with lamps that follow the direction, by the lamp bus
(R50, R65, R102, R300). -/
def Dev.moved (d : Dev) : Dev :=
  if d.pos.turned then
    let d := d.turn
    if d.mode = .shuttle then d.lampAsk else d
  else d

/-- SETTINGS_APPLY with what it means for a band of the density loop (R109, R275). -/
def Dev.applySet (d : Dev) (b : Fin 12) (seq : Nat) : Dev :=
  match d.set? seq with
  | none => d
  | some s =>
    if d.setDue b s then
      let line := if d.idleBar b then none else s.lines[b]
      let d := d.settingsApply b seq
      (match line with | some p => d.denInBand b p | none => d).hand
    else if (d.bar b).reach.any fun r => r.1 = seq then (d.settingsApply b seq).hand
    else d

/-- LINE_ISSUE with the band decision of the first line of a copy (R67, R269). A buoy of the same cycle is evaluated first (R66). -/
def Dev.issueNext (d : Dev) (b : Fin 12) : Dev :=
  let d := d.buoyFall b
  let due := d.dueLine b
  let d := d.lineIssue b
  match due with
  | some (p, _) => (if (d.bar b).issued.any fun i => i.pos = p then d.bandDecision p else d).hand
  | none => d

/-- CMP_CROSSING with where the pulse goes (R82, R85). -/
def Dev.crossing (d : Dev) (n : Fin 32) : Dev :=
  let (d, started) := d.cmpCross n
  if started then
    let d := d.cmpRoute n
    match d.cmpTarget n with
    | 2 => d.hw 11 (·.cameraTrigger 0)
    | 3 => d.hw 11 (·.cameraTrigger 1)
    | 4 => d.hw 11 (·.cameraTrigger 2)
    | 5 => d.hw 11 (·.cameraTrigger 3)
    | 6 => d.lampPulse
    | _ => d
  else d

/-- A slot pass is over (R171, R223, R348). -/
def Dev.passOver (d : Dev) : Dev := d.passEnd.depositionPass

/-- A STATUS frame with what its slots tell the thermal and the duplex logic (R223, R348, R401); with the last of a cycle the slot pass ends
(R171). -/
def Dev.statusIn (d : Dev) (n : Fin 18) (seq : Nat) (crcOk : Bool) (slots : List (BitVec 64)) (more : Bool) : Dev :=
  let d := ((d.statusReturn n seq crcOk slots).headTemps).depositionNote crcOk (slots.take (d.get (F.ZXL_LANE_STATUS_ENDPOINTS n)))
  allBars.foldl Dev.setsIn (if more then d else d.passOver)

/-- A crossing of the channel waits for its command. -/
def Dev.cmpWaits (d : Dev) (n : Fin 32) : Bool :=
  let x := d.cmpX n
  if d.cmp[n].owed ≠ 0 then true
  else if d.denDriven n then !(d.denCrossed n x).isEmpty
  else if d.lampDriven n then !(d.lampCrossed n x).isEmpty
  else d.cmpDue n x

/-- The compare coordinates of this cycle, but for channels with a crossing to take; what passes where no crossing is evaluated is never
crossed (R77, R82). -/
def Dev.cmpFollow (d : Dev) : Dev :=
  { d with cmp := updAll d.cmp fun n c => if d.cmpRuns && d.cmpWaits n then c else { c with x := d.cmpX n } }

/-- LISTs whose anchor has come take effect (R81). -/
def Dev.listsDue (d : Dev) : Dev :=
  if d.job.sets.any d.listDue then
    (d.job.sets.foldl (fun (d : Dev) s => if d.listDue s then d.listsOnce s else d) d).dropSets
  else d

/-- A CK9 cycle of a lane: the marks and the exits that are due, and what leaves its transmitter (R195, R216, R233). -/
def Dev.laneCycle (d : Dev) (n : Fin 18) : Dev := d.hw (laneDom n) fun d => ((d.nextMark n).lpmOverdue n).txCycle n

/-- Mode changes that are due begin (R227). -/
def Dev.modesTick (d : Dev) (b : Fin 12) : Dev := (d.modesDue b).modeNext b

/-- Direct I²C transactions start (R244). -/
def Dev.i2cTick (d : Dev) : Dev := (List.finRange 4).foldl Dev.i2cStart d

/-- What the units show of their work, for what is judged on the state before a cycle (R378). -/
def Dev.workNow (d : Dev) : Work :=
  { eff := d.eff, cdc := d.cdcStatus, vis := d.visStatus, west := d.halfRuns false, east := d.halfRuns true }

/-- 10 ns pass. -/
def Dev.tick (d : Dev) : Dev :=
  let d : Dev := { d with now := d.now + 10, was := d.regs, shown := d.workNow }
  let d := d.expireSrcs.hw 1 Dev.snapTick
  let d := d.hw 3 fun d => (((d.idleStepNow false).advance 5).holdSeconds).rtServe
  let d := d.hw 10 fun d => d.extrapolate.trimLimit.moved
  let d := d.hw 10 fun d => (allBars.foldl Dev.clockCycle d.stbTick).listsDue.cmpFollow.lampTick
  let d := d.hw 8 fun d => (allBars.foldl Dev.modesTick d).passOver
  let d := (List.finRange 18).foldl Dev.laneCycle d
  let d := d.hw 11 Dev.i2cTick
  let d := d.hw 4 Dev.memTick
  d.hw 1 fun d => d.stopTick.closeWindows

end Sys2Proof.Machine
end

