-- ==== Sys2Proof/Machine/ExecCare.lean ====
section
/-!
DEFINITION. The commands of temperature, integrity, persistent words, freeze and debug (spec/17_temperature.md, spec/18_integrity_and_debug.md). Each meaning says where the command acts and which
function of the chapter it is.
-/
namespace Sys2Proof.Machine

/-- THERMAL_SAMPLE (R395). -/
def execThermalSample (counts : List Nat) (s : State) : Host.Outcome State Fault Refusal := s.dest (s.dev.hw 0 (·.thermalSample counts))

/-- THM_SAMPLE (R394). -/
def execThmSample (counts : List Nat) (s : State) : Host.Outcome State Fault Refusal := 
  s.dest (s.dev.host 2 (·.thmSample counts (s.pending.any fun | .thermalSample _ => true | _ => false)))

/-- ORDERLY_STOP_DONE (R399). -/
def execOrderlyStopDone (s : State) : Host.Outcome State Fault Refusal := s.dest (s.dev.hw 1 Dev.stopDone)

/-- PEAK_CLR (R402). -/
def execPeakClr (s : State) : Host.Outcome State Fault Refusal := s.dest (s.dev.host 2 Dev.peakClr)

/-- CRC_GO (R406). -/
def execCrcGo (n : Fin 8) (s : State) : Host.Outcome State Fault Refusal := s.dest (s.dev.host 4 (·.crcStart n true))

/-- CRC_RESUME (R407). -/
def execCrcResume (n : Fin 8) (s : State) : Host.Outcome State Fault Refusal := s.dest (s.dev.host 4 (·.crcStart n false))

/-- CRC_FINISH (R406). -/
def execCrcFinish (n : Fin 8) (s : State) : Host.Outcome State Fault Refusal := s.dest (s.dev.host 4 (·.crcFinish n))

/-- CRC_ABORT (R406). -/
def execCrcAbort (n : Fin 8) (fed : Nat) (tile : List (BitVec 8)) (s : State) : Host.Outcome State Fault Refusal :=
  s.dest (s.dev.host 4 (·.crcAbort n fed tile))

/-- CRC_DATA (R405). -/
def execCrcData (n : Fin 8) (val : Word) (s : State) : Host.Outcome State Fault Refusal :=
  s.dest (s.dev.host 4 (·.crcStream n (bytesLE 4 val.toNat)))

/-- CRC_DATA_B (R405). -/
def execCrcDataB (n : Fin 8) (val : BitVec 8) (s : State) : Host.Outcome State Fault Refusal := s.dest (s.dev.host 4 (·.crcStream n [val]))

/-- CRC_DMA_END (R406). -/
def execCrcDmaEnd (n : Fin 8) (tile : List (BitVec 8)) (bad : Bool) (s : State) : Host.Outcome State Fault Refusal :=
  s.dest (s.dev.hw 1 (·.crcDmaEnd n tile bad))

/-- PRS_WRITE (R410). -/
def execPrsWrite (w : Fin 8192) (val : Word) (bad : Bool) (s : State) : Host.Outcome State Fault Refusal :=
  s.dest (s.dev.host 3 (·.prsHostWrite w.val val bad))

/-- A host write of a persistent word (R410). -/
def Instr.writesPrs : Instr → Bool
  | .prsWrite .. => true
  | .registerWrite a .. => decide (Reg.PRS_WORD 0 ≤ a) && decide (a < Reg.PRS_WORD 0 + 32768)
  | _ => false

/-- PRS_DEVICE_WRITE (R410): none starts while a host write waits. -/
def execPrsDeviceWrite (bad : Bool) (s : State) : Host.Outcome State Fault Refusal :=
  s.dest (if s.pending.any Instr.writesPrs then s.dev else s.dev.hw 0 (·.prsDeviceWrite bad))

/-- PRS_READ (R413). -/
def execPrsRead (w : Fin 8192) (e : Ecc) (s : State) : Host.Outcome State Fault Refusal := s.dest (s.dev.host 3 (·.prsRead w.val e))

/-- PRS_CNT_CLR (R420). -/
def execPrsCntClr (s : State) : Host.Outcome State Fault Refusal := s.dest (s.dev.host 3 Dev.prsCntClr)

/-- FREEZEN_FALL (R414). -/
def execFreezenFall (s : State) : Host.Outcome State Fault Refusal := s.dest (s.dev.freeze 0)

/-- DBG_FREEZE (R414); in the cycle of a reset of SYSTEM or DEVICE reach it comes first (R417). -/
def execDbgFreeze (val : Word) (s : State) : Host.Outcome State Fault Refusal :=
  s.dest (if s.dev.wideNow then s.dev.dbgFreeze val else s.dev.host 20 (·.dbgFreeze val))

/-- FREEZE_STROBES_DONE (R415). -/
def execFreezeStrobesDone (s : State) : Host.Outcome State Fault Refusal := s.dest (s.dev.strobesDone)

/-- JTAG_IDCODE (R418). -/
def execJtagIdcode (s : State) : Host.Outcome State Fault Refusal := s.dest (s.dev.jtagIdcode)

/-- JTAG_SAMPLE_PRELOAD (R418). -/
def execJtagSamplePreload (s : State) : Host.Outcome State Fault Refusal := s.dest (s.dev.jtagSample)

/-- JTAG_EXTEST (R418). -/
def execJtagExtest (s : State) : Host.Outcome State Fault Refusal := s.dest (s.dev.jtagDrive 3)

/-- JTAG_CLAMP (R418). -/
def execJtagClamp (s : State) : Host.Outcome State Fault Refusal := s.dest (s.dev.jtagDrive 4)

/-- JTAG_HIGHZ (R418). -/
def execJtagHighz (s : State) : Host.Outcome State Fault Refusal := s.dest (s.dev.jtagDrive 5)

/-- JTAG_SCANSEL (R418). -/
def execJtagScansel (k : Fin 16) (s : State) : Host.Outcome State Fault Refusal := s.dest (s.dev.jtagScansel k.val)

/-- JTAG_SCANRD (R419). -/
def execJtagScanrd (s : State) : Host.Outcome State Fault Refusal := s.dest (s.dev.jtagScanrd)

/-- JTAG_SRAMADDR (R418). -/
def execJtagSramaddr (mem : Fin 16) (addr : BitVec 32) (s : State) : Host.Outcome State Fault Refusal :=
  s.dest (s.dev.jtagSramaddr mem.val addr.toNat)

/-- JTAG_SRAMRD (R419). -/
def execJtagSramrd (data : BitVec 64) (check : BitVec 8) (s : State) : Host.Outcome State Fault Refusal :=
  s.dest (s.dev.jtagSramrd data.toNat check.toNat)

/-- JTAG_RSTREQ (R418). -/
def execJtagRstreq (device : Bool) (s : State) : Host.Outcome State Fault Refusal := s.dest (s.dev.jtagRstreq device)

/-- JTAG_BYPASS (R418). -/
def execJtagBypass (s : State) : Host.Outcome State Fault Refusal := s.dest (s.dev.jtagBypass)

/-- TEST_LOGIC_RESET (R418). -/
def execTestLogicReset (s : State) : Host.Outcome State Fault Refusal := s.dest (s.dev.testLogicReset)

end Sys2Proof.Machine
end

