-- ==== Sys2Proof/Machine/ExecDen.lean ====
section
/-!
DEFINITION. The commands of the density loop (spec/11_density_loop.md, R267 to R286). Each meaning says where the command acts and which
function of the chapter it is.
-/
namespace Sys2Proof.Machine

/-- BAND_NOW (R272). -/
def execBandNow (s : State) : Host.Outcome State Fault Refusal := s.dest (s.dev.host 13 Dev.bandNow)

/-- DEN_ESTIMATE (R276). -/
def execDenEstimate (s : State) : Host.Outcome State Fault Refusal := s.dest (s.dev.hwAll [11, 6, 7] Dev.denEstimate)

/-- A SET pulse of the host (R107). -/
def Instr.pulsesSet : Instr → Bool
  | .settingsCommit => true
  | .registerWrite a v be => a = Reg.SYS_COMMIT && be.val = 15 && hit F.SYS_COMMIT_SET v
  | _ => false

/-- The bar of a RESTORE pulse (R282). -/
def Instr.restores : Instr → Option (Fin 12)
  | .denRestore b => some b
  | .registerWrite a v be =>
    match inBars a (Reg.DEN_BAR_CTL 0) 64 with
    | some b => if be.val = 15 && hit (F.DEN_BAR_CTL_RESTORE b) v then some b else none
    | none => none
  | _ => none

/-- DEN_CAPTURE (R280), beside what waits in its cycle (R281). -/
def execDenCapture (s : State) : Host.Outcome State Fault Refusal :=
  s.dest (s.dev.hwAll [11, 4, 6, 7] (·.captureDen (s.pending.any Instr.pulsesSet) (s.pending.filterMap Instr.restores)))

/-- DEN_BUSY_TIMEOUT (R281). -/
def execDenBusyTimeout (s : State) : Host.Outcome State Fault Refusal := s.dest (s.dev.hw 11 Dev.denBusyTimeout)

/-- DEN_RESTORE (R282). -/
def execDenRestore (b : Bar) (s : State) : Host.Outcome State Fault Refusal := s.dest (s.dev.host 13 (·.restoreDen b))

/-- DEN_RESUME (R282). -/
def execDenResume (b : Bar) (s : State) : Host.Outcome State Fault Refusal := s.dest (s.dev.host 13 (·.denResume b))

/-- DEN_CNT_CLR (R285). -/
def execDenCntClr (s : State) : Host.Outcome State Fault Refusal := s.dest (s.dev.host 13 Dev.denCntClr)

end Sys2Proof.Machine
end

