-- ==== Sys2Proof/Machine/ExecDpx.lean ====
section
/-!
DEFINITION. The commands of the duplex logic (spec/14_duplex.md, R331 to R352). Each meaning says where the command acts and which
function of the chapter it is.
-/
namespace Sys2Proof.Machine

/-- HEARTBEAT_SEND (R335). -/
def execHeartbeatSend (s : State) : Host.Outcome State Fault Refusal := s.dest (s.dev.hw 8 Dev.heartbeatSend)

/-- POS_RECORD_SEND (R335). -/
def execPosRecordSend (s : State) : Host.Outcome State Fault Refusal := s.dest (s.dev.hw 8 Dev.posRecordSend)

/-- HEARTBEAT_RX (R335). -/
def execHeartbeatRx (seq : Nat) (r : HbRec) (s : State) : Host.Outcome State Fault Refusal := s.dest (s.dev.hw 8 (·.heartbeatRx seq r))

/-- SCHED_RX (R335). -/
def execSchedRx (seq : Nat) (r : SchedRec) (s : State) : Host.Outcome State Fault Refusal := s.dest (s.dev.hw 8 (·.schedRx seq r))

/-- SETREC_RX (R343). -/
def execSetrecRx (seq setSeq digest : Nat) (atCapture : Bool) (lines : List (Option LineRef))
    (s : State) : Host.Outcome State Fault Refusal :=
  s.dest (s.dev.hw 8 fun d => (d.setrecRx seq setSeq digest atCapture lines).hand)

/-- LCRC_RX (R341). -/
def execLcrcRx (seq : Nat) (b : Bar) (wire value : Nat) (s : State) : Host.Outcome State Fault Refusal :=
  s.dest (s.dev.hw 8 (·.lcrcRx seq b wire value))

/-- LCRC_RECOMPUTE (R341). -/
def execLcrcRecompute (b : Bar) (value : Nat) (s : State) : Host.Outcome State Fault Refusal := s.dest (s.dev.hw 8 fun d => ((if s.lossWaits then d.heartbeatTimeout false else d).lcrcRecompute b value).hand)

/-- GAINS_RX (R343). -/
def execGainsRx (seq : Nat) (b : Bar) (bank : Fin 2) (gains : List (BitVec 8)) (tofs : Option Nat) (setSeq : Nat) (line : Option LineRef)
    (s : State) : Host.Outcome State Fault Refusal :=
  s.dest (s.dev.hw 8 fun d => (d.gainsRx seq b bank.val gains tofs setSeq line).hand)

/-- NOZ_RX (R335). -/
def execNozRx (seq : Nat) (words : List (Nat × Word)) (s : State) : Host.Outcome State Fault Refusal :=
  s.dest (s.dev.hw 8 (·.nozRx seq words))

/-- LAMP_RX (R335). -/
def execLampRx (seq : Nat) (r : LampRec) (s : State) : Host.Outcome State Fault Refusal := s.dest (s.dev.hw 8 (·.lampRx seq r))

/-- POS_RX (R351). -/
def execPosRx (seq : Nat) (r : PosRec) (s : State) : Host.Outcome State Fault Refusal := s.dest (s.dev.hw 8 (·.posRx seq r))

/-- SYNC_REQ_RX (R338). -/
def execSyncReqRx (seq digest : Nat) (s : State) : Host.Outcome State Fault Refusal := s.dest (s.dev.hw 8 (·.syncReqRx seq digest))

/-- SYNC_RX (R338). -/
def execSyncRx (seq : Nat) (r : SyncRec) (s : State) : Host.Outcome State Fault Refusal := s.dest (s.dev.hw 8 (·.syncRx seq r))

/-- SYNC_TIMEOUT (R338). -/
def execSyncTimeout (s : State) : Host.Outcome State Fault Refusal := s.dest (s.dev.hw 8 Dev.syncTimeout)

/-- TAKEOVER_RX (R348). -/
def execTakeoverRx (seq claim _web : Nat) (s : State) : Host.Outcome State Fault Refusal := s.dest (s.dev.hw 8 (·.takeoverRx seq claim))

/-- HEARTBEAT_TIMEOUT (R344). -/
def execHeartbeatTimeout (s : State) : Host.Outcome State Fault Refusal := s.dest (s.dev.hw 8 fun d => (d.heartbeatTimeout s.heartbeatWaits).hand)

/-- TAKEOVER (R345). -/
def execTakeover (s : State) : Host.Outcome State Fault Refusal := s.dest (s.dev.host 16 fun d => (d.takeover s.takeCause).hand)

/-- SET_PAIR_TIMEOUT (R343). -/
def execSetPairTimeout (s : State) : Host.Outcome State Fault Refusal := s.dest (s.dev.hw 8 fun d => d.setPairTimeout.hand)

/-- CLAIM_SET (R332). -/
def execClaimSet (val : Word) (s : State) : Host.Outcome State Fault Refusal := s.dest (s.dev.host 16 (·.claimSet val))

/-- DPX_CNT_CLR (R350). -/
def execDpxCntClr (s : State) : Host.Outcome State Fault Refusal := s.dest (s.dev.host 16 Dev.dpxCntClr)

end Sys2Proof.Machine
end

