-- ==== Sys2Proof/Machine/ExecDrc.lean ====
section
/-!
DEFINITION. The commands of the memory controller (spec/13_dram.md, R305 to R330). Each meaning says where the command acts and which
function of the chapter it is.
-/
namespace Sys2Proof.Machine

/-- REFRESH_DUE (R316). -/
def execRefreshDue (ch : Fin 4) (r : Fin 2) (s : State) : Host.Outcome State Fault Refusal := s.dest (s.dev.hw 4 (·.refreshDue (crOf ch r)))

/-- MR4_POLL (R318). -/
def execMr4Poll (cr : Fin 8) (rate : Fin 32) (cls : Fin 4) (s : State) : Host.Outcome State Fault Refusal :=
  s.dest (s.dev.hw 4 (·.mr4Poll cr rate.val cls.val))

/-- TRACKER_WINDOW_END (R320). -/
def execTrackerWindowEnd (cr : Fin 8) (s : State) : Host.Outcome State Fault Refusal := s.dest (s.dev.hw 4 (·.trackerEnd cr))

/-- MEMORY_READ (R310). -/
def execMemoryRead (who : Client) (u : Nat) (x : Access) (s : State) : Host.Outcome State Fault Refusal :=
  s.dest (s.dev.hw 4 (·.memoryRead who u x.activate x.ecc))

/-- MEMORY_WRITE (R308). -/
def execMemoryWrite (who : Client) (a : Nat) (data : List (BitVec 8)) (x : Access) (s : State) :
    Host.Outcome State Fault Refusal :=
  s.dest (s.dev.hw 4 (·.memoryWrite who a data x.activate x.ecc))

/-- SCRUB_UNIT (R312). -/
def execScrubUnit (activate : Bool) (e : Ecc) (s : State) : Host.Outcome State Fault Refusal := s.dest (s.dev.hw 4 (·.scrubUnit activate e))

/-- WCK_TRACK (R325). -/
def execWckTrack (drifts : List (Nat × Nat)) (s : State) : Host.Outcome State Fault Refusal := s.dest (s.dev.hw 4 (·.wckTrack drifts))

/-- OP_CHANGE_REQUEST (R326). -/
def execOpChangeRequest (op1 : Bool) (s : State) : Host.Outcome State Fault Refusal := s.dest (s.dev.host 15 (·.opChange op1))

/-- OP_CHANGE_DONE (R326). -/
def execOpChangeDone (s : State) : Host.Outcome State Fault Refusal := s.dest (s.dev.hw 4 Dev.opDone)

/-- RANK_RETIRE (R327). -/
def execRankRetire (i : Fin 2) (s : State) : Host.Outcome State Fault Refusal := s.dest (s.dev.host 15 (·.rankRetire i))

/-- MIGRATION_COPY (R327). -/
def execMigrationCopy (i : Fin 2) (e0 e1 : Ecc) (s : State) : Host.Outcome State Fault Refusal :=
  s.dest (s.dev.hw 4 (·.migrationCopy i e0 e1))

/-- UNRETIRE (R328). -/
def execUnretire (i : Fin 2) (s : State) : Host.Outcome State Fault Refusal := s.dest (s.dev.host 15 (·.unretire i))

/-- DRC_CNT_CLR (R330). -/
def execDrcCntClr (s : State) : Host.Outcome State Fault Refusal := s.dest (s.dev.host 15 Dev.drcCntClr)

end Sys2Proof.Machine
end

