-- ==== Sys2Proof/Machine/ExecHost.lean ====
section
/-!
DEFINITION. The commands of the host interface and the register transport (spec/19_host.md, R422 to R440). Each meaning says where the command acts and which
function of the chapter it is.
-/
namespace Sys2Proof.Machine

/-- HST_LINK_UP (R423). -/
def execHstLinkUp (speed : Fin 5) (width : Fin 9) (s : State) : Host.Outcome State Fault Refusal :=
  s.dest (s.dev.hw 2 (·.hstLinkUp speed.val width.val))

/-- PCIE_POWER_STATE (R424). -/
def execPciePowerState (d3 bme msix fmask : Bool) (s : State) : Host.Outcome State Fault Refusal :=
  s.dest (s.dev.hw 2 (·.powerState d3 bme msix fmask))

/-- BAR2_READ (R426). -/
def execBar2Read (off : Fin 0x10000000) (n : Nat) (s : State) : Host.Outcome State Fault Refusal := s.dest (s.dev.bar2Read off.val n)

/-- BAR2_WRITE (R426). -/
def execBar2Write (off : Fin 0x10000000) (data : List (BitVec 8)) (s : State) : Host.Outcome State Fault Refusal :=
  s.dest (s.dev.bar2Write off.val data)

/-- EGRESS_RECORD (R428). -/
def execEgressRecord (e : Fin 2) (descs : List (List Nat)) (s : State) : Host.Outcome State Fault Refusal :=
  s.dest (s.dev.hw 1 (·.egressRecord e descs (s.lastWrite (Reg.HST_EGR_TAIL e))))

/-- EGRESS_RESTART (R428). -/
def execEgressRestart (e : Fin 2) (val : Word) (s : State) : Host.Outcome State Fault Refusal :=
  s.dest (s.dev.host 18 (·.egressCtl e (val ||| 0x80000000)))

/-- INTERRUPT_SIGNAL (R431). -/
def execInterruptSignal (s : State) : Host.Outcome State Fault Refusal := s.dest (s.dev.hw 1 Dev.interruptSignal)

/-- MSIX_RELEASE (R431). -/
def execMsixRelease (s : State) : Host.Outcome State Fault Refusal := s.dest (s.dev.hw 2 Dev.msixRelease)

/-- INT_PEND_CLEAR (R431). -/
def execIntPendClear (hi : Bool) (mask : Word) (s : State) : Host.Outcome State Fault Refusal :=
  s.dest (s.dev.host 18 (·.intPendClear hi mask))

/-- RT_DATAGRAM (R433). -/
def execRtDatagram (m : RtMsg) (s : State) : Host.Outcome State Fault Refusal := s.dest (s.captured.rtDatagram m)

/-- RT_READ_REGISTER (R432). -/
def execRtReadRegister (addr : Nat) (s : State) : Host.Outcome State Fault Refusal := s.dest (s.captured.rtSingle (.rd addr))

/-- RT_WRITE_REGISTER (R432). -/
def execRtWriteRegister (addr : Nat) (val : Word) (s : State) : Host.Outcome State Fault Refusal := s.dest (s.dev.rtSingle (.wr addr val))

/-- RT_READ_JOB_STORE (R432). -/
def execRtReadJobStore (addr len : Nat) (s : State) : Host.Outcome State Fault Refusal := s.dest (s.dev.rtSingle (.rdStore addr len))

/-- RT_WRITE_JOB_STORE (R432). -/
def execRtWriteJobStore (addr : Nat) (data : List (BitVec 8)) (s : State) : Host.Outcome State Fault Refusal :=
  s.dest (s.dev.rtSingle (.wrStore addr data))

/-- RT_ARP (R432). -/
def execRtArp (port : Fin 2) (ip : Nat) (s : State) : Host.Outcome State Fault Refusal := s.dest (s.dev.rtArp port ip)

/-- RT_ICMP_ECHO (R432). -/
def execRtIcmpEcho (port : Fin 2) (ip : Nat) (data : List (BitVec 8)) (s : State) : Host.Outcome State Fault Refusal :=
  s.dest (s.dev.rtIcmp port ip data)

/-- RT_NOTIFY (R434). -/
def execRtNotify (s : State) : Host.Outcome State Fault Refusal := s.dest (s.dev.rtNotify)

end Sys2Proof.Machine
end

