-- ==== Sys2Proof/Machine/ExecJob.lean ====
section
/-!
DEFINITION. The commands of the job block, the ingest channels and the codec (spec/04_jobs.md, spec/05_block_code.md). Each meaning says where the command acts and which
function of the chapter it is.
-/
namespace Sys2Proof.Machine

/-- SCHED_RESET (R117). -/
def execSchedReset (s : State) : Host.Outcome State Fault Refusal := s.dest (s.dev.host 7 Dev.jobReset)

/-- Copies that bars start in this cycle: by a line that waits to be screened, or a boundary (R100). -/
def State.startsWaiting (s : State) : List (Nat × Nat) :=
  s.pending.filterMap fun
    | .screenLine b => s.dev.startsNext b true
    | .jobBoundary b => s.dev.startsNext b false
    | _ => none

/-- BREAK (R100). -/
def execSchedBreak (s : State) : Host.Outcome State Fault Refusal := s.dest (s.dev.host 7 (·.jobBreak s.startsWaiting))

/-- SCHED_TAIL_WRITE (R95). -/
def execSchedTailWrite (val : Word) (s : State) : Host.Outcome State Fault Refusal := s.dest (s.dev.host 7 (·.tailWrite val))

/-- The TAIL that a write of this cycle gives. -/
def State.tailWaiting (s : State) : Option Word :=
  (s.pending.filterMap fun
    | .schedTailWrite v => some v
    | .registerWrite a v be => if a = 0x70001C ∧ be = 15 then some v else none
    | _ => none).getLast?

/-- SCHED_FETCH (R101). A write of TAIL in the same cycle wins: the fetch sees the new entry (R95). -/
def execSchedFetch (s : State) : Host.Outcome State Fault Refusal :=
  s.dest (s.dev.hwAll [4, 5] fun d => ((match s.tailWaiting with | some v => d.tailWrite v | none => d).schedFetch).hand)

/-- JOB_BOUNDARY (R99). -/
def execJobBoundary (b : Bar) (s : State) : Host.Outcome State Fault Refusal := s.dest (s.dev.hw 5 fun d => (d.boundary b).hand)

/-- INGEST_DESCRIPTOR_START (R105). -/
def execIngestDescriptorStart (c : Port) (desc : List Nat) (data : List (BitVec 8)) (s : State) : Host.Outcome State Fault Refusal :=
  s.dest (s.dev.hwAll [2, 4, 6, 7] (·.ingestStart c desc data))

/-- INGEST_DESCRIPTOR_DONE (R106). -/
def execIngestDescriptorDone (c : Port) (s : State) : Host.Outcome State Fault Refusal := s.dest (s.dev.hw 2 (·.ingestDone c))

/-- DMA_TIMEOUT (R106). A completion in the same cycle wins. -/
def execDmaTimeout (c : Port) (s : State) : Host.Outcome State Fault Refusal :=
  s.dest (s.dev.hw 2 fun d => if s.pending.contains (.ingestDescriptorDone c) then d else d.dmaTimeout c)

/-- INGEST_RESTART (R106). -/
def execIngestRestart (c : Port) (val : Word) (s : State) : Host.Outcome State Fault Refusal :=
  s.dest (s.dev.host 7 (·.ingCtl c (val ||| 0x80000000)))

/-- BLOCK_ROW_DECODE (R131). -/
def execBlockRowDecode (b : Bar) (row : Nat) (s : State) : Host.Outcome State Fault Refusal :=
  s.dest (s.dev.hwAll [4, 5, 6, 7] (·.blockRowDecode b row))

/-- CDC_CNT_CLR (R134). -/
def execCdcCntClr (s : State) : Host.Outcome State Fault Refusal := s.dest (s.dev.host 8 Dev.cdcCntClr)

end Sys2Proof.Machine
end

