-- ==== Sys2Proof/Machine/ExecLane.lean ====
section
/-!
DEFINITION. The commands of the lanes (spec/08_zixlink_lanes.md, R180 to R201). Each meaning says where the command acts and which
function of the chapter it is.
-/
namespace Sys2Proof.Machine

/-- RING_CLOSED (R183). -/
def execRingClosed (n : Lane) (hops : Nat) (s : State) : Host.Outcome State Fault Refusal :=
  s.dest (s.dev.hw (laneDom n) (·.ringClosed n hops))

/-- BASE_PASSED (R184). -/
def execBasePassed (n : Lane) (r : BaseResult) (s : State) : Host.Outcome State Fault Refusal :=
  s.dest (s.dev.hw (laneDom n) (·.basePassed n r))

/-- NEGOTIATE_DONE (R185). -/
def execNegotiateDone (n : Lane) (c : Caps) (s : State) : Host.Outcome State Fault Refusal :=
  s.dest (s.dev.hw (laneDom n) (·.negotiateDone n c))

/-- STEP_DONE (R186). -/
def execStepDone (n : Lane) (r : Adapted) (s : State) : Host.Outcome State Fault Refusal := s.dest (s.dev.hw (laneDom n) (·.stepDone n r))

/-- ALIGN_PASSED (R187). -/
def execAlignPassed (n : Lane) (code : Nat) (s : State) : Host.Outcome State Fault Refusal :=
  s.dest (s.dev.hw (laneDom n) (·.alignPassed n code))

/-- A command that waits ends the state of the lane in this cycle (R188; log entry 60). -/
def Instr.endsState (d : Dev) (n : Fin 18) : Instr → Bool
  | .ringClosed m hops => m = n && d.laneSt n = laneDetect && d.lasted n 65536 && (isMir n || decide (hops ≤ 64))
  | .basePassed m r => m = n && d.laneSt n = laneBase && d.lasted n 1000000 && !r.err && r.hops = d.get (F.ZXL_LANE_STATUS_ENDPOINTS n)
      && r.hops = d.get (F.ZXL_LANE_CFG_EP_EXPECT n)
  | .negotiateDone m _ => m = n && d.laneSt n = laneNegotiate
  | .stepDone m r => m = n && d.laneSt n = laneStep && d.lasted n 16384 && r.code = 0
  | .alignPassed m c => m = n && d.laneSt n = laneAlign && d.lasted n 10000000 && c = 0
  | .recoverDone m => m = n && d.laneSt n = laneRecover && d.lasted n 100000
  | _ => false

/-- LANE_STATE_TIMEOUT (R182). -/
def execLaneStateTimeout (n : Lane) (code : Nat) (s : State) : Host.Outcome State Fault Refusal :=
  s.dest (s.dev.hw (laneDom n) (·.laneTimeout n code (s.pending.any (Instr.endsState s.dev n))))

/-- LOCK_LOSS (R189). -/
def execLockLoss (n : Lane) (symbols : Nat) (s : State) : Host.Outcome State Fault Refusal :=
  s.dest (s.dev.hw (laneDom n) (·.lockLoss n symbols))

/-- RECOVER_DONE (R189). -/
def execRecoverDone (n : Lane) (s : State) : Host.Outcome State Fault Refusal := s.dest (s.dev.hw (laneDom n) (·.recoverDone n))

/-- RECOVER_TIMEOUT (R189). -/
def execRecoverTimeout (n : Lane) (s : State) : Host.Outcome State Fault Refusal := 
  s.dest (s.dev.hw (laneDom n) (·.recoverTimeout n (s.pending.any (Instr.endsState s.dev n))))

/-- RECOVER_DARK_END (R189). -/
def execRecoverDarkEnd (n : Lane) (s : State) : Host.Outcome State Fault Refusal := s.dest (s.dev.hw (laneDom n) (·.recoverDarkEnd n))

/-- A write of a lane's EQ, and so of its MODE. -/
def writesEq (n : Fin 18) : Instr → Bool
  | .eqWrite m which _ => m = n && which = 0
  | .registerWrite addr _ be => addr = Reg.ZXL_LANE_EQ n && be.val = 15
  | .rtWriteRegister addr _ => addr = Reg.ZXL_LANE_EQ n
  | _ => false

/-- LMS_UPDATE (R191): a write of MODE in the same cycle wins. -/
def execLmsUpdate (n : Lane) (taps : List Int) (s : State) : Host.Outcome State Fault Refusal :=
  s.dest (s.dev.hw (laneDom n) (·.lmsUpdate n taps (s.pending.any (writesEq n))))

/-- EQ_WRITE (R191). -/
def execEqWrite (n : Lane) (which : Fin 3) (val : Word) (s : State) : Host.Outcome State Fault Refusal :=
  s.dest (s.dev.host 11 (·.eqReg n which val))

/-- MARGIN (R193). -/
def execMargin (n : Lane) (s : State) : Host.Outcome State Fault Refusal := s.dest (s.dev.host 11 (·.marginStart n (s.waiting.losses.contains n)))

/-- MARGIN_DONE (R193). -/
def execMarginDone (n : Lane) (h v : Nat) (s : State) : Host.Outcome State Fault Refusal := s.dest (s.dev.hw (laneDom n) (·.marginDone n h v))

/-- L1_ENTER (R194). -/
def execL1Enter (n : Lane) (s : State) : Host.Outcome State Fault Refusal := s.dest (s.dev.host 11 (·.lowPowerReq n false (s.waiting.losses.contains n) s.waiting.leaves))

/-- L2_ENTER (R195). -/
def execL2Enter (n : Lane) (s : State) : Host.Outcome State Fault Refusal := s.dest (s.dev.host 11 (·.lowPowerReq n true (s.waiting.losses.contains n) s.waiting.leaves))

/-- LANE_WAKE (R194). -/
def execLaneWake (n : Lane) (s : State) : Host.Outcome State Fault Refusal := s.dest (s.dev.host 11 (·.laneWake n (s.waiting.losses.contains n)))

/-- LPM_EXIT_DONE (R195). -/
def execLpmExitDone (n : Lane) (s : State) : Host.Outcome State Fault Refusal := s.dest (s.dev.hw (laneDom n) (·.lpmExitDone n))

/-- L1_IDLE_TIMER (R196). -/
def execL1IdleTimer (n : Lane) (s : State) : Host.Outcome State Fault Refusal := s.dest (s.dev.hw (laneDom n) (·.l1Idle n))

/-- L2_TIMER (R196). -/
def execL2Timer (n : Lane) (s : State) : Host.Outcome State Fault Refusal := s.dest (s.dev.hw (laneDom n) (·.l2Timer n))

/-- RETRAIN (R201). -/
def execRetrain (n : Lane) (s : State) : Host.Outcome State Fault Refusal := s.dest (s.dev.host 11 (·.retrain n (s.waiting.losses.contains n)))

end Sys2Proof.Machine
end

