-- ==== Sys2Proof/Machine/ExecLmp.lean ====
section
/-!
DEFINITION. The commands of the lamp bus and the beacon panel (spec/12_lamps.md, R287 to R304). Each meaning says where the command acts and which
function of the chapter it is.
-/
namespace Sys2Proof.Machine

/-- LAMP_STAGE (R293). -/
def execLampStage (s : State) : Host.Outcome State Fault Refusal := s.dest (s.dev.hw 10 Dev.lampStage)

/-- LAMP_LATCH (R289). -/
def execLampLatch (s : State) : Host.Outcome State Fault Refusal := s.dest (s.dev.hw 10 Dev.lampLatch)

/-- LATCH_NOW (R293). -/
def execLatchNow (s : State) : Host.Outcome State Fault Refusal := s.dest (s.dev.host 14 Dev.latchNow)

/-- COVERAGE_TICK (R295). -/
def execCoverageTick (s : State) : Host.Outcome State Fault Refusal := s.dest (s.dev.hw 10 Dev.coverageTick)

/-- LAMP_POLL (R290). -/
def execLampPoll (s : State) : Host.Outcome State Fault Refusal := s.dest (s.dev.hw 10 Dev.lampPoll)

/-- LAMP_RESPONSE (R290). -/
def execLampResponse (m : Fin 16) (crcOk : Bool) (r : LampAnswer) (s : State) : Host.Outcome State Fault Refusal :=
  s.dest (s.dev.hw 10 (·.lampResponse m crcOk r))

/-- LAMP_RSP_TIMEOUT (R290). -/
def execLampRspTimeout (m : Fin 16) (s : State) : Host.Outcome State Fault Refusal := 
  s.dest (s.dev.hw 10 (·.lampTimeout m (s.pending.any fun i => match i with | .lampResponse n _ _ => n = m | _ => false)))

/-- LAMP_ON_SECOND (R299). -/
def execLampOnSecond (s : State) : Host.Outcome State Fault Refusal := s.dest (s.dev.hw 10 Dev.lampSecond)

/-- HOURS_SAVE (R299). -/
def execHoursSave (s : State) : Host.Outcome State Fault Refusal := s.dest (s.dev.host 14 Dev.hoursSave)

/-- LMP_CNT_CLR (R303). -/
def execLmpCntClr (s : State) : Host.Outcome State Fault Refusal := s.dest (s.dev.host 14 Dev.lmpCntClr)

/-- PANEL_ROW_SWITCH (R301). -/
def execPanelRowSwitch (s : State) : Host.Outcome State Fault Refusal := s.dest (s.dev.hw 10 Dev.panelSwitch)

end Sys2Proof.Machine
end

