-- ==== Sys2Proof/Machine/ExecLtc.lean ====
section
/-!
DEFINITION. The commands of the line timing block (spec/03_line_timing.md, R60 to R87; R215). Each meaning says where the command acts and which
function of the chapter it is.
-/
namespace Sys2Proof.Machine

/-- An entry to PRINT or SHUTTLE, with its start buoys, comes in this cycle (R65). -/
def State.entryWaits (s : State) : Bool :=
  s.pending.contains .transitionComplete && (match s.dev.sys.trans with | some t => t.dest == .print || t.dest == .shuttle | none => false)

/-- BUOY (R63). A start buoy of the same cycle drops it (R65). -/
def execBuoy (b : Bar) (s : State) : Host.Outcome State Fault Refusal :=
  s.dest (s.dev.hw 10 fun d => if s.entryWaits then d else d.buoyFall b)

/-- LINE_ISSUE (R67). -/
def execLineIssue (b : Bar) (s : State) : Host.Outcome State Fault Refusal := s.dest (s.dev.hw 10 (·.issueNext b))

/-- LINE_GATED (R66). -/
def execLineGated (b : Bar) (s : State) : Host.Outcome State Fault Refusal := s.dest (s.dev.hw 10 (·.lineGated b))

/-- FIRE_INSTANT (R68). -/
def execFireInstant (b : Bar) (s : State) : Host.Outcome State Fault Refusal :=
  s.dest (s.dev.hw 10 fun d => ((d.fireInstant b).setsIn b).hand)

/-- STROBE_END (R68). -/
def execStrobeEnd (b : Bar) (s : State) : Host.Outcome State Fault Refusal := s.dest (s.dev.hw 10 (·.strobeEnd b))

/-- STROBE_CUT (R79). -/
def execStrobeCut (n : Fin 8) (s : State) : Host.Outcome State Fault Refusal := s.dest (s.dev.hw 10 (·.stbCut n))

/-- STB_CUT_CLEAR (R79). -/
def execStbCutClear (mask : Word) (s : State) : Host.Outcome State Fault Refusal := s.dest (s.dev.host 6 (·.stbClear mask))

/-- OFFSET_WRITE (R71). -/
def execOffsetWrite (b : Bar) (desc : Bool) (val : Word) (s : State) : Host.Outcome State Fault Refusal :=
  s.dest (s.dev.host 6 (·.offsetWrite b desc val))

/-- CMP_POOL_WRITE (R81). -/
def execCmpPoolWrite (i : Fin 16384) (hi : Word) (s : State) : Host.Outcome State Fault Refusal :=
  s.dest (s.dev.host 6 (·.cmpPoolWrite i.val hi))

/-- CMP_CROSSING (R82). -/
def execCmpCrossing (n : Fin 32) (s : State) : Host.Outcome State Fault Refusal := s.dest (s.dev.hw 10 (·.crossing n))

/-- CMP_PULSE_END (R84). -/
def execCmpPulseEnd (n : Fin 32) (s : State) : Host.Outcome State Fault Refusal := s.dest (s.dev.hw 10 (·.cmpPulseEnd n))

/-- ROW_B_FIRE_ISSUE (R215). -/
def execRowBFireIssue (b : Bar) (s : State) : Host.Outcome State Fault Refusal := s.dest (s.dev.hw 10 (·.rowBFireIssue b))

end Sys2Proof.Machine
end

