-- ==== Sys2Proof/Machine/ExecPos.lean ====
section
/-!
DEFINITION. The commands of the position block (spec/02_web_position.md, R28 to R59, R466). Each meaning says where the command acts and which
function of the chapter it is.
-/
namespace Sys2Proof.Machine

/-- A command that can decode an edge of a channel. -/
def edgeOf (ch : Fin 4) : Instr → Bool
  | .analogSample n _ _ => chOf2 n = ch
  | .quadEdge n _ _ => n = ch
  | .minspElapsed n line => n = ch && line ≠ 2
  | _ => false

/-- An edge of the channel waits in this cycle (R40). -/
def State.edgeWaits (s : State) (ch : Fin 4) : Bool := s.pending.any (edgeOf ch)

/-- Levels of the channel are still to be sampled in this cycle (R34). -/
def State.quadWaits (s : State) (ch : Fin 4) : Bool := s.pending.any fun | .quadEdge n _ _ => n = ch | _ => false

/-- The data line of the channel goes high in this cycle (R38). -/
def State.startWaits (s : State) (ch : Fin 4) : Bool := s.pending.any fun | .ssiTransferStart n => n = ch | _ => false

/-- POS_CFG_WRITE (R28). -/
def execPosCfgWrite (off : Nat) (val : Word) (s : State) : Host.Outcome State Fault Refusal := s.dest (s.dev.host 5 (·.posCfgWrite off val))

/-- ANALOG_SAMPLE (R30). -/
def execAnalogSample (ch : Fin 2) (sn cs : Int) (s : State) : Host.Outcome State Fault Refusal :=
  s.dest (s.dev.hw 10 fun d => ((d.analogSample ch sn cs).indexTake (chOf2 ch) (s.edgeWaits (chOf2 ch))).moved)

/-- AMPLITUDE_EPISODE (R31). -/
def execAmplitudeEpisode (ch : Fin 2) (high : Bool) (s : State) : Host.Outcome State Fault Refusal :=
  s.dest (s.dev.hw 10 (·.amplitudeEpisode (chOf2 ch) high))

/-- QUAD_EDGE (R32). -/
def execQuadEdge (ch : Chan) (a b : Bool) (s : State) : Host.Outcome State Fault Refusal :=
  s.dest (s.dev.hw 10 fun d => ((d.quadEdge ch a b).indexTake ch (s.edgeWaits ch)).moved)

/-- MINSP_ELAPSED (R33). Where levels of the channel are still to be sampled in this cycle, that sample accepts the change (R34). -/
def execMinspElapsed (ch : Chan) (line : Fin 3) (s : State) : Host.Outcome State Fault Refusal :=
  s.dest (s.dev.hw 10 fun d =>
    if line ≠ 2 && s.quadWaits ch then d
    else ((d.minspElapsed ch line (s.edgeWaits ch)).indexTake ch (s.edgeWaits ch)).moved)

/-- INDEX_EDGE (R40). -/
def execIndexEdge (ch : Chan) (level : Bool) (s : State) : Host.Outcome State Fault Refusal :=
  s.dest (s.dev.hw 10 fun d => (d.indexEdge ch level (s.edgeWaits ch)).moved)

/-- SSI_REQUEST (R38). -/
def execSsiRequest (ch : Chan) (s : State) : Host.Outcome State Fault Refusal := s.dest (s.dev.hw 10 (·.ssiRequest ch))

/-- SSI_TRANSFER_START (R38). -/
def execSsiTransferStart (ch : Chan) (s : State) : Host.Outcome State Fault Refusal := s.dest (s.dev.hw 10 (·.ssiStart ch))

/-- SSI_TIMEOUT (R38). A data line that goes high in this cycle wins. -/
def execSsiTimeout (ch : Chan) (s : State) : Host.Outcome State Fault Refusal :=
  s.dest (s.dev.hw 10 fun d => if s.startWaits ch then d else d.ssiTimeout ch)

/-- SSI_WORD (R39). -/
def execSsiWord (ch : Chan) (hi lo : Word) (s : State) : Host.Outcome State Fault Refusal :=
  s.dest (s.dev.hw 10 fun d => (d.ssiWord ch (hi.toNat * 2 ^ 32 + lo.toNat)).moved)

/-- WEB_SET (R46). -/
def execWebSet (hi : Word) (s : State) : Host.Outcome State Fault Refusal := s.dest (s.dev.host 5 (·.webSet hi))

/-- SPEED_WINDOW_END (R48). -/
def execSpeedWindowEnd (s : State) : Host.Outcome State Fault Refusal := s.dest (s.dev.hw 10 Dev.speedWindowEnd)

/-- FAULT_WINDOW_END (R52). -/
def execFaultWindowEnd (s : State) : Host.Outcome State Fault Refusal := s.dest (s.dev.hw 10 Dev.faultWindowEnd)

/-- POS_CNT_CLR (R52). -/
def execPosCntClr (s : State) : Host.Outcome State Fault Refusal := s.dest (s.dev.host 5 Dev.posCntClr)

/-- TRIM_MEASURE (R53). -/
def execTrimMeasure (n : Fin 2) (s : State) : Host.Outcome State Fault Refusal := s.dest (s.dev.host 5 (·.trimMeasure n))

/-- TRIM_DONE (R53). -/
def execTrimDone (n : Fin 2) (periods : Nat) (s : State) : Host.Outcome State Fault Refusal := s.dest (s.dev.hw 10 (·.trimDone n periods))

/-- TRIM_APPLY (R54). -/
def execTrimApply (n : Fin 2) (s : State) : Host.Outcome State Fault Refusal := s.dest (s.dev.host 5 (·.trimApply n))

/-- TRIM_APPLIED (R54). -/
def execTrimApplied (n : Fin 2) (s : State) : Host.Outcome State Fault Refusal := s.dest (s.dev.hw 10 fun d => (d.trimApplied n).moved)

/-- TRIM_STORE (R56). -/
def execTrimStore (n : Fin 2) (s : State) : Host.Outcome State Fault Refusal := s.dest (s.dev.host 5 (·.trimStore n))

end Sys2Proof.Machine
end

