-- ==== Sys2Proof/Machine/ExecSys.lean ====
section
/-!
DEFINITION. The commands of the system block: register writes, modes, commits, snapshots and the event ring (spec/01_architecture.md). Each meaning says where the command acts and which
function of the chapter it is.
-/
namespace Sys2Proof.Machine

/-- A write of SYS_MODE_REQ.TARGET. -/
def writesTarget : Instr → Bool
  | .modeRequest _ => true
  | .registerWrite addr _ be => addr = Reg.SYS_MODE_REQ && be.val = 15
  | .rtWriteRegister addr _ => addr = Reg.SYS_MODE_REQ
  | _ => false

/-- A write of TARGET that another one of the same cycle follows is never a request, but is refused while one is pending (R26). -/
def Dev.targetOnly (d : Dev) (target : Nat) : Dev :=
  if d.get F.SYS_MODE_REQ_RESULT = 1 then d.modeRefusedEvt 2 else d.set F.SYS_MODE_REQ_TARGET target

/-- MODE_REQUEST (R26): of the writes of one cycle, which wait together (log entry 60), the last is the request. -/
def execModeRequest (target : Fin 16) (s : State) : Host.Outcome State Fault Refusal :=
  s.dest (s.dev.host 0 fun d =>
    if s.firesNow then d.modeRefusedEvt 2
    else if s.pending.any writesTarget then d.targetOnly target.val else (d.modeRequestAny target.val).hand)

/-- REGISTER_WRITE (R2). -/
def execRegisterWrite (addr : Nat) (val : Word) (be : Fin 16) (s : State) : Host.Outcome State Fault Refusal :=
  if addr = Reg.SYS_MODE_REQ && be.val = 15 then execModeRequest ⟨F.SYS_MODE_REQ_TARGET.of val % 16, Nat.mod_lt _ (by decide)⟩ s
  else s.dest (s.dev.hostWrite .pcie addr val be.val s.waiting)

/-- A Sync, or what completes one, waits in the queue. -/
def State.syncWaits (s : State) : Bool := s.pending.any fun | .ptpSync _ | .ptpFollowUp .. => true | _ => false

/-- TRANSITION_COMPLETE (R21). -/
def execTransitionComplete (s : State) : Host.Outcome State Fault Refusal :=
  s.dest (s.dev.hw 1 fun d => (d.transDone.idleStepNow s.syncWaits).hand)

/-- CAUSE_CLR (R25). -/
def execCauseClr (s : State) : Host.Outcome State Fault Refusal := s.dest (s.dev.host 0 Dev.modeCauseClr)

/-- SETTINGS_COMMIT (R107). -/
def execSettingsCommit (s : State) : Host.Outcome State Fault Refusal := s.dest (s.dev.host 0 fun d => d.settingsCommit.hand)

/-- SETTINGS_APPLY (R109). -/
def execSettingsApply (b : Bar) (seq : Nat) (s : State) : Host.Outcome State Fault Refusal := s.dest (s.dev.hw 5 (·.applySet b seq))

/-- CONFIG_COMMIT (R112). -/
def execConfigCommit (s : State) : Host.Outcome State Fault Refusal := s.dest (s.dev.host 0 fun d => d.configCommit.hand)

/-- CONFIG_COMMIT_DONE (R161). -/
def execConfigCommitDone (s : State) : Host.Outcome State Fault Refusal := s.dest (s.dev.hw 1 Dev.configDone)

/-- SNAP_TAKE (R436). -/
def execSnapTake (s : State) : Host.Outcome State Fault Refusal := s.dest (s.dev.host 0 Dev.snapRequest)

/-- SNAP_AUTO (R436). -/
def execSnapAuto (s : State) : Host.Outcome State Fault Refusal := s.dest (s.dev.hw 1 Dev.snapAuto)

/-- SNAP_CAPTURE (R436). -/
def execSnapCapture (s : State) : Host.Outcome State Fault Refusal := s.dest (s.dev.hw 1 Dev.snapCapture)

/-- EVENT_RAISE (R430). -/
def execEventRaise (s : State) : Host.Outcome State Fault Refusal := s.dest (s.dev.hw 1 Dev.eventRaise)

/-- EVENT_WRITE (R429). -/
def execEventWrite (s : State) : Host.Outcome State Fault Refusal := s.dest (s.dev.hw 1 (·.eventWrite s.evtTail))

/-- EVT_TAIL_WRITE (R429). -/
def execEvtTailWrite (val : Word) (s : State) : Host.Outcome State Fault Refusal := s.dest (s.dev.host 0 (·.evtTailWrite val))

/-- EVT_CFG_WRITE (R429). -/
def execEvtCfgWrite (val : Word) (s : State) : Host.Outcome State Fault Refusal := s.dest (s.dev.host 0 (·.evtCfgWrite val))

/-- EVT_RING_WRITE (R429). -/
def execEvtRingWrite (which : Fin 3) (val : Word) (s : State) : Host.Outcome State Fault Refusal :=
  s.dest (s.dev.host 0 (·.evtRingWrite which val))

/-- EVT_MOD_EXPIRY (R429). -/
def execEvtModExpiry (s : State) : Host.Outcome State Fault Refusal := s.dest (s.dev.hw 1 Dev.evtModExpiry)

end Sys2Proof.Machine
end

