-- ==== Sys2Proof/Machine/ExecPtp.lean ====
section
/-!
DEFINITION. The commands of network time (spec/15_time.md, R353 to R366) and of the network links (R439). Each meaning says where the command acts and which
function of the chapter it is.
-/
namespace Sys2Proof.Machine

/-- PTP_SYNC (R356). -/
def execPtpSync (m : SyncMsg) (s : State) : Host.Outcome State Fault Refusal := s.dest (s.dev.hw 3 fun d => (d.ptpSync m).idleStepNow s.syncWaits)

/-- PTP_ANNOUNCE (R353). -/
def execPtpAnnounce (m : AnnMsg) (s : State) : Host.Outcome State Fault Refusal := s.dest (s.dev.hw 3 (·.ptpAnnounce m))

/-- PTP_DELAY_RESP (R356). -/
def execPtpDelayResp (m : DelayMsg) (s : State) : Host.Outcome State Fault Refusal := s.dest (s.dev.hw 3 (·.ptpDelayResp m))

/-- ANNOUNCE_TIMEOUT (R357). -/
def execAnnounceTimeout (s : State) : Host.Outcome State Fault Refusal := 
  s.dest (s.dev.hw 3 (·.announceTimeout (s.pending.any fun | .ptpAnnounce m => s.dev.fromMaster m | _ => false)))

/-- SYNC_LOSS (R357). -/
def execSyncLoss (s : State) : Host.Outcome State Fault Refusal := s.dest (s.dev.hw 3 Dev.syncLoss)

/-- PTP_SYNC_SEND (R354). -/
def execPtpSyncSend (s : State) : Host.Outcome State Fault Refusal := s.dest (s.dev.hw 3 Dev.ptpSyncSend)

/-- SET_TIME (R358). -/
def execSetTime (s : State) : Host.Outcome State Fault Refusal := s.dest (s.dev.host 17 Dev.setTime)

/-- TIME_CAPTURE (R365). -/
def execTimeCapture (s : State) : Host.Outcome State Fault Refusal := s.dest (s.dev.host 17 Dev.timeCapture)

/-- PTP_CNT_CLR (R365). -/
def execPtpCntClr (s : State) : Host.Outcome State Fault Refusal := s.dest (s.dev.host 17 Dev.ptpClear)

/-- ACTION_ARM (R361). -/
def execActionArm (a : Fin 4) (target : Fin 16) (s : State) : Host.Outcome State Fault Refusal :=
  s.dest (s.dev.host 17 (·.actionArm a target.val))

/-- ACTION_CANCEL (R361). -/
def execActionCancel (a : Fin 4) (s : State) : Host.Outcome State Fault Refusal := s.dest (s.dev.host 17 (·.actionCancel a))

/-- ACTION_FIRE (R361). -/
def execActionFire (a : Fin 4) (s : State) : Host.Outcome State Fault Refusal := s.dest (s.dev.hwAll [1, 3] fun d => (d.actionFire a).hand)

/-- PTP_DELAY_REQ_SEND (R353). -/
def execPtpDelayReqSend (s : State) : Host.Outcome State Fault Refusal := s.dest (s.dev.hw 3 Dev.ptpDelayReqSend)

/-- PTP_DELAY_REQ_RX (R354). -/
def execPtpDelayReqRx (m : ReqMsg) (s : State) : Host.Outcome State Fault Refusal := s.dest (s.dev.hw 3 (·.ptpDelayReqRx m))

/-- PTP_FOLLOW_UP (R353). -/
def execPtpFollowUp (port : Fin 2) (domain src seq origin : Nat) (corr : Int) (s : State) : Host.Outcome State Fault Refusal :=
  s.dest (s.dev.hw 3 fun d => (d.ptpFollowUp port domain src seq origin corr).idleStepNow s.syncWaits)

/-- PTP_RX_DISCARD (R353). -/
def execPtpRxDiscard (s : State) : Host.Outcome State Fault Refusal := s.dest (s.dev.hw 3 Dev.ptpRxDiscard)

/-- NET_LINK_DOWN (R439). -/
def execNetLinkDown (port : Fin 2) (s : State) : Host.Outcome State Fault Refusal := s.dest (s.dev.hw 3 (·.netLink port false))

/-- NET_LINK_UP (R439). -/
def execNetLinkUp (port : Fin 2) (s : State) : Host.Outcome State Fault Refusal := s.dest (s.dev.hw 3 (·.netLink port true))

end Sys2Proof.Machine
end

