-- ==== Sys2Proof/Machine/ExecReset.lean ====
section
/-!
DEFINITION. The commands of reset, power, clocks and boot (spec/16_bring_up.md, R367 to R391; R450). Each meaning says where the command acts and which
function of the chapter it is.
-/
namespace Sys2Proof.Machine

/-- POWER_ON (R368). -/
def execPowerOn (s : State) : Host.Outcome State Fault Refusal := s.dest (s.dev.vinGood)

/-- VIN_LOW (R368). -/
def execVinLow (s : State) : Host.Outcome State Fault Refusal := s.dest (s.dev.vinLow)

/-- BROWNOUT (R368). -/
def execBrownout (p : Fin 12) (lowNs : Nat) (s : State) : Host.Outcome State Fault Refusal := s.dest (s.dev.brownout p lowNs)

/-- RSTN_ASSERT (R371). -/
def execRstnAssert (s : State) : Host.Outcome State Fault Refusal := s.dest (s.dev.rstnLow)

/-- RSTN_RELEASE (R371). -/
def execRstnRelease (s : State) : Host.Outcome State Fault Refusal := s.dest (s.dev.rstnHigh)

/-- PERST_ASSERT (R423). -/
def execPerstAssert (s : State) : Host.Outcome State Fault Refusal := s.dest (s.dev.perstLow)

/-- PERST_RELEASE (R423). -/
def execPerstRelease (s : State) : Host.Outcome State Fault Refusal := s.dest (s.dev.perstHigh)

/-- PCIE_LINK_DOWN (R371). -/
def execPcieLinkDown (s : State) : Host.Outcome State Fault Refusal := s.dest (s.dev.linkDown)

/-- SW_RESET (R377). -/
def execSwReset (via : Master) (reach : Fin 4) (dom : Fin 16) (block : Fin 256) (s : State) : Host.Outcome State Fault Refusal :=
  s.dest (s.dev.host 1 (·.swReset via reach.val dom.val block.val))

/-- DOMAIN_POWER_DOWN (R377). -/
def execDomainPowerDown (via : Master) (dom : Fin 16) (s : State) : Host.Outcome State Fault Refusal :=
  s.dest (s.dev.host 1 (·.power via dom.val true))

/-- DOMAIN_POWER_UP (R377). -/
def execDomainPowerUp (via : Master) (dom : Fin 16) (s : State) : Host.Outcome State Fault Refusal :=
  s.dest (s.dev.host 1 (·.power via dom.val false))

/-- RESET_TAKE_HOLD (R374). -/
def execResetTakeHold (p : Fin 12) (s : State) : Host.Outcome State Fault Refusal := s.dest (s.dev.resetTakeHold p)

/-- RESET_RELEASE (R374). -/
def execResetRelease (p : Fin 12) (s : State) : Host.Outcome State Fault Refusal := s.dest (s.dev.resetRelease p)

/-- CLOCK_LOSS (R370). -/
def execClockLoss (k : Fin 12) (s : State) : Host.Outcome State Fault Refusal := s.dest (s.dev.clockLoss k.val)

/-- CLOCK_GOOD (R370). -/
def execClockGood (k : Fin 12) (s : State) : Host.Outcome State Fault Refusal := s.dest (s.dev.clockGood k.val)

/-- WATCHDOG_EXPIRY (R380). -/
def execWatchdogExpiry (s : State) : Host.Outcome State Fault Refusal := s.dest (s.dev.watchdog)

/-- CRIT_ERROR (R379). -/
def execCritError (cls : Fin 4) (s : State) : Host.Outcome State Fault Refusal := s.dest (s.dev.critError (cls.val + 1))

/-- CAUSE_CLEAR (R373). -/
def execCauseClear (mask : Word) (s : State) : Host.Outcome State Fault Refusal := s.dest (s.dev.host 1 (·.causeClear mask))

/-- BOOT_STEP_COMPLETE (R384). -/
def execBootStepComplete (r : StepOut) (s : State) : Host.Outcome State Fault Refusal := s.dest (s.dev.bootStep r)

/-- BOOT_STEP_TIMEOUT (R384). -/
def execBootStepTimeout (s : State) : Host.Outcome State Fault Refusal := s.dest (s.dev.bootTimeout)

/-- BOOT_RETRY (R385). -/
def execBootRetry (s : State) : Host.Outcome State Fault Refusal := s.dest (s.dev.bootRetry)

/-- WAKE (R388). -/
def execWake (s : State) : Host.Outcome State Fault Refusal := s.dest (s.dev.wakeUp)

/-- VIO_LOSS (R450). -/
def execVioLoss (bank : Fin 3) (s : State) : Host.Outcome State Fault Refusal := s.dest (s.dev.vioLoss bank.val)

/-- VIO_RECOVER (R450). -/
def execVioRecover (bank : Fin 3) (s : State) : Host.Outcome State Fault Refusal := s.dest (s.dev.vioRecover bank.val)

/-- SPI_READ (R386). -/
def execSpiRead (val : Word) (s : State) : Host.Outcome State Fault Refusal := s.dest (s.dev.host 1 (·.spiGo (F.RPC_SPI_CTL_READ.into val 1)))

/-- SPI_WRITE (R386). -/
def execSpiWrite (val : Word) (s : State) : Host.Outcome State Fault Refusal :=
  s.dest (s.dev.host 1 (·.spiGo (F.RPC_SPI_CTL_READ.into val 0)))

/-- SPI_DONE (R386). -/
def execSpiDone (data : List (BitVec 8)) (s : State) : Host.Outcome State Fault Refusal := s.dest (s.dev.hw 1 (·.spiDone data))

end Sys2Proof.Machine
end

