-- ==== Sys2Proof/Machine/ExecScr.lean ====
section
/-!
DEFINITION. The commands of the screening array, the line assembler and the nozzle block (spec/06_screening.md, spec/07_rows_and_nozzles.md). Each meaning says where the command acts and which
function of the chapter it is.
-/
namespace Sys2Proof.Machine

/-- SCREEN_LINE (R153). -/
def execScreenLine (b : Bar) (s : State) : Host.Outcome State Fault Refusal := s.dest (s.dev.hwAll (s.dev.halves b) (·.screenNext b))

/-- CHECKPOINT_COPY (R150). -/
def execCheckpointCopy (b : Bar) (s : State) : Host.Outcome State Fault Refusal := s.dest (s.dev.hwAll (s.dev.halves b) (·.checkpointCopy b))

/-- REPLAY_LINE (R152). -/
def execReplayLine (b : Bar) (s : State) : Host.Outcome State Fault Refusal := s.dest (s.dev.hwAll (s.dev.halves b) (·.replayNext b))

/-- GAIN_LOAD (R140). -/
def execGainLoad (b : Bar) (s : State) : Host.Outcome State Fault Refusal := s.dest (s.dev.hwAll (4 :: s.dev.halves b) (·.gainLoad b))

/-- MATRIX_WRITE (R142). -/
def execMatrixWrite (x y : Fin 128) (hi : Word) (s : State) : Host.Outcome State Fault Refusal :=
  s.dest (s.dev.host 9 (·.matrixWrite x.val y.val hi))

/-- SCR_CNT_CLR (R157). -/
def execScrCntClr (s : State) : Host.Outcome State Fault Refusal := s.dest (s.dev.host 9 Dev.scrCntClr)

/-- OUT_BANK_WRITE (R166). -/
def execOutBankWrite (b : Bar) (bank : Fin 2) (entry : Option (Fin 4096)) (val : Word) (s : State) : Host.Outcome State Fault Refusal :=
  s.dest (s.dev.host 10 (·.outBank b bank.val (entry.map (·.val)) val))

/-- OVT_RELEASE (R170). -/
def execOvtRelease (h : Fin 1024) (s : State) : Host.Outcome State Fault Refusal := s.dest (s.dev.hw 6 (·.ovtRelease h.val s.waiting.hot))

/-- OVT_CLR (R170). -/
def execOvtClr (s : State) : Host.Outcome State Fault Refusal := s.dest (s.dev.host 10 (·.ovtClr s.waiting.hot))

/-- NOZ_HEAD_ACT_WRITE (R172). -/
def execNozHeadActWrite (hi : Word) (s : State) : Host.Outcome State Fault Refusal := s.dest (s.dev.host 10 (·.headActWrite hi))

/-- LIFE_PERSIST (R174). -/
def execLifePersist (s : State) : Host.Outcome State Fault Refusal := s.dest (s.dev.hw 6 Dev.lifePersistAll)

/-- LIFE_SAVE (R174). -/
def execLifeSave (s : State) : Host.Outcome State Fault Refusal := s.dest (s.dev.host 10 Dev.lifeSaveAll)

/-- NOZ_CNT_CLR (R176). -/
def execNozCntClr (s : State) : Host.Outcome State Fault Refusal := s.dest (s.dev.host 10 Dev.nozCntClr)

end Sys2Proof.Machine
end

