-- ==== Sys2Proof/Machine/ExecVis.lean ====
section
/-!
DEFINITION. The commands of the camera ports and the image pipeline (spec/10_vision.md, R240 to R266). Each meaning says where the command acts and which
function of the chapter it is.
-/
namespace Sys2Proof.Machine

/-- FRAME_START (R242). -/
def execFrameStart (p : Port) (s : State) : Host.Outcome State Fault Refusal := s.dest (s.dev.hwAll [11, 6, 7] (·.frameStart p))

/-- LINE_START (R242). -/
def execLineStart (p : Port) (s : State) : Host.Outcome State Fault Refusal := s.dest (s.dev.hwAll [11, 6, 7] (·.lineStart p))

/-- FRAME_END (R245). -/
def execFrameEnd (p : Port) (s : State) : Host.Outcome State Fault Refusal := s.dest (s.dev.hwAll [11, 6, 7] (·.frameEnd p))

/-- VSYNC_TIMEOUT (R246). -/
def execVsyncTimeout (p : Port) (s : State) : Host.Outcome State Fault Refusal :=
  s.dest (s.dev.hw 11 (·.vsyncTimeout p (s.pending.contains (.frameStart p))))

/-- EXPOSURE_END (R243). -/
def execExposureEnd (p : Port) (s : State) : Host.Outcome State Fault Refusal := s.dest (s.dev.hw 11 (·.exposureEnd p))

/-- I2C_WRITE (R244). -/
def execI2cWrite (p : Port) (val : Word) (s : State) : Host.Outcome State Fault Refusal := s.dest (s.dev.host 12 (·.i2cGo p false val))

/-- I2C_READ (R244). -/
def execI2cRead (p : Port) (val : Word) (s : State) : Host.Outcome State Fault Refusal := s.dest (s.dev.host 12 (·.i2cGo p true val))

/-- I2C_DONE (R244). -/
def execI2cDone (p : Port) (ack : Bool) (data : Fin 256) (s : State) : Host.Outcome State Fault Refusal :=
  s.dest (s.dev.hw 11 (·.i2cDone p ack data.val))

/-- SENSOR_LIST_DONE (R263). -/
def execSensorListDone (p : Port) (nacks : List Nat) (s : State) : Host.Outcome State Fault Refusal :=
  s.dest (s.dev.hw 11 (·.sensorListDone p nacks))

/-- M2M_FRAME (R249). -/
def execM2mFrame (s : State) : Host.Outcome State Fault Refusal := s.dest (s.dev.hwAll [11, 4, 6, 7] Dev.m2mFrame)

/-- M2M_FRAME_DONE (R249). -/
def execM2mFrameDone (s : State) : Host.Outcome State Fault Refusal := s.dest (s.dev.hwAll [11, 4, 6, 7] Dev.m2mDone)

/-- VIS_TABLE_WRITE (R265). -/
def execVisTableWrite (i : Fin 2048) (val : Word) (s : State) : Host.Outcome State Fault Refusal :=
  s.dest (s.dev.host 12 (·.visTableWrite i.val val))

/-- VIS_CNT_CLR (R266). -/
def execVisCntClr (s : State) : Host.Outcome State Fault Refusal := s.dest (s.dev.host 12 Dev.visCntClr)

/-- CAMERA_LINE_END (R241). -/
def execCameraLineEnd (p : Port) (transfers : List Nat) (s : State) : Host.Outcome State Fault Refusal :=
  s.dest (s.dev.hwAll [11, 6, 7] (·.cameraLineEnd p transfers))

end Sys2Proof.Machine
end

