-- ==== Sys2Proof/Machine/ExecZxl.lean ====
section
/-!
DEFINITION. The commands of the Zixlink protocol (spec/09_zixlink_protocol.md, R202 to R239). Each meaning says where the command acts and which
function of the chapter it is.
-/
namespace Sys2Proof.Machine

/-- LINE_FRAME_SEND (R214). -/
def execLineFrameSend (b : Bar) (s : State) : Host.Outcome State Fault Refusal := s.dest (s.dev.hw 8 (·.lineFrameSend b))

/-- BEACON (R219). -/
def execBeacon (n : Lane) (s : State) : Host.Outcome State Fault Refusal := s.dest (s.dev.hw (laneDom n) (·.beacon n))

/-- STATUS_FRAME_SEND (R221). -/
def execStatusFrameSend (n : Lane) (s : State) : Host.Outcome State Fault Refusal := s.dest (s.dev.hw (laneDom n) (·.statusSend n))

/-- Another STATUS frame returns in this cycle (R171, R223; log entry 60). -/
def State.returnWaits (s : State) : Bool := s.pending.any fun | .statusFrameReturn .. => true | _ => false

/-- STATUS_FRAME_RETURN (R223). -/
def execStatusFrameReturn (n : Lane) (seq : Nat) (crcOk : Bool) (slots : List (BitVec 64)) (s : State) : Host.Outcome State Fault Refusal :=
  s.dest (s.dev.hw (laneDom n) (·.statusIn n seq crcOk slots s.returnWaits))

/-- STATUS_FRAME_LOST (R223). -/
def execStatusFrameLost (n : Lane) (s : State) : Host.Outcome State Fault Refusal := s.dest (s.dev.hw (laneDom n) (·.statusLost n))

/-- FAULT_WINDOW_CLOSE (R223). -/
def execFaultWindowClose (s : State) : Host.Outcome State Fault Refusal := s.dest (s.dev.hw 8 (·.faultWindowClose s.returnWaits))

/-- FVEC_CLEAR (R223). -/
def execFvecClear (w : Fin 32) (mask : Word) (s : State) : Host.Outcome State Fault Refusal := s.dest (s.dev.host 11 (·.vecClear w.val mask))

/-- ECMD_READ (R224). -/
def execEcmdRead (ep : Fin 1024) (reg : Fin 65536) (s : State) : Host.Outcome State Fault Refusal :=
  s.dest (s.dev.host 11 (·.ecmdRead ep.val reg.val))

/-- ECMD_WRITE (R224). -/
def execEcmdWrite (ep : Fin 1024) (reg : Fin 65536) (s : State) : Host.Outcome State Fault Refusal :=
  s.dest (s.dev.host 11 (·.ecmdWrite ep.val reg.val))

/-- ECMD_BROADCAST_WRITE (R224). -/
def execEcmdBroadcastWrite (b : Bar) (reg : Fin 65536) (s : State) : Host.Outcome State Fault Refusal :=
  s.dest (s.dev.host 11 (·.ecmdBroadcast b reg.val))

/-- RSP_RECEIVED (R224). -/
def execRspReceived (n : Lane) (tag : Fin 256) (status : Fin 256) (word : Word) (s : State) : Host.Outcome State Fault Refusal :=
  s.dest (s.dev.hw (laneDom n) (·.rspReceived n tag.val status.val word))

/-- CMD_TIMEOUT (R224): an RSP of the same cycle wins. -/
def execCmdTimeout (s : State) : Host.Outcome State Fault Refusal :=
  s.dest (s.dev.hw 8 (·.cmdTimeout (s.pending.filterMap fun | .rspReceived n tag _ _ => some (n.val, tag.val) | _ => none)))

/-- PUSH_RESEND (R226). -/
def execPushResend (n : Lane) (s : State) : Host.Outcome State Fault Refusal := s.dest (s.dev.hw (laneDom n) (·.pushResend n))

/-- DELAY_MEASURE (R216). -/
def execDelayMeasure (s : State) : Host.Outcome State Fault Refusal := s.dest (s.dev.host 11 Dev.delayMeasure)

/-- DELAY_MEASURE_DONE (R216). -/
def execDelayMeasureDone (n : Lane) (ring : Int) (eps : List EpDelay) (s : State) : Host.Outcome State Fault Refusal :=
  s.dest (s.dev.hw (laneDom n) (·.delayResult n ring eps))

/-- MODE_CHANGE_DEADLINE (R230): an acknowledgement of the same cycle wins, so a STATUS frame that waits goes first. -/
def execModeChangeDeadline (b : Bar) (s : State) : Host.Outcome State Fault Refusal :=
  s.dest (s.dev.hw 8 (·.modeDeadline b (s.pending.flatMap (s.dev.prepAcks b))))

/-- MODE_CHANGE_ABORT_END (R230). -/
def execModeChangeAbortEnd (b : Bar) (s : State) : Host.Outcome State Fault Refusal :=
  s.dest (s.dev.hw 8 fun d => allBars.foldl Dev.setsIn (d.modeAbortOver b))

/-- STATE_PUSH (R231). -/
def execStatePush (ep : Fin 1024) (s : State) : Host.Outcome State Fault Refusal := s.dest (s.dev.hw 8 (·.statePush ep.val))

end Sys2Proof.Machine
end

