-- ==== Sys2Proof/Machine/Dispatch.lean ====
section
/-!
DEFINITION. One arm per command: the direct call of its meaning.
-/
namespace Sys2Proof.Machine

/-- The effect of a command on everything but the queue. -/
def exec (i : Instr) (s : State) : Host.Outcome State Fault Refusal :=
  match i with
  | .registerWrite addr val be => Sys2Proof.Machine.execRegisterWrite addr val be s
  | .modeRequest target => Sys2Proof.Machine.execModeRequest target s
  | .transitionComplete => Sys2Proof.Machine.execTransitionComplete s
  | .causeClr => Sys2Proof.Machine.execCauseClr s
  | .posCfgWrite off val => Sys2Proof.Machine.execPosCfgWrite off val s
  | .analogSample ch sn cs => Sys2Proof.Machine.execAnalogSample ch sn cs s
  | .amplitudeEpisode ch high => Sys2Proof.Machine.execAmplitudeEpisode ch high s
  | .quadEdge ch a b => Sys2Proof.Machine.execQuadEdge ch a b s
  | .minspElapsed ch line => Sys2Proof.Machine.execMinspElapsed ch line s
  | .indexEdge ch level => Sys2Proof.Machine.execIndexEdge ch level s
  | .ssiRequest ch => Sys2Proof.Machine.execSsiRequest ch s
  | .ssiTransferStart ch => Sys2Proof.Machine.execSsiTransferStart ch s
  | .ssiTimeout ch => Sys2Proof.Machine.execSsiTimeout ch s
  | .ssiWord ch hi lo => Sys2Proof.Machine.execSsiWord ch hi lo s
  | .webSet hi => Sys2Proof.Machine.execWebSet hi s
  | .speedWindowEnd => Sys2Proof.Machine.execSpeedWindowEnd s
  | .faultWindowEnd => Sys2Proof.Machine.execFaultWindowEnd s
  | .posCntClr => Sys2Proof.Machine.execPosCntClr s
  | .trimMeasure n => Sys2Proof.Machine.execTrimMeasure n s
  | .trimDone n periods => Sys2Proof.Machine.execTrimDone n periods s
  | .trimApply n => Sys2Proof.Machine.execTrimApply n s
  | .trimApplied n => Sys2Proof.Machine.execTrimApplied n s
  | .trimStore n => Sys2Proof.Machine.execTrimStore n s
  | .buoy b => Sys2Proof.Machine.execBuoy b s
  | .lineIssue b => Sys2Proof.Machine.execLineIssue b s
  | .lineGated b => Sys2Proof.Machine.execLineGated b s
  | .fireInstant b => Sys2Proof.Machine.execFireInstant b s
  | .strobeEnd b => Sys2Proof.Machine.execStrobeEnd b s
  | .strobeCut n => Sys2Proof.Machine.execStrobeCut n s
  | .stbCutClear mask => Sys2Proof.Machine.execStbCutClear mask s
  | .offsetWrite b desc val => Sys2Proof.Machine.execOffsetWrite b desc val s
  | .cmpPoolWrite entry hi => Sys2Proof.Machine.execCmpPoolWrite entry hi s
  | .cmpCrossing n => Sys2Proof.Machine.execCmpCrossing n s
  | .cmpPulseEnd n => Sys2Proof.Machine.execCmpPulseEnd n s
  | .settingsCommit => Sys2Proof.Machine.execSettingsCommit s
  | .settingsApply b seq => Sys2Proof.Machine.execSettingsApply b seq s
  | .configCommit => Sys2Proof.Machine.execConfigCommit s
  | .configCommitDone => Sys2Proof.Machine.execConfigCommitDone s
  | .schedReset => Sys2Proof.Machine.execSchedReset s
  | .schedBreak => Sys2Proof.Machine.execSchedBreak s
  | .schedTailWrite val => Sys2Proof.Machine.execSchedTailWrite val s
  | .schedFetch => Sys2Proof.Machine.execSchedFetch s
  | .jobBoundary b => Sys2Proof.Machine.execJobBoundary b s
  | .ingestDescriptorStart c desc data => Sys2Proof.Machine.execIngestDescriptorStart c desc data s
  | .ingestDescriptorDone c => Sys2Proof.Machine.execIngestDescriptorDone c s
  | .dmaTimeout c => Sys2Proof.Machine.execDmaTimeout c s
  | .ingestRestart c val => Sys2Proof.Machine.execIngestRestart c val s
  | .blockRowDecode b row => Sys2Proof.Machine.execBlockRowDecode b row s
  | .cdcCntClr => Sys2Proof.Machine.execCdcCntClr s
  | .screenLine b => Sys2Proof.Machine.execScreenLine b s
  | .checkpointCopy b => Sys2Proof.Machine.execCheckpointCopy b s
  | .replayLine b => Sys2Proof.Machine.execReplayLine b s
  | .gainLoad b => Sys2Proof.Machine.execGainLoad b s
  | .matrixWrite x y hi => Sys2Proof.Machine.execMatrixWrite x y hi s
  | .scrCntClr => Sys2Proof.Machine.execScrCntClr s
  | .outBankWrite b bank entry val => Sys2Proof.Machine.execOutBankWrite b bank entry val s
  | .ovtRelease h => Sys2Proof.Machine.execOvtRelease h s
  | .ovtClr => Sys2Proof.Machine.execOvtClr s
  | .nozHeadActWrite hi => Sys2Proof.Machine.execNozHeadActWrite hi s
  | .lifePersist => Sys2Proof.Machine.execLifePersist s
  | .lifeSave => Sys2Proof.Machine.execLifeSave s
  | .nozCntClr => Sys2Proof.Machine.execNozCntClr s
  | .ringClosed n hops => Sys2Proof.Machine.execRingClosed n hops s
  | .basePassed n r => Sys2Proof.Machine.execBasePassed n r s
  | .negotiateDone n c => Sys2Proof.Machine.execNegotiateDone n c s
  | .stepDone n r => Sys2Proof.Machine.execStepDone n r s
  | .alignPassed n code => Sys2Proof.Machine.execAlignPassed n code s
  | .laneStateTimeout n code => Sys2Proof.Machine.execLaneStateTimeout n code s
  | .lockLoss n symbols => Sys2Proof.Machine.execLockLoss n symbols s
  | .recoverDone n => Sys2Proof.Machine.execRecoverDone n s
  | .recoverTimeout n => Sys2Proof.Machine.execRecoverTimeout n s
  | .recoverDarkEnd n => Sys2Proof.Machine.execRecoverDarkEnd n s
  | .lmsUpdate n taps => Sys2Proof.Machine.execLmsUpdate n taps s
  | .eqWrite n which val => Sys2Proof.Machine.execEqWrite n which val s
  | .margin n => Sys2Proof.Machine.execMargin n s
  | .marginDone n h v => Sys2Proof.Machine.execMarginDone n h v s
  | .l1Enter n => Sys2Proof.Machine.execL1Enter n s
  | .l2Enter n => Sys2Proof.Machine.execL2Enter n s
  | .laneWake n => Sys2Proof.Machine.execLaneWake n s
  | .lpmExitDone n => Sys2Proof.Machine.execLpmExitDone n s
  | .l1IdleTimer n => Sys2Proof.Machine.execL1IdleTimer n s
  | .l2Timer n => Sys2Proof.Machine.execL2Timer n s
  | .retrain n => Sys2Proof.Machine.execRetrain n s
  | .lineFrameSend b => Sys2Proof.Machine.execLineFrameSend b s
  | .beacon n => Sys2Proof.Machine.execBeacon n s
  | .statusFrameSend n => Sys2Proof.Machine.execStatusFrameSend n s
  | .statusFrameReturn n seq crcOk slots => Sys2Proof.Machine.execStatusFrameReturn n seq crcOk slots s
  | .statusFrameLost n => Sys2Proof.Machine.execStatusFrameLost n s
  | .faultWindowClose => Sys2Proof.Machine.execFaultWindowClose s
  | .fvecClear w mask => Sys2Proof.Machine.execFvecClear w mask s
  | .ecmdRead ep reg => Sys2Proof.Machine.execEcmdRead ep reg s
  | .ecmdWrite ep reg => Sys2Proof.Machine.execEcmdWrite ep reg s
  | .ecmdBroadcastWrite b reg => Sys2Proof.Machine.execEcmdBroadcastWrite b reg s
  | .rspReceived n tag status word => Sys2Proof.Machine.execRspReceived n tag status word s
  | .cmdTimeout => Sys2Proof.Machine.execCmdTimeout s
  | .pushResend n => Sys2Proof.Machine.execPushResend n s
  | .delayMeasure => Sys2Proof.Machine.execDelayMeasure s
  | .delayMeasureDone n ring eps => Sys2Proof.Machine.execDelayMeasureDone n ring eps s
  | .modeChangeDeadline b => Sys2Proof.Machine.execModeChangeDeadline b s
  | .modeChangeAbortEnd b => Sys2Proof.Machine.execModeChangeAbortEnd b s
  | .statePush ep => Sys2Proof.Machine.execStatePush ep s
  | .frameStart p => Sys2Proof.Machine.execFrameStart p s
  | .lineStart p => Sys2Proof.Machine.execLineStart p s
  | .frameEnd p => Sys2Proof.Machine.execFrameEnd p s
  | .vsyncTimeout p => Sys2Proof.Machine.execVsyncTimeout p s
  | .exposureEnd p => Sys2Proof.Machine.execExposureEnd p s
  | .i2cWrite p val => Sys2Proof.Machine.execI2cWrite p val s
  | .i2cRead p val => Sys2Proof.Machine.execI2cRead p val s
  | .i2cDone p ack data => Sys2Proof.Machine.execI2cDone p ack data s
  | .sensorListDone p nacks => Sys2Proof.Machine.execSensorListDone p nacks s
  | .m2mFrame => Sys2Proof.Machine.execM2mFrame s
  | .m2mFrameDone => Sys2Proof.Machine.execM2mFrameDone s
  | .visTableWrite entry val => Sys2Proof.Machine.execVisTableWrite entry val s
  | .visCntClr => Sys2Proof.Machine.execVisCntClr s
  | .bandNow => Sys2Proof.Machine.execBandNow s
  | .denEstimate => Sys2Proof.Machine.execDenEstimate s
  | .denCapture => Sys2Proof.Machine.execDenCapture s
  | .denBusyTimeout => Sys2Proof.Machine.execDenBusyTimeout s
  | .denRestore b => Sys2Proof.Machine.execDenRestore b s
  | .denResume b => Sys2Proof.Machine.execDenResume b s
  | .denCntClr => Sys2Proof.Machine.execDenCntClr s
  | .lampStage => Sys2Proof.Machine.execLampStage s
  | .lampLatch => Sys2Proof.Machine.execLampLatch s
  | .latchNow => Sys2Proof.Machine.execLatchNow s
  | .coverageTick => Sys2Proof.Machine.execCoverageTick s
  | .lampPoll => Sys2Proof.Machine.execLampPoll s
  | .lampResponse m crcOk r => Sys2Proof.Machine.execLampResponse m crcOk r s
  | .lampRspTimeout m => Sys2Proof.Machine.execLampRspTimeout m s
  | .lampOnSecond => Sys2Proof.Machine.execLampOnSecond s
  | .hoursSave => Sys2Proof.Machine.execHoursSave s
  | .lmpCntClr => Sys2Proof.Machine.execLmpCntClr s
  | .panelRowSwitch => Sys2Proof.Machine.execPanelRowSwitch s
  | .refreshDue ch r => Sys2Proof.Machine.execRefreshDue ch r s
  | .mr4Poll cr rate cls => Sys2Proof.Machine.execMr4Poll cr rate cls s
  | .trackerWindowEnd cr => Sys2Proof.Machine.execTrackerWindowEnd cr s
  | .memoryRead who u x => Sys2Proof.Machine.execMemoryRead who u x s
  | .memoryWrite who a data x => Sys2Proof.Machine.execMemoryWrite who a data x s
  | .scrubUnit activate e => Sys2Proof.Machine.execScrubUnit activate e s
  | .wckTrack drifts => Sys2Proof.Machine.execWckTrack drifts s
  | .opChangeRequest op1 => Sys2Proof.Machine.execOpChangeRequest op1 s
  | .opChangeDone => Sys2Proof.Machine.execOpChangeDone s
  | .rankRetire ix => Sys2Proof.Machine.execRankRetire ix s
  | .migrationCopy ix e0 e1 => Sys2Proof.Machine.execMigrationCopy ix e0 e1 s
  | .unretire ix => Sys2Proof.Machine.execUnretire ix s
  | .drcCntClr => Sys2Proof.Machine.execDrcCntClr s
  | .heartbeatSend => Sys2Proof.Machine.execHeartbeatSend s
  | .posRecordSend => Sys2Proof.Machine.execPosRecordSend s
  | .heartbeatRx seq r => Sys2Proof.Machine.execHeartbeatRx seq r s
  | .schedRx seq r => Sys2Proof.Machine.execSchedRx seq r s
  | .setrecRx seq setSeq digest atCapture lines => Sys2Proof.Machine.execSetrecRx seq setSeq digest atCapture lines s
  | .lcrcRx seq b wire value => Sys2Proof.Machine.execLcrcRx seq b wire value s
  | .lcrcRecompute b value => Sys2Proof.Machine.execLcrcRecompute b value s
  | .gainsRx seq b bank gains tofs setSeq line => Sys2Proof.Machine.execGainsRx seq b bank gains tofs setSeq line s
  | .nozRx seq words => Sys2Proof.Machine.execNozRx seq words s
  | .lampRx seq r => Sys2Proof.Machine.execLampRx seq r s
  | .posRx seq r => Sys2Proof.Machine.execPosRx seq r s
  | .syncReqRx seq digest => Sys2Proof.Machine.execSyncReqRx seq digest s
  | .syncRx seq r => Sys2Proof.Machine.execSyncRx seq r s
  | .syncTimeout => Sys2Proof.Machine.execSyncTimeout s
  | .takeoverRx seq claim web => Sys2Proof.Machine.execTakeoverRx seq claim web s
  | .heartbeatTimeout => Sys2Proof.Machine.execHeartbeatTimeout s
  | .takeover => Sys2Proof.Machine.execTakeover s
  | .setPairTimeout => Sys2Proof.Machine.execSetPairTimeout s
  | .claimSet val => Sys2Proof.Machine.execClaimSet val s
  | .dpxCntClr => Sys2Proof.Machine.execDpxCntClr s
  | .ptpSync m => Sys2Proof.Machine.execPtpSync m s
  | .ptpAnnounce m => Sys2Proof.Machine.execPtpAnnounce m s
  | .ptpDelayResp m => Sys2Proof.Machine.execPtpDelayResp m s
  | .announceTimeout => Sys2Proof.Machine.execAnnounceTimeout s
  | .syncLoss => Sys2Proof.Machine.execSyncLoss s
  | .ptpSyncSend => Sys2Proof.Machine.execPtpSyncSend s
  | .setTime => Sys2Proof.Machine.execSetTime s
  | .timeCapture => Sys2Proof.Machine.execTimeCapture s
  | .ptpCntClr => Sys2Proof.Machine.execPtpCntClr s
  | .actionArm a target => Sys2Proof.Machine.execActionArm a target s
  | .actionCancel a => Sys2Proof.Machine.execActionCancel a s
  | .actionFire a => Sys2Proof.Machine.execActionFire a s
  | .powerOn => Sys2Proof.Machine.execPowerOn s
  | .vinLow => Sys2Proof.Machine.execVinLow s
  | .brownout p lowNs => Sys2Proof.Machine.execBrownout p lowNs s
  | .rstnAssert => Sys2Proof.Machine.execRstnAssert s
  | .rstnRelease => Sys2Proof.Machine.execRstnRelease s
  | .perstAssert => Sys2Proof.Machine.execPerstAssert s
  | .perstRelease => Sys2Proof.Machine.execPerstRelease s
  | .pcieLinkDown => Sys2Proof.Machine.execPcieLinkDown s
  | .hstLinkUp speed width => Sys2Proof.Machine.execHstLinkUp speed width s
  | .pciePowerState d3 bme msix fmask => Sys2Proof.Machine.execPciePowerState d3 bme msix fmask s
  | .swReset via reach dom block => Sys2Proof.Machine.execSwReset via reach dom block s
  | .domainPowerDown via dom => Sys2Proof.Machine.execDomainPowerDown via dom s
  | .domainPowerUp via dom => Sys2Proof.Machine.execDomainPowerUp via dom s
  | .resetTakeHold p => Sys2Proof.Machine.execResetTakeHold p s
  | .resetRelease p => Sys2Proof.Machine.execResetRelease p s
  | .clockLoss k => Sys2Proof.Machine.execClockLoss k s
  | .watchdogExpiry => Sys2Proof.Machine.execWatchdogExpiry s
  | .critError cls => Sys2Proof.Machine.execCritError cls s
  | .causeClear mask => Sys2Proof.Machine.execCauseClear mask s
  | .bootStepComplete r => Sys2Proof.Machine.execBootStepComplete r s
  | .bootStepTimeout => Sys2Proof.Machine.execBootStepTimeout s
  | .bootRetry => Sys2Proof.Machine.execBootRetry s
  | .wake => Sys2Proof.Machine.execWake s
  | .vioLoss bank => Sys2Proof.Machine.execVioLoss bank s
  | .vioRecover bank => Sys2Proof.Machine.execVioRecover bank s
  | .spiRead val => Sys2Proof.Machine.execSpiRead val s
  | .spiWrite val => Sys2Proof.Machine.execSpiWrite val s
  | .spiDone data => Sys2Proof.Machine.execSpiDone data s
  | .thermalSample counts => Sys2Proof.Machine.execThermalSample counts s
  | .thmSample counts => Sys2Proof.Machine.execThmSample counts s
  | .orderlyStopDone => Sys2Proof.Machine.execOrderlyStopDone s
  | .peakClr => Sys2Proof.Machine.execPeakClr s
  | .crcGo n => Sys2Proof.Machine.execCrcGo n s
  | .crcResume n => Sys2Proof.Machine.execCrcResume n s
  | .crcFinish n => Sys2Proof.Machine.execCrcFinish n s
  | .crcAbort n fed tile => Sys2Proof.Machine.execCrcAbort n fed tile s
  | .crcData n val => Sys2Proof.Machine.execCrcData n val s
  | .crcDataB n val => Sys2Proof.Machine.execCrcDataB n val s
  | .crcDmaEnd n tile bad => Sys2Proof.Machine.execCrcDmaEnd n tile bad s
  | .prsWrite w val bad => Sys2Proof.Machine.execPrsWrite w val bad s
  | .prsDeviceWrite bad => Sys2Proof.Machine.execPrsDeviceWrite bad s
  | .prsRead w e => Sys2Proof.Machine.execPrsRead w e s
  | .prsCntClr => Sys2Proof.Machine.execPrsCntClr s
  | .freezenFall => Sys2Proof.Machine.execFreezenFall s
  | .dbgFreeze val => Sys2Proof.Machine.execDbgFreeze val s
  | .freezeStrobesDone => Sys2Proof.Machine.execFreezeStrobesDone s
  | .jtagIdcode => Sys2Proof.Machine.execJtagIdcode s
  | .jtagSamplePreload => Sys2Proof.Machine.execJtagSamplePreload s
  | .jtagExtest => Sys2Proof.Machine.execJtagExtest s
  | .jtagClamp => Sys2Proof.Machine.execJtagClamp s
  | .jtagHighz => Sys2Proof.Machine.execJtagHighz s
  | .jtagScansel k => Sys2Proof.Machine.execJtagScansel k s
  | .jtagScanrd => Sys2Proof.Machine.execJtagScanrd s
  | .jtagSramaddr mem addr => Sys2Proof.Machine.execJtagSramaddr mem addr s
  | .jtagSramrd data check => Sys2Proof.Machine.execJtagSramrd data check s
  | .jtagRstreq device => Sys2Proof.Machine.execJtagRstreq device s
  | .jtagBypass => Sys2Proof.Machine.execJtagBypass s
  | .bar2Read off n => Sys2Proof.Machine.execBar2Read off n s
  | .bar2Write off data => Sys2Proof.Machine.execBar2Write off data s
  | .egressRecord e descs => Sys2Proof.Machine.execEgressRecord e descs s
  | .egressRestart e val => Sys2Proof.Machine.execEgressRestart e val s
  | .eventRaise => Sys2Proof.Machine.execEventRaise s
  | .eventWrite => Sys2Proof.Machine.execEventWrite s
  | .evtTailWrite val => Sys2Proof.Machine.execEvtTailWrite val s
  | .evtCfgWrite val => Sys2Proof.Machine.execEvtCfgWrite val s
  | .evtRingWrite which val => Sys2Proof.Machine.execEvtRingWrite which val s
  | .interruptSignal => Sys2Proof.Machine.execInterruptSignal s
  | .msixRelease => Sys2Proof.Machine.execMsixRelease s
  | .intPendClear hi mask => Sys2Proof.Machine.execIntPendClear hi mask s
  | .rtDatagram m => Sys2Proof.Machine.execRtDatagram m s
  | .rtReadRegister addr => Sys2Proof.Machine.execRtReadRegister addr s
  | .rtWriteRegister addr val => Sys2Proof.Machine.execRtWriteRegister addr val s
  | .rtReadJobStore addr len => Sys2Proof.Machine.execRtReadJobStore addr len s
  | .rtWriteJobStore addr data => Sys2Proof.Machine.execRtWriteJobStore addr data s
  | .rtArp port ip => Sys2Proof.Machine.execRtArp port ip s
  | .rtIcmpEcho port ip data => Sys2Proof.Machine.execRtIcmpEcho port ip data s
  | .rtNotify => Sys2Proof.Machine.execRtNotify s
  | .snapTake => Sys2Proof.Machine.execSnapTake s
  | .snapAuto => Sys2Proof.Machine.execSnapAuto s
  | .snapCapture => Sys2Proof.Machine.execSnapCapture s
  | .rowBFireIssue b => Sys2Proof.Machine.execRowBFireIssue b s
  | .cameraLineEnd p transfers => Sys2Proof.Machine.execCameraLineEnd p transfers s
  | .clockGood k => Sys2Proof.Machine.execClockGood k s
  | .netLinkDown port => Sys2Proof.Machine.execNetLinkDown port s
  | .netLinkUp port => Sys2Proof.Machine.execNetLinkUp port s
  | .ptpDelayReqSend => Sys2Proof.Machine.execPtpDelayReqSend s
  | .ptpDelayReqRx m => Sys2Proof.Machine.execPtpDelayReqRx m s
  | .ptpFollowUp port domain src seq origin corr => Sys2Proof.Machine.execPtpFollowUp port domain src seq origin corr s
  | .ptpRxDiscard => Sys2Proof.Machine.execPtpRxDiscard s
  | .evtModExpiry => Sys2Proof.Machine.execEvtModExpiry s
  | .testLogicReset => Sys2Proof.Machine.execTestLogicReset s

end Sys2Proof.Machine
end

