-- ==== Sys2Proof/Machine/Balls.lean ====
section
/-!
DEFINITION. The levels of the signal balls (R16, R78, R85, R243, R287, R300, R333, R367, R375, R381, R396): what the device drives on each ball
in a state, none where it is high-impedance. The serial links' transmitters are in Wire.lean, and what leaves a message bus is `Dev.sent`.
-/
namespace Sys2Proof.Machine

/-- An I/O bank has its supply (R367): 0 VIOA, 1 VIOB, 2 VIOC. -/
def Dev.bankOn (d : Dev) (k : Nat) : Bool := Nat.testBit (d.get F.RPC_STATUS_VIO) k

/-- Balls of a domain that boot step 10 releases are driven (R381). -/
def Dev.ballsOut (d : Dev) (p : Fin 12) (bank : Nat) : Bool := d.boot.released && d.runs p && d.bankOn bank

/-- STBn (R78, R333). -/
def Dev.stbBall (d : Dev) (n : Fin 8) : Option Bool := if d.ballsOut 10 1 && !d.shareZ 0 then some d.stb[n].high else none

/-- CMPOUTk (R77, R85, R333): the level of the channel that claims it; low where none does. In SHADOW, HOLD's pulses apart, no pulse shows. -/
def Dev.cmpBall (d : Dev) (k : Fin 16) : Option Bool :=
  if d.ballsOut 10 1 && !d.shareZ 1 then
    match (List.finRange 32).find? fun n => d.cmpTarget n = 1 && d.effGet (F.LTC_CMP_CFG_PIN n) = k.val with
    | some n => some (d.cmpLevel n (d.cmp[n].pulse.isSome && d.mode != .shadow))
    | none => some false
  else none

/-- CAMn_EXP (R243, R265, R333). -/
def Dev.expBall (d : Dev) (p : Fin 4) : Option Bool :=
  if d.ballsOut 11 2 && !d.shareZ 3 then some ((d.port p).exp.isSome == decide ((F.VIS_CAM_EXP_POL p).of (d.effRd (Reg.VIS_CAM_EXP p)) = 0)) else none

/-- The lamp balls are driven: in SHADOW they never are (R300). -/
def Dev.lampOut (d : Dev) : Bool := d.ballsOut 10 1 && !d.boot.lampOff && d.mode != .shadow && !d.shareZ 2

/-- LMP_TXD (R288), LMP_DE and LMPEN (R287). -/
def Dev.txdBall (d : Dev) : Option Bool := if d.lampOut then some d.lampTxd else none

def Dev.deBall (d : Dev) : Option Bool := if d.lampOut then some d.lampDe else none

def Dev.lmpenBall (d : Dev) : Option Bool := if d.lampOut then some d.lmpen else none

/-- HRC: the code whose duty the PWM carries (R297). -/
def Dev.hrcBall (d : Dev) : Option Nat := if d.lampOut then some (d.get F.LMP_HRC_STATUS_CODE) else none

/-- The panel's row sources and column sinks that are on (R301). -/
def Dev.panelBalls (d : Dev) : Option (Option Nat × Nat) := if d.ballsOut 10 1 then some (d.panelRow, d.panelCols) else none

/-- DIn_RESETn and DIn_CKE, from AON latches (R375): at the self-refresh levels through any reset that finds the memory there, high once it is
up, else low. -/
def Dev.dramBalls (d : Dev) : Bool × Bool := (d.drc.selfRef || (d.live 4 && d.memUp), !d.drc.selfRef && d.live 4 && d.memUp)

/-- MACHINE_SLOW (R396): released at the first step 10, driven from PD0. -/
def Dev.slowBall (d : Dev) : Option Bool := if d.boot.slow && d.bankOn 0 then some (d.bit F.THM_STATUS_THROT) else none

end Sys2Proof.Machine
end

