-- ==== Sys2Proof/Safety.lean ====
section
/-!
DEFINITION. The words the statements are written in: where a host command reaches its block, what a command leaves as it was, and the
conditions that every step keeps.
-/
namespace Sys2Proof.Machine

/-- A host access reaches a register block: the register fabric works, no freeze has begun, and the block answers (R16, R386, R415). -/
def Dev.reaches (d : Dev) (blk : Nat) : Bool := d.live 1 && d.frz.isNone && d.on blk

/-- The state with another block. -/
def State.withDev (s : State) (d : Dev) : State := { s with dev := d }

/-- The word a register reads after the listed registers have taken the listed words. -/
def Dev.wordAfter (d : Dev) (rs : List (Nat × Word)) (a : Nat) : Word := ((rs.find? fun p => p.1 = a).map (·.2)).getD (d.rd a)

/-- From `s` to `t` the listed registers take the listed words and every other register keeps its own; beside the registers nothing
changes but what `f` changes. -/
def State.gives (s t : State) (rs : List (Nat × Word)) (f : Dev → Dev := id) : Prop :=
  t = { s with dev := { f s.dev with regs := t.dev.regs } } ∧ ∀ a, t.dev.rd a = s.dev.wordAfter rs a

/-- The bits of a field in its register. -/
def Fld.mask (f : Fld) : Word := BitVec.ofNat 32 ((2 ^ f.w - 1) * 2 ^ f.lo)

/-- From `s` to `t` the listed counters give up what they held as the cycle began, so that a counter that has not moved in this cycle takes 0,
and nothing else changes, but for the fields `also`. -/
def State.countersClear (s t : State) (fs : List Fld) (also : List Fld := []) : Prop :=
  t = s.withDev { s.dev with regs := t.dev.regs } ∧
  (∀ f ∈ fs, t.dev.get f = (s.dev.get f + 2 ^ f.w - s.dev.began f) % 2 ^ f.w ∧ (s.dev.began f = s.dev.get f → t.dev.get f = 0)) ∧
  ∀ a, let m := ((fs ++ also).filter fun f => f.reg = a).foldl (fun (m : Word) f => m ||| f.mask) 0
    t.dev.rd a &&& ~~~m = s.dev.rd a &&& ~~~m

/-- A memory channel with nothing in progress: no request waits, no burst runs, neither rank owes a refresh or holds a bank (R314, R316). -/
def Dev.memIdle (d : Dev) (k : Fin 4) : Prop :=
  d.memServes = true ∧ d.drc.ch[k].waiting = [] ∧ d.drc.ch[k].freeAt ≤ d.now ∧
    ∀ i : Fin 8, i.val / 2 = k.val → let c := d.chRank i
      c.must = 0 ∧ c.debt = 0 ∧ c.rht = [] ∧ ∀ x ∈ c.busy, x.2 ≤ d.now

/-- The register block that a host command of the table writes: none for REGISTER_WRITE, which names its block by its address, and for commands
that are not a host access of one block (R16, R436). -/
def hostBlock : Instr → Option Nat
  | .modeRequest .. | .causeClr .. | .settingsCommit .. | .configCommit .. | .snapTake .. | .evtTailWrite .. | .evtCfgWrite ..
  | .evtRingWrite .. => some 0
  | .swReset .. | .domainPowerDown .. | .domainPowerUp .. | .causeClear .. | .spiRead .. | .spiWrite .. => some 1
  | .thmSample .. | .peakClr .. => some 2
  | .prsWrite .. | .prsRead .. | .prsCntClr .. => some 3
  | .crcGo .. | .crcResume .. | .crcFinish .. | .crcAbort .. | .crcData .. | .crcDataB .. => some 4
  | .posCfgWrite .. | .webSet .. | .posCntClr .. | .trimMeasure .. | .trimApply .. | .trimStore .. => some 5
  | .stbCutClear .. | .offsetWrite .. | .cmpPoolWrite .. => some 6
  | .schedReset .. | .schedBreak .. | .schedTailWrite .. | .ingestRestart .. => some 7
  | .cdcCntClr .. => some 8
  | .matrixWrite .. | .scrCntClr .. => some 9
  | .outBankWrite .. | .ovtClr .. | .nozHeadActWrite .. | .lifeSave .. | .nozCntClr .. => some 10
  | .eqWrite .. | .margin .. | .l1Enter .. | .l2Enter .. | .laneWake .. | .retrain .. | .fvecClear .. | .ecmdRead .. | .ecmdWrite ..
  | .ecmdBroadcastWrite .. | .delayMeasure .. => some 11
  | .i2cWrite .. | .i2cRead .. | .visTableWrite .. | .visCntClr .. => some 12
  | .bandNow .. | .denRestore .. | .denResume .. | .denCntClr .. => some 13
  | .latchNow .. | .hoursSave .. | .lmpCntClr .. => some 14
  | .opChangeRequest .. | .rankRetire .. | .unretire .. | .drcCntClr .. => some 15
  | .takeover .. | .claimSet .. | .dpxCntClr .. => some 16
  | .setTime .. | .timeCapture .. | .ptpCntClr .. | .actionArm .. | .actionCancel .. => some 17
  | .egressRestart .. | .intPendClear .. => some 18
  | .dbgFreeze .. => some 20
  | _ => none

/-- The domains that an occurrence needs, where it is one that a stopped domain cannot take (R15, R370, R374). -/
def needs : Instr → Option (List (Fin 12))
  | .analogSample .. | .amplitudeEpisode .. | .quadEdge .. | .minspElapsed .. | .indexEdge .. | .ssiRequest .. | .ssiTransferStart ..
  | .ssiTimeout .. | .ssiWord .. | .speedWindowEnd .. | .faultWindowEnd .. | .trimDone .. | .trimApplied .. | .buoy .. | .lineIssue ..
  | .lineGated .. | .fireInstant .. | .strobeEnd .. | .strobeCut .. | .cmpCrossing .. | .cmpPulseEnd .. | .rowBFireIssue .. | .lampStage ..
  | .lampLatch .. | .coverageTick .. | .lampPoll .. | .lampResponse .. | .lampRspTimeout .. | .lampOnSecond .. | .panelRowSwitch .. => some [10]
  | .transitionComplete .. | .configCommitDone .. | .snapAuto .. | .snapCapture .. | .eventRaise .. | .eventWrite .. | .evtModExpiry ..
  | .spiDone .. | .orderlyStopDone .. | .crcDmaEnd .. | .egressRecord .. | .interruptSignal .. => some [1]
  | .settingsApply .. | .jobBoundary .. => some [5]
  | .schedFetch .. => some [4, 5]
  | .ingestDescriptorStart .. => some [2, 4, 6, 7]
  | .ingestDescriptorDone .. | .dmaTimeout .. | .hstLinkUp .. | .pciePowerState .. | .msixRelease .. => some [2]
  | .blockRowDecode .. => some [4, 5, 6, 7]
  | .gainLoad .. => some [4, 6]
  | .screenLine .. | .checkpointCopy .. | .replayLine .. | .ovtRelease .. | .lifePersist .. => some [6]
  | .lineFrameSend .. | .faultWindowClose .. | .cmdTimeout .. | .modeChangeDeadline .. | .modeChangeAbortEnd .. | .statePush ..
  | .heartbeatSend .. | .posRecordSend .. | .heartbeatRx .. | .schedRx .. | .setrecRx .. | .lcrcRx .. | .lcrcRecompute .. | .gainsRx ..
  | .nozRx .. | .lampRx .. | .posRx .. | .syncReqRx .. | .syncRx .. | .syncTimeout .. | .takeoverRx .. | .heartbeatTimeout ..
  | .setPairTimeout .. => some [8]
  | .frameStart .. | .lineStart .. | .frameEnd .. | .cameraLineEnd .. | .denEstimate .. => some [11, 6, 7]
  | .vsyncTimeout .. | .exposureEnd .. | .i2cDone .. | .sensorListDone .. | .denBusyTimeout .. => some [11]
  | .m2mFrame .. | .m2mFrameDone .. | .denCapture .. => some [11, 4, 6, 7]
  | .refreshDue .. | .mr4Poll .. | .trackerWindowEnd .. | .memoryRead .. | .memoryWrite .. | .scrubUnit .. | .wckTrack ..
  | .opChangeDone .. | .migrationCopy .. => some [4]
  | .ptpSync .. | .ptpAnnounce .. | .ptpDelayResp .. | .announceTimeout .. | .syncLoss .. | .ptpSyncSend .. | .ptpDelayReqSend ..
  | .ptpDelayReqRx .. | .ptpFollowUp .. | .ptpRxDiscard .. | .netLinkDown .. | .netLinkUp .. => some [3]
  | .actionFire .. => some [1, 3]
  | .thermalSample .. | .prsDeviceWrite .. => some [0]
  | .ringClosed n .. => some [laneDom n]
  | .basePassed n .. => some [laneDom n]
  | .negotiateDone n .. => some [laneDom n]
  | .stepDone n .. => some [laneDom n]
  | .alignPassed n .. => some [laneDom n]
  | .laneStateTimeout n .. => some [laneDom n]
  | .lockLoss n .. => some [laneDom n]
  | .recoverDone n => some [laneDom n]
  | .recoverTimeout n => some [laneDom n]
  | .recoverDarkEnd n => some [laneDom n]
  | .lmsUpdate n .. => some [laneDom n]
  | .marginDone n .. => some [laneDom n]
  | .lpmExitDone n => some [laneDom n]
  | .l1IdleTimer n => some [laneDom n]
  | .l2Timer n => some [laneDom n]
  | .beacon n => some [laneDom n]
  | .statusFrameSend n => some [laneDom n]
  | .statusFrameReturn n .. => some [laneDom n]
  | .statusFrameLost n => some [laneDom n]
  | .rspReceived n .. => some [laneDom n]
  | .pushResend n => some [laneDom n]
  | .delayMeasureDone n .. => some [laneDom n]
  | _ => none

/-- FROZEN, or SLEEP with every domain but PD0 off: the clocks stand still, the strobe outputs are low, and the engine's waiting writes are of
the 8,192 persistent words (R18, R376, R388, R408, R415). -/
def Dev.still (d : Dev) : Prop :=
  (d.mode = .frozen ∨ d.mode = .sleep ∧ ∀ p : Fin 12, p ≠ 0 → d.doms[p].st = .off) ∧ d.doms[(0 : Fin 12)].st = .run ∧ d.frz = none ∧
    d.boot.por = false ∧ d.jtag.rstReq = none ∧ (∀ n : Fin 8, d.stb[n].high = false) ∧ ∀ w ∈ d.prsQ, w.1 < 8192

/-- The commands that may end that state, or prepare its end: supplies, RSTn, a temperature sample, WAKEn, FREEZEn in SLEEP, RSTREQ (R376, R388, R417). -/
def leaves : Instr → Bool
  | .vinLow | .brownout .. | .rstnAssert | .thermalSample .. | .wake | .freezenFall | .jtagRstreq .. => true
  | _ => false

end Sys2Proof.Machine
end

