-- ==== Sys2Proof/WellFormed.lean ====
section
/-!
DEFINITION. The commands that the world can send: operands as wide, and lists as long, as the spec makes them. A command that is
not well formed has a meaning as well, so that the step is total; statements about what arrives on an input assume `Instr.wf`.
-/
namespace Sys2Proof

/-- A requester that sends requests from outside the memory controller (R313). -/
def asks : Client → Bool
  | .writeBack | .migrate | .scrub => false
  | _ => true

/-- A command is one that can occur. -/
def Instr.wf (i : Instr) : Bool :=
  match i with
  | .registerWrite addr _ _ => decide (addr < 2 ^ 25)
  | .modeRequest _ => true
  | .transitionComplete => true
  | .causeClr => true
  | .posCfgWrite off _ => off = 0 || off = 0x30 || off = 0x34
  | .analogSample _ sn cs => decide (sn.natAbs ≤ 10000) && decide (cs.natAbs ≤ 10000)
  | .amplitudeEpisode _ _ => true
  | .quadEdge _ _ _ => true
  | .minspElapsed _ _ => true
  | .indexEdge _ _ => true
  | .ssiRequest _ => true
  | .ssiTransferStart _ => true
  | .ssiTimeout _ => true
  | .ssiWord _ hi _ => decide (hi.toNat < 2 ^ 27)
  | .webSet _ => true
  | .speedWindowEnd => true
  | .faultWindowEnd => true
  | .posCntClr => true
  | .trimMeasure _ => true
  | .trimDone _ periods => decide (4096 ≤ periods ∧ periods < 2 ^ 16)
  | .trimApply _ => true
  | .trimApplied _ => true
  | .trimStore _ => true
  | .buoy _ => true
  | .lineIssue _ => true
  | .lineGated _ => true
  | .fireInstant _ => true
  | .strobeEnd _ => true
  | .strobeCut _ => true
  | .stbCutClear _ => true
  | .offsetWrite _ _ _ => true
  | .cmpPoolWrite _ _ => true
  | .cmpCrossing _ => true
  | .cmpPulseEnd _ => true
  | .settingsCommit => true
  | .settingsApply _ _ => true
  | .configCommit => true
  | .configCommitDone => true
  | .schedReset => true
  | .schedBreak => true
  | .schedTailWrite _ => true
  | .schedFetch => true
  | .jobBoundary _ => true
  | .ingestDescriptorStart _ desc _ => decide (desc.length = 16) && desc.all (decide <| · < 2 ^ 32)
  | .ingestDescriptorDone _ => true
  | .dmaTimeout _ => true
  | .ingestRestart _ _ => true
  | .blockRowDecode _ row => decide (row < 2 ^ 30)
  | .cdcCntClr => true
  | .screenLine _ => true
  | .checkpointCopy _ => true
  | .replayLine _ => true
  | .gainLoad _ => true
  | .matrixWrite _ _ _ => true
  | .scrCntClr => true
  | .outBankWrite _ _ _ _ => true
  | .ovtRelease _ => true
  | .ovtClr => true
  | .nozHeadActWrite _ => true
  | .lifePersist => true
  | .lifeSave => true
  | .nozCntClr => true
  | .ringClosed _ hops => decide (hops < 2 ^ 7)
  | .basePassed _ _ => true
  | .negotiateDone _ _ => true
  | .stepDone _ _ => true
  | .alignPassed _ code => decide (code < 2 ^ 8)
  | .laneStateTimeout _ code => decide (code < 2 ^ 8)
  | .lockLoss _ _ => true
  | .recoverDone _ => true
  | .recoverTimeout _ => true
  | .recoverDarkEnd _ => true
  | .lmsUpdate _ grads => decide (grads.length = 8)
  | .eqWrite _ _ _ => true
  | .margin _ => true
  | .marginDone _ h v => decide (h < 2 ^ 16) && decide (v < 2 ^ 16)
  | .l1Enter _ => true
  | .l2Enter _ => true
  | .laneWake _ => true
  | .lpmExitDone _ => true
  | .l1IdleTimer _ => true
  | .l2Timer _ => true
  | .retrain _ => true
  | .lineFrameSend _ => true
  | .beacon _ => true
  | .statusFrameSend _ => true
  | .statusFrameReturn _ seq _ slots => decide (seq < 2 ^ 16) && decide (slots.length ≤ 64)
  | .statusFrameLost _ => true
  | .faultWindowClose => true
  | .fvecClear _ _ => true
  | .ecmdRead _ _ => true
  | .ecmdWrite _ _ => true
  | .ecmdBroadcastWrite _ _ => true
  | .rspReceived _ _ _ _ => true
  | .cmdTimeout => true
  | .pushResend _ => true
  | .delayMeasure => true
  | .delayMeasureDone _ _ eps => decide (eps.length ≤ 64)
  | .modeChangeDeadline _ => true
  | .modeChangeAbortEnd _ => true
  | .statePush _ => true
  | .frameStart _ => true
  | .lineStart _ => true
  | .frameEnd _ => true
  | .vsyncTimeout _ => true
  | .exposureEnd _ => true
  | .i2cWrite _ _ => true
  | .i2cRead _ _ => true
  | .i2cDone _ _ _ => true
  | .sensorListDone _ nacks => nacks.all (decide <| · < 64)
  | .m2mFrame => true
  | .m2mFrameDone => true
  | .visTableWrite _ _ => true
  | .visCntClr => true
  | .bandNow => true
  | .denEstimate => true
  | .denCapture => true
  | .denBusyTimeout => true
  | .denRestore _ => true
  | .denResume _ => true
  | .denCntClr => true
  | .lampStage => true
  | .lampLatch => true
  | .latchNow => true
  | .coverageTick => true
  | .lampPoll => true
  | .lampResponse _ _ _ => true
  | .lampRspTimeout _ => true
  | .lampOnSecond => true
  | .hoursSave => true
  | .lmpCntClr => true
  | .panelRowSwitch => true
  | .refreshDue .. => true
  | .mr4Poll _ _ _ => true
  | .trackerWindowEnd _ => true
  | .memoryRead who u _ => asks who && decide (u < 2 ^ 29)
  | .memoryWrite who a data _ => asks who && decide (a + data.length ≤ 2 ^ 35)
  | .scrubUnit _ _ => true
  | .wckTrack _ => true
  | .opChangeRequest _ => true
  | .opChangeDone => true
  | .rankRetire _ => true
  | .migrationCopy _ _ _ => true
  | .unretire _ => true
  | .drcCntClr => true
  | .heartbeatSend => true
  | .posRecordSend => true
  | .heartbeatRx _ r => decide (r.fired.length = 12)
  | .schedRx _ _ => true
  | .setrecRx _ _ _ _ lines => decide (lines.length = 12)
  | .lcrcRx _ _ _ _ => true
  | .lcrcRecompute _ _ => true
  | .gainsRx _ _ _ gains _ _ _ => decide (gains.length = 122880)
  | .nozRx _ _ => true
  | .lampRx _ _ => true
  | .posRx _ _ => true
  | .syncReqRx _ _ => true
  | .syncRx _ r => decide (r.hb.fired.length = 12) && decide (r.cur.length = 12) && r.gains.all fun g => decide (g.gains.length = 122880)
  | .syncTimeout => true
  | .takeoverRx _ _ web => decide (web < 2 ^ 48)
  | .heartbeatTimeout => true
  | .takeover => true
  | .setPairTimeout => true
  | .claimSet _ => true
  | .dpxCntClr => true
  | .ptpSync _ => true
  | .ptpAnnounce _ => true
  | .ptpDelayResp _ => true
  | .announceTimeout => true
  | .syncLoss => true
  | .ptpSyncSend => true
  | .setTime => true
  | .timeCapture => true
  | .ptpCntClr => true
  | .actionArm _ _ => true
  | .actionCancel _ => true
  | .actionFire _ => true
  | .powerOn => true
  | .vinLow => true
  | .brownout _ _ => true
  | .rstnAssert => true
  | .rstnRelease => true
  | .perstAssert => true
  | .perstRelease => true
  | .pcieLinkDown => true
  | .hstLinkUp _ _ => true
  | .pciePowerState _ _ _ _ => true
  | .swReset _ _ _ _ => true
  | .domainPowerDown _ _ => true
  | .domainPowerUp _ _ => true
  | .resetTakeHold _ => true
  | .resetRelease _ => true
  | .clockLoss k => decide (k.val ≤ 10)
  | .watchdogExpiry => true
  | .critError _ => true
  | .causeClear _ => true
  | .bootStepComplete _ => true
  | .bootStepTimeout => true
  | .bootRetry => true
  | .wake => true
  | .vioLoss _ => true
  | .vioRecover _ => true
  | .spiRead _ => true
  | .spiWrite _ => true
  | .spiDone data => decide (data.length ≤ 256)
  | .thermalSample counts => decide (counts.length = 16)
  | .thmSample counts => decide (counts.length = 16)
  | .orderlyStopDone => true
  | .peakClr => true
  | .crcGo _ => true
  | .crcResume _ => true
  | .crcFinish _ => true
  | .crcAbort _ _ _ => true
  | .crcData _ _ => true
  | .crcDataB _ _ => true
  | .crcDmaEnd _ _ _ => true
  | .prsWrite _ _ _ => true
  | .prsDeviceWrite _ => true
  | .prsRead _ _ => true
  | .prsCntClr => true
  | .freezenFall => true
  | .dbgFreeze _ => true
  | .freezeStrobesDone => true
  | .jtagIdcode => true
  | .jtagSamplePreload => true
  | .jtagExtest => true
  | .jtagClamp => true
  | .jtagHighz => true
  | .jtagScansel _ => true
  | .jtagScanrd => true
  | .jtagSramaddr _ _ => true
  | .jtagSramrd _ _ => true
  | .jtagRstreq _ => true
  | .jtagBypass => true
  | .bar2Read _ n => decide (1 ≤ n)
  | .bar2Write _ data => decide (1 ≤ data.length)
  | .egressRecord _ descs => descs.all (decide <| ·.length = 16)
  | .egressRestart _ _ => true
  | .eventRaise => true
  | .eventWrite => true
  | .evtTailWrite _ => true
  | .evtCfgWrite _ => true
  | .evtRingWrite _ _ => true
  | .interruptSignal => true
  | .msixRelease => true
  | .intPendClear _ _ => true
  | .rtDatagram m => decide (m.seq < 2 ^ 32)
  | .rtReadRegister addr => decide (addr < 2 ^ 32)
  | .rtWriteRegister addr _ => decide (addr < 2 ^ 32)
  | .rtReadJobStore addr _ => decide (addr < 2 ^ 64)
  | .rtWriteJobStore addr _ => decide (addr < 2 ^ 64)
  | .rtArp _ ip => decide (ip < 2 ^ 32)
  | .rtIcmpEcho _ ip _ => decide (ip < 2 ^ 32)
  | .rtNotify => true
  | .snapTake => true
  | .snapAuto => true
  | .snapCapture => true
  | .rowBFireIssue _ => true
  | .cameraLineEnd _ _ => true
  | .clockGood k => decide (k.val ≤ 10)
  | .netLinkDown _ => true
  | .netLinkUp _ => true
  | .ptpDelayReqSend => true
  | .ptpDelayReqRx _ => true
  | .ptpFollowUp _ _ _ _ _ _ => true
  | .ptpRxDiscard => true
  | .evtModExpiry => true
  | .testLogicReset => true

end Sys2Proof
end

