-- ==== Sys2Proof/Certificates/Slice0/Obligations.lean ====
section
/-!
DEFINITION. The statements for the provers, by chapter of spec/. `State.gives`, `Dev.reaches` and the other words they are written in
are in Sys2Proof/Safety.lean.
-/
section Obligations
open Sys2Proof Sys2Proof.Machine

/-! ### The machine -/

/-- A step runs the command at the front of the queue, with the rest of the queue waiting. -/
def Obligations.StepRunsTheFrontCommand : Prop :=
  ∀ (s : State) (c : Instr), step { s with pending := c :: s.pending } = exec c s

/-- Every step goes on to a next state, and takes one command from the front of the queue and none from elsewhere: nothing refuses, nothing
faults, nothing overtakes. With no command waiting 10 ns pass: the model's choice (log entry 2). -/
def Obligations.EveryStepGoesOn : Prop :=
  (∀ s : State, ∃ t, step s = .next t ∧ t.pending = s.pending.tail) ∧
  (∀ s : State, s.pending = [] → ∃ t, step s = .next t ∧ t.pending = [] ∧ t.dev.now = s.dev.now + 10)

/-- A host access of a block that does not answer (R16): the read returns 0, the write is discarded, and REG_DOMAIN_OFF is raised, coalesced per
domain over 1 ms; for every host command of the table. While the register fabric does not work, or once a freeze has begun, it does nothing;
but DBG_FREEZE, in the cycle of a reset of wide reach, acts before that reset (R417). -/
def Obligations.AccessOfABlockThatDoesNotAnswer : Prop :=
  ∀ s : State,
    let off (b : Nat) : Dev := s.dev.raiseC Ev.REG_DOMAIN_OFF (domOf b).val 15 none [modeWord s.dev.sys.mode.code s.dev.sys.prev.code s.dev.sys.cause] 1 []
    (∀ (c : Instr) (b : Nat), hostBlock c = some b → (b = 20 → s.dev.wideNow = false) →
      (s.dev.live 1 = false ∨ s.dev.frz.isSome = true → exec c s = .next s) ∧
      (s.dev.live 1 = true → s.dev.frz = none → s.dev.on b = false → exec c s = .next (s.withDev (off b)))) ∧
    (∀ a : Nat, s.dev.live 1 = true → s.dev.frz = none → a < 0x1500000 → s.dev.on (blkOf a) = false →
      s.dev.hostRead a = (off (blkOf a), 0) ∧
      ∀ v : Word, a % 4 = 0 → exec (.registerWrite a v 15) s = .next (s.withDev (off (blkOf a))))

/-- What happens in a domain that is off, in reset or without its clock does not happen: the command changes nothing (R15, R370, R374). -/
def Obligations.StoppedDomainsHoldStill : Prop :=
  ∀ (s : State) (c : Instr) (ps : List (Fin 12)), needs c = some ps → ps.all s.dev.live = false → exec c s = .next s

/-- The state after reset (R18, R25, R115, R367): power-on reset is held, every domain but PD0 stands still, no transition runs, nothing waits, nothing has
been sent, the job store lists nothing, and every register reads its reset word.
Where the spec leaves it open this rests on the model's choices of log entries 5, 6 and 7. -/
def Obligations.StateAfterReset : Prop :=
  let d := State.reset.dev
  State.reset.pending = [] ∧ d.boot.por = true ∧ (∀ p : Fin 12, p ≠ 0 → d.live p = false) ∧ d.sys.mode = .boot ∧ d.sys.trans = none ∧ d.sys.cause = 0 ∧
  d.sent = [] ∧ d.raised = [] ∧ d.store = [] ∧ (∀ a, d.rd a = resetWord a) ∧ (∀ a, d.effRd a = resetWord a) ∧
  d.get F.POS_SPEED_WIN_WIN = 10 ∧ d.get F.POS_BACKLASH_COUNTS = 8 ∧ d.get F.POS_FLT_WIN_MS = 100 ∧
  (∀ n : Fin 4, d.get (F.POS_CH_SSI_BITS n) = 24 ∧ d.get (F.POS_CH_IDXCTL_LIMIT n) = 3)

/-! ### Registers and modes (spec/01_architecture.md) -/

/-- REGISTER_WRITE (R1, R2, R4, R16): byte enables short of four bytes and offsets where no register is defined change nothing; a block that
does not answer reports the access; a register that no command has a row for is written by its access codes, RO bits keeping their value; a
staged or a configuration register keeps its word in effect and waits for its commit; and a write of a register that a command of the table stands for is that command. -/
def Obligations.RegisterWrites : Prop :=
  (∀ (s : State) (off : Nat) (v : Word),
    (∀ be : Fin 16, be ≠ 15 → exec (.registerWrite off v be) s = .next s) ∧
    (off % 4 ≠ 0 ∨ 0x1500000 ≤ off → exec (.registerWrite off v 15) s = .next s) ∧
    (off % 4 = 0 → off < 0x1500000 → s.dev.live 1 = true → s.dev.frz = none → s.dev.on (blkOf off) = false →
      exec (.registerWrite off v 15) s = .next (s.withDev (s.dev.domainOff (blkOf off)))) ∧
    (off % 4 = 0 → off < 0x1500000 → s.dev.reaches (blkOf off) = true → (∀ a, s.dev.place off = some a → findReg a = none) →
      exec (.registerWrite off v 15) s = .next s) ∧
    (∀ a ∈ [Reg.POS_BACKLASH, Reg.POS_SPEED_WIN, Reg.POS_FLT_WIN, Reg.POS_FLT_LIMIT, Reg.POS_STABLE, Reg.POS_IDX_REHOME, Reg.POS_WEB_SET_LO,
        Reg.LTC_BUOY, Reg.LTC_REG, Reg.LTC_GATE, Reg.LTC_DERATE, Reg.JOB_SCHED_LEAD, Reg.JOB_BUDGET, Reg.SCR_MAT_SEL, Reg.NOZ_CFG, Reg.NOZ_HEAD_SEL,
        Reg.ZXL_LPM, Reg.ZXL_PCFG, Reg.ZXL_FSEL, Reg.VIS_TAB_SEL, Reg.DEN_MARGIN, Reg.LMP_COV_STEP, Reg.LMP_HRC_CFG, Reg.LMP_PNL_CFG, Reg.DRC_REF,
        Reg.DRC_TRACK, Reg.DPX_POS_TOL, Reg.PTP_SERVO, Reg.RPC_CRIT, Reg.RPC_SPI_ADDR, Reg.HST_INT_EN_LO],
      s.dev.reaches (blkOf a) = true → ∀ r ij, findReg a = some (r, ij) → ∃ t, exec (.registerWrite a v 15) s = .next t ∧
        s.gives t [(a, (s.dev.rd a &&& ~~~(BitVec.ofNat 32 r.rw)) ||| (v &&& BitVec.ofNat 32 r.rw))]) ∧
    (∀ b : Bar, s.dev.reaches 6 = true → ∃ t, exec (.registerWrite (Reg.LTC_BAR_STROBE b) v 15) s = .next t ∧ s.gives t
      [(Reg.LTC_BAR_STROBE b, (F.LTC_BAR_STROBE_WIDTH b).into (s.dev.rd (Reg.LTC_BAR_STROBE b)) ((F.LTC_BAR_STROBE_WIDTH b).of v))] fun d =>
        { d with job := { d.job with written := addNew d.job.written [Reg.LTC_BAR_STROBE b] } }) ∧
    (s.dev.reaches 14 = true → ∃ t, exec (.registerWrite Reg.LMP_BUS v 15) s = .next t ∧ Reg.LMP_BUS ∈ t.dev.job.cfgWritten ∧
      t.dev.get F.SYS_COMMIT_STATUS_CFG_PEND = 1 ∧ t.dev.effRd Reg.LMP_BUS = s.dev.effRd Reg.LMP_BUS ∧
      t.dev.get F.LMP_BUS_POLL = F.LMP_BUS_POLL.of v ∧ t.dev.get F.LMP_BUS_RSP_TMO = F.LMP_BUS_RSP_TMO.of v)) ∧
  (∀ (s : State) (v : Word),
    (∀ c : Fin 16, exec (.registerWrite 0x14 (BitVec.ofNat 32 c.val) 15) s = exec (.modeRequest c) s) ∧
    exec (.registerWrite 0x10 0x01000000 15) s = exec .causeClr s ∧
    exec (.registerWrite 0x50 v 15) s = exec (.evtTailWrite v) s ∧
    exec (.registerWrite 0x54 v 15) s = exec (.evtCfgWrite v) s ∧
    exec (.registerWrite 0x40 v 15) s = exec (.evtRingWrite 0 v) s ∧
    exec (.registerWrite 0x44 v 15) s = exec (.evtRingWrite 1 v) s ∧
    exec (.registerWrite 0x48 v 15) s = exec (.evtRingWrite 2 v) s ∧
    exec (.registerWrite 0x100004 v 15) s = exec (.causeClear v) s ∧
    exec (.registerWrite 0x500000 v 15) s = exec (.posCfgWrite 0 v) s ∧
    exec (.registerWrite 0x500030 v 15) s = exec (.posCfgWrite 0x30 v) s ∧
    exec (.registerWrite 0x500034 v 15) s = exec (.posCfgWrite 0x34 v) s ∧
    exec (.registerWrite 0x50001C v 15) s = exec (.webSet v) s ∧
    exec (.registerWrite 0x500008 1 15) s = exec .posCntClr s ∧
    exec (.registerWrite 0x600024 v 15) s = exec (.stbCutClear v) s ∧
    exec (.registerWrite 0x70001C v 15) s = exec (.schedTailWrite v) s ∧
    exec (.registerWrite 0x800004 1 15) s = exec .cdcCntClr s ∧
    exec (.registerWrite 0xA00040 v 15) s = exec (.nozHeadActWrite v) s ∧
    exec (.registerWrite 0x100000C v 15) s = exec (.claimSet v) s ∧
    exec (.registerWrite 0x1200020 v 15) s = exec (.intPendClear false v) s ∧
    exec (.registerWrite 0x1200024 v 15) s = exec (.intPendClear true v) s)

/-- MODE_REQUEST (R19 to R22, R26, R27, R362): of the writes of one cycle the last is the request, and one beside an action slot that fires is refused;
what becomes of a request, what a refusal leaves, and the host's column of the transition table. `Dev.hand` is what follows a command that may
have captured a set. Where the spec leaves it open this rests on the model's choices of log entries 12 and 60. -/
def Obligations.ModeRequestsAreJudged : Prop :=
  (∀ (s : State) (c : Fin 16), s.dev.reaches 0 = true →
    let busy := s.dev.raise Ev.MODE_REFUSED 15 none [modeWord s.dev.sys.mode.code s.dev.sys.mode.code 2]
    (s.firesNow = true → exec (.modeRequest c) s = .next (s.withDev busy)) ∧
    (s.firesNow = false → s.pending.any writesTarget = true →
      exec (.modeRequest c) s = .next (s.withDev (if s.dev.get F.SYS_MODE_REQ_RESULT = 1 then busy else s.dev.set F.SYS_MODE_REQ_TARGET c.val)))) ∧
  (∀ (s : State) (c : Fin 16), s.dev.reaches 0 = true → s.dev.sys.halt = false → s.firesNow = false → s.pending.any writesTarget = false →
    s.dev.ptp.firedAt ≠ some s.dev.now →
    let d := (s.dev.set F.SYS_MODE_REQ_TARGET c.val).set F.SYS_MODE_REQ_REASON 0
    (s.dev.get F.SYS_MODE_REQ_RESULT = 1 →
      exec (.modeRequest c) s = .next (s.withDev ((s.dev.raise Ev.MODE_REFUSED 15 none
        [modeWord s.dev.sys.mode.code s.dev.sys.mode.code 2]).hand))) ∧
    (s.dev.get F.SYS_MODE_REQ_RESULT ≠ 1 → (∀ t, s.dev.sys.trans = some t →
      exec (.modeRequest c) s = .next (s.withDev (d.refuseMode (if t.host = false ∧ t.at_ = s.dev.now then 3 else 2)).hand))) ∧
    (s.dev.get F.SYS_MODE_REQ_RESULT ≠ 1 → s.dev.sys.trans = none → s.dev.dpx.takeAt = some s.dev.now →
      exec (.modeRequest c) s = .next (s.withDev (d.refuseMode 3).hand)) ∧
    (s.dev.get F.SYS_MODE_REQ_RESULT ≠ 1 → s.dev.dpx.takeAt ≠ some s.dev.now →
      (s.dev.sys.trans = none → (Mode.ofCode c.val = none ∨ Mode.ofCode c.val = some .boot ∨ Mode.ofCode c.val = some .frozen) →
        exec (.modeRequest c) s = .next (s.withDev (d.refuseMode 1).hand)) ∧
      (∀ dest, s.dev.sys.trans = none → Mode.ofCode c.val = some dest → dest ≠ .boot → dest ≠ .frozen →
        (dest = s.dev.mode → exec (.modeRequest c) s = .next (s.withDev ((d.set F.SYS_MODE_REQ_RESULT 2).actDone).hand)) ∧
        (dest ≠ s.dev.mode → hostMay s.dev dest = false → exec (.modeRequest c) s = .next (s.withDev (d.refuseMode 1).hand)) ∧
        (dest ≠ s.dev.mode → hostMay s.dev dest = true → s.dev.mode ≠ .idle → (d.checkMode dest).2 ≠ 0 →
          exec (.modeRequest c) s = .next (s.withDev ((d.checkMode dest).1.refuseMode (d.checkMode dest).2).hand)) ∧
        (dest = .hold → hostMay s.dev dest = true → exec (.modeRequest c) s = .next (s.withDev (Dev.hand
          { (d.set F.SYS_MODE_REQ_RESULT 1).set F.SYS_MODE_REQ_REASON 0 with
            sys := { s.dev.sys with trans := some { dest := .hold, cause := 0, host := true, at_ := s.dev.now } } })))))) ∧
  (∀ (d : Dev) (reason : Nat), d.ptp.act = none → reason < 256 →
    let e := d.refuseMode reason
    e.get F.SYS_MODE_REQ_RESULT = 3 ∧ e.get F.SYS_MODE_REQ_REASON = reason ∧ e.get F.SYS_MODE_REQ_TARGET = d.get F.SYS_MODE_REQ_TARGET ∧
    e.raised = d.raised ++ [d.event Ev.MODE_REFUSED 15 none [modeWord d.sys.mode.code d.sys.mode.code reason]] ∧
    e.sys = d.sys ∧ e.pos = d.pos ∧ ∀ a, a ≠ Reg.SYS_MODE_REQ → e.rd a = d.rd a) ∧
  (∀ (d : Dev) (dest : Mode), hostMay d dest = true ↔
    (d.mode, dest) ∈ [(Mode.idle, Mode.ready), (.idle, .calibrate), (.idle, .shadow), (.idle, .sleep), (.safe, .sleep), (.ready, .print),
      (.ready, .shuttle), (.ready, .idle), (.print, .hold), (.shuttle, .hold), (.print, .idle), (.shuttle, .idle), (.hold, .idle),
      (.calibrate, .idle), (.shadow, .idle), (.safe, .idle)] ∨
    (d.mode = .hold ∧ (dest = .print ∨ dest = .shuttle) ∧ d.sys.holdFrom = dest) ∨
    (dest = .safe ∧ d.mode ∈ [Mode.idle, .ready, .print, .hold, .shuttle, .calibrate, .shadow]) ∨
    (dest = .shutdown ∧ d.mode ≠ .sleep ∧ d.mode ≠ .frozen))

/-- TRANSITION_COMPLETE and CAUSE_CLR (R14, R21, R25, R196, R399): nothing completes before every bar is at a line boundary, before lanes that
leave L1 and L2 are out, and, for SHUTDOWN, before the six phases of the orderly stop; then the transition is made, or a condition checked only
now refuses it; HOLD, reached from PRINT or SHUTTLE, shows its mode, the one before and its cause. CAUSE_CLR leaves a cause of the same cycle.
Where the spec leaves it open this rests on the model's choices of log entries 1 and 14. -/
def Obligations.TransitionsComplete : Prop :=
  ∀ s : State,
    (s.dev.live 1 = true → s.dev.frz = none → s.dev.mode ≠ .sleep →
      ((s.dev.sys.trans = none ∨ ∃ tr, s.dev.sys.trans = some tr ∧ (if tr.dest = .shutdown then tr.stop < 6
            else s.dev.atBoundary = false ∨ tr.exits = true ∧ s.dev.lowPowerAny = true)) →
        exec .transitionComplete s = .next (s.withDev (s.dev.idleStepNow s.syncWaits).hand)) ∧
      (∀ tr, s.dev.sys.trans = some tr → tr.dest ≠ .sleep → (if tr.dest = .shutdown then 6 ≤ tr.stop
            else s.dev.atBoundary = true ∧ (tr.exits = true → s.dev.lowPowerAny = false)) →
        (tr.exits = false ∨ (s.dev.checkMode tr.dest).2 = 0 → ∃ t, exec .transitionComplete s = .next t ∧
          t = s.withDev ((((if tr.exits then (s.dev.checkMode tr.dest).1 else s.dev).complete tr).idleStepNow s.syncWaits).hand)) ∧
        (tr.exits = true → (s.dev.checkMode tr.dest).2 ≠ 0 → ∃ t, exec .transitionComplete s = .next t ∧ t.dev.sys.trans = none ∧ t.dev.mode = s.dev.mode ∧
          t.dev.get F.SYS_MODE_REQ_RESULT = 3)) ∧
      (∀ tr : Trans, tr.dest = .hold → s.dev.printing = true →
        let e := s.dev.changeMode .hold tr.cause
        e.sys.mode = .hold ∧ e.sys.prev = s.dev.mode ∧ e.sys.trans = none ∧ e.sys.holdFrom = s.dev.mode ∧
        e.sys.cause = (if tr.cause = 0 then s.dev.sys.cause else tr.cause) ∧ e.pos = s.dev.pos ∧ e.bars = s.dev.bars ∧ e.job = s.dev.job)) ∧
    (s.dev.reaches 0 = true → ∃ t, exec .causeClr s = .next t ∧
      t = s.withDev { s.dev with sys := { s.dev.sys with cause := if s.dev.sys.causeAt = some s.dev.now then s.dev.sys.cause else 0 }, shadow := t.dev.shadow } ∧
      F.SYS_MODE_CAUSE.of (t.dev.shadowRd Reg.SYS_MODE) = 0 ∧ ∀ a, a ≠ Reg.SYS_MODE → t.dev.shadowRd a = s.dev.shadowRd a)

/-- CONFIG_COMMIT and CONFIG_COMMIT_DONE (R112, R161): the refusals in their order, the taking of every written configuration register, and
the result: 2 at once where no mask pattern has changed, else once none awaits an acknowledgement.
Where the spec leaves it open this rests on the model's choices of log entry 28. -/
def Obligations.ConfigurationCommits : Prop :=
  ∀ s : State,
    (s.dev.reaches 0 = true →
      let refused (d : Dev) (reason cfg : Nat) : Dev :=
        ((d.set F.SYS_COMMIT_STATUS_RESULT 3).set F.SYS_COMMIT_STATUS_REASON reason).raise Ev.SET_REFUSED 15 none [15, reason, cfg]
      (s.dev.modeIn [.idle, .calibrate] = false → exec .configCommit s = .next (s.withDev (refused s.dev 1 1).hand)) ∧
      (s.dev.modeIn [.idle, .calibrate] = true →
        (∀ x y, s.dev.conflict = some (x, y) → exec .configCommit s = .next (s.withDev
          (refused (s.dev.raise Ev.CFG_CONFLICT 15 none [15, x.kind, x.index, x.claimant, y.claimant]) 4 1).hand)) ∧
        (∀ n, s.dev.conflict = none → s.dev.wdogOutput = some n → exec .configCommit s = .next (s.withDev
          ((refused s.dev 3 1).ltcRefused n (Reg.LTC_STB_CFG n % 0x100000)).hand)) ∧
        (s.dev.conflict = none → s.dev.wdogOutput = none → s.dev.job.cfgWritten = [] → exec .configCommit s = .next (s.withDev
          (((s.dev.set F.SYS_COMMIT_STATUS_CFG_PEND 0).set F.SYS_COMMIT_STATUS_REASON 0).set F.SYS_COMMIT_STATUS_RESULT 2).hand)) ∧
        (s.dev.conflict = none → s.dev.wdogOutput = none → ∃ t, exec .configCommit s = .next t ∧ t = s.withDev s.dev.cfgTake.hand ∧
          t.dev.job.cfgWritten = [] ∧ t.dev.get F.SYS_COMMIT_STATUS_CFG_PEND = 0 ∧ t.dev.get F.SYS_COMMIT_STATUS_REASON = 0 ∧
          (s.dev.masksChanged = [] → t.dev.get F.SYS_COMMIT_STATUS_RESULT = 2) ∧
          (s.dev.masksChanged ≠ [] → t.dev.get F.SYS_COMMIT_STATUS_RESULT = 0 ∧ t.dev.job.cfgWait = true)) ∧
        (∀ a ∈ s.dev.job.cfgWritten, cmpCfgReg a = none → a ≠ Reg.SCR_GAIN_BASE_LO →
          (s.dev.job.cfgWritten.foldl Dev.cfgEffect s.dev).effRd a = s.dev.rd a) ∧
        (∀ a, s.dev.job.cfgWritten = [a] → cmpCfgReg a = none → ∀ x, x ≠ a → (s.dev.cfgEffect a).effRd x = s.dev.effRd x))) ∧
    (s.dev.live 1 = true →
      (s.dev.job.cfgWait = true → s.dev.patternsAcked = true → ∃ t, exec .configCommitDone s = .next t ∧
        s.gives t [(Reg.SYS_COMMIT_STATUS, F.SYS_COMMIT_STATUS_RESULT.into (s.dev.rd Reg.SYS_COMMIT_STATUS) 2)]
          fun d => { d with job := { d.job with cfgWait := false } }) ∧
      (s.dev.job.cfgWait = false ∨ s.dev.patternsAcked = false → exec .configCommitDone s = .next s))

/-- SETTINGS_COMMIT (R107, R111): the reasons of a refusal in their order, and what a capture takes. SETTINGS_APPLY (R109, R110): a pending set
that is not due on the bar, or not known, changes nothing; on a bar that issues no lines it applies at once, else from its line k, lines
screened beyond it being rolled back by `Dev.applyFrom`; one that has been handed to the bar and waits for its line changes nothing before then.
Where the spec leaves it open this rests on the model's choices of log entry 29. -/
def Obligations.SettingsAreCapturedAndApplied : Prop :=
  (∀ s : State, s.dev.reaches 0 = true → s.dev.mode ≠ .shadow →
    let fs := s.dev.writtenFields
    let ok := s.dev.modeIn [.idle, .ready, .print, .hold, .shuttle, .calibrate]
    let e : Dev := { s.dev with den := { s.dev.den with setAt := some s.dev.now } }
    let refused (reason : Nat) : Dev :=
      ((e.set F.SYS_COMMIT_STATUS_RESULT 3).set F.SYS_COMMIT_STATUS_REASON reason).raise Ev.SET_REFUSED 15 none [15, reason, 0]
    (ok = false → exec .settingsCommit s = .next (s.withDev (refused 1).hand)) ∧
    (ok = true → 8 ≤ s.dev.job.sets.length → exec .settingsCommit s = .next (s.withDev (refused 2).hand)) ∧
    (ok = true → s.dev.job.sets.length < 8 → badWidth fs = true → exec .settingsCommit s = .next (s.withDev (refused 5).hand)) ∧
    (ok = true → s.dev.job.sets.length < 8 → badWidth fs = false → s.dev.wdogBreach fs = true →
      exec .settingsCommit s = .next (s.withDev (refused 3).hand)) ∧
    (ok = true → s.dev.job.sets.length < 8 → badWidth fs = false → s.dev.wdogBreach fs = false →
      (∀ f ∈ fs, f.1 ≠ Reg.LTC_PITCH ∧ touchesGain f.1 (s.dev.newestWord f.1) f.2 = none) →
      let x : SetRec := { seq := s.dev.job.setSeq + 1, kind := s.dev.anchorNow.1, anchor := s.dev.anchorNow.2, fields := fs }
      let j := { s.dev.job with setSeq := s.dev.job.setSeq + 1, captured := s.dev.job.captured ++ [x], written := [] }
      let d : Dev := { e with job := j }
      exec .settingsCommit s = .next (s.withDev ((((((d.set F.SYS_COMMIT_STATUS_SEQ (s.dev.job.setSeq + 1)).set
        F.SYS_COMMIT_STATUS_RESULT 2).set F.SYS_COMMIT_STATUS_REASON 0).placeSet x).setRecord x).handOver.hand)))) ∧
  (∀ (s : State) (b : Bar) (seq : Nat), s.dev.live 5 = true →
    (s.dev.set? seq = none → exec (.settingsApply b seq) s = .next s) ∧
    (∀ x, s.dev.set? seq = some x →
      (s.dev.setDue b x = false → ((s.dev.bar b).reach.any fun r => r.1 = seq) = false → exec (.settingsApply b seq) s = .next s) ∧
      (∀ k, s.dev.setDue b x = true → x.lines[b] = some k →
        (s.dev.idleBar b = true → s.dev.clockAt b k = true → exec (.settingsApply b seq) s = .next (s.withDev (s.dev.applyAtOnce b x).hand)) ∧
        (s.dev.idleBar b = true → s.dev.clockAt b k = false → exec (.settingsApply b seq) s = .next (s.withDev (s.dev.applyFrom b x k).hand)) ∧
        (s.dev.idleBar b = false → exec (.settingsApply b seq) s = .next (s.withDev ((s.dev.applyFrom b x k).denInBand b k).hand)))))

/-- The snapshot (R436): a request is noted once, a period that has passed makes one, and the capture copies every snapshot field, counts, and
clears PEND; fields of a domain that is powered down are captured as 0. What is counted in the cycle itself is not in it (R438).
Where the spec leaves it open this rests on the model's choices of log entry 1. -/
def Obligations.Snapshots : Prop :=
  ∀ s : State,
    (s.dev.reaches 0 = true →
      (s.dev.bit F.SYS_SNAP_PEND = true → exec .snapTake s = .next s) ∧
      (s.dev.bit F.SYS_SNAP_PEND = false → ∃ t, exec .snapTake s = .next t ∧
        s.gives t [(Reg.SYS_SNAP, F.SYS_SNAP_PEND.into (s.dev.rd Reg.SYS_SNAP) 1)] fun d =>
          { d with snap := { d.snap with at_ := d.now, ready := false, base := d.dpx.fired.toList.getD (d.get F.SYS_SNAP_BAR) 0 } })) ∧
    (s.dev.live 1 = true →
      (let p := s.dev.get F.SYS_SNAP_AUTO_PERIOD * 100000
       (p = 0 ∨ s.dev.now < s.dev.snap.autoAt + p → exec .snapAuto s = .next s) ∧
       (p ≠ 0 → s.dev.snap.autoAt + p ≤ s.dev.now →
         exec .snapAuto s = .next (s.withDev (Dev.snapRequest { s.dev with snap := { s.dev.snap with autoAt := s.dev.now } })))) ∧
      (s.dev.bit F.SYS_SNAP_PEND = false ∨ s.dev.snapWaits = true ∧ s.dev.snap.ready = false ∧ s.dev.now < s.dev.snap.at_ + 1000000 →
        exec .snapCapture s = .next s) ∧
      (s.dev.bit F.SYS_SNAP_PEND = true → s.dev.snapWaits = false ∨ s.dev.snap.ready = true ∨ s.dev.snap.at_ + 1000000 ≤ s.dev.now →
        ∃ t, exec .snapCapture s = .next t ∧ t = s.withDev { s.dev with regs := t.dev.regs, shadow := t.dev.shadow } ∧
          t.dev.get F.SYS_SNAP_PEND = 0 ∧ t.dev.get F.SYS_SNAP_SEQ = (s.dev.get F.SYS_SNAP_SEQ + 1) % 2 ^ F.SYS_SNAP_SEQ.w ∧
          (∀ a, a ≠ Reg.SYS_SNAP → t.dev.rd a = s.dev.rd a) ∧
          (∀ a ∈ snapAddrs, t.dev.shadowRd a = if s.dev.doms[domAt a].st = .off then 0 else Dev.view { s.dev with regs := s.dev.was } a)))

/-- The event records (R9, R429, R430): EVENT_RAISE, EVENT_WRITE, EVT_MOD_EXPIRY and the host's writes of the ring's registers. A TAIL written in the
cycle of a record frees its places first.
Where the spec leaves it open this rests on the model's choices of log entries 1 and 53. -/
def Obligations.EventRing : Prop :=
  ∀ s : State,
    (s.dev.live 1 = true →
      (∀ e r, s.dev.raised = e :: r →
        (s.dev.evq.q.length < 56 ∨ e.cls = 3 ∧ s.dev.evq.q.length < 64 → exec .eventRaise s = .next (s.withDev
          (Dev.showQueued { s.dev with raised := r, evq := { s.dev.evq with q := s.dev.evq.q ++ [e] } }))) ∧
        (64 ≤ s.dev.evq.q.length ∨ e.cls ≠ 3 ∧ 56 ≤ s.dev.evq.q.length → exec .eventRaise s = .next (s.withDev
          (Dev.addSat { s.dev with raised := r, evq := { s.dev.evq with lost := s.dev.evq.lost + 1 } } F.SYS_EVT_LOST_LOST 1)))) ∧
      (let d := match s.evtTail with | some v => s.dev.set F.SYS_EVT_TAIL_INDEX v.toNat | none => s.dev
       d.ringOpen = false ∨ d.evq.q = [] → exec .eventWrite s = .next (s.withDev d)) ∧
      (∀ e r, (match s.evtTail with | some v => s.dev.set F.SYS_EVT_TAIL_INDEX v.toNat | none => s.dev).ringOpen = true → s.dev.evq.q = e :: r → s.dev.bit F.SYS_EVT_CFG_LOC = false → ∃ t, exec .eventWrite s = .next t ∧
        let head := s.dev.get F.SYS_EVT_HEAD_INDEX
        t.dev.sent = s.dev.sent ++
          [.host (s.dev.evtBase + 64 * (head % s.dev.evtSize)) ((e.words s.dev.evq.seq).flatMap (bytesLE 4))] ∧
        t.dev.get F.SYS_EVT_HEAD_INDEX = (head + 1) % s.dev.evtSize % 2 ^ F.SYS_EVT_HEAD_INDEX.w ∧
        t.dev.evq.seq = (s.dev.evq.seq + 1) % 2 ^ 16 ∧ t.dev.evq.lost = 0 ∧
        t.dev.evq.q = (if s.dev.evq.lost = 0 then r else s.dev.event Ev.EVT_LOST 15 none [0, s.dev.evq.lost] :: r) ∧
        t.dev.raised = s.dev.raised ∧ (e.cls = 3 → t.dev.sigs = s.dev.sigs ++ [s.dev.get F.SYS_EVT_CFG_VEC])) ∧
      (∀ at_, s.dev.evq.sigAt = some at_ → s.dev.evq.due = true → at_ + s.dev.get F.SYS_EVT_CFG_MOD * 1000 ≤ s.dev.now →
        exec .evtModExpiry s = .next (s.withDev (Dev.signal
          { s.dev with evq := { s.dev.evq with sigAt := some s.dev.now, due := false } } (s.dev.get F.SYS_EVT_CFG_VEC)))) ∧
      (s.dev.evq.sigAt = none ∨ s.dev.evq.due = false → exec .evtModExpiry s = .next s)) ∧
    (s.dev.reaches 0 = true → ∀ v : Word,
      (∃ t, exec (.evtTailWrite v) s = .next t ∧
        s.gives t [(Reg.SYS_EVT_TAIL, F.SYS_EVT_TAIL_INDEX.into (s.dev.rd Reg.SYS_EVT_TAIL) v.toNat)]) ∧
      (∃ t, exec (.evtCfgWrite v) s = .next t ∧ t = s.withDev { s.dev with regs := t.dev.regs, raised := t.dev.raised } ∧
        t.dev.get F.SYS_EVT_CFG_EN = F.SYS_EVT_CFG_EN.of v ∧ t.dev.get F.SYS_EVT_CFG_VEC = F.SYS_EVT_CFG_VEC.of v ∧
        t.dev.get F.SYS_EVT_CFG_MOD = F.SYS_EVT_CFG_MOD.of v ∧ (∀ a, a ≠ Reg.SYS_EVT_CFG → t.dev.rd a = s.dev.rd a) ∧
        t.dev.get F.SYS_EVT_CFG_LOC =
          (if s.dev.bit F.SYS_EVT_CFG_EN then s.dev.get F.SYS_EVT_CFG_LOC else F.SYS_EVT_CFG_LOC.of v) ∧
        t.dev.raised = (if s.dev.bit F.SYS_EVT_CFG_EN && F.SYS_EVT_CFG_LOC.of v ≠ s.dev.get F.SYS_EVT_CFG_LOC
          then s.dev.raised ++ [s.dev.event Ev.HST_WRITE_REFUSED 15 none [0, Reg.SYS_EVT_CFG]] else s.dev.raised)) ∧
      (∀ w : Fin 3, s.dev.bit F.SYS_EVT_CFG_EN = true → exec (.evtRingWrite w v) s =
        .next (s.withDev (s.dev.raise Ev.HST_WRITE_REFUSED 15 none [0, Reg.SYS_EVT_BASE_LO + 4 * w.val]))) ∧
      (s.dev.bit F.SYS_EVT_CFG_EN = false →
        (∃ t, exec (.evtRingWrite 0 v) s = .next t ∧ s.gives t [(Reg.SYS_EVT_BASE_LO, v)] ∧ t.dev.evtBase = s.dev.evtBase) ∧
        (∃ t, exec (.evtRingWrite 1 v) s = .next t ∧ t.dev.rd Reg.SYS_EVT_BASE_HI = v ∧
          t.dev.evtBase = ((s.dev.rd Reg.SYS_EVT_BASE_LO).toNat + v.toNat * 2 ^ 32) / 64 * 64) ∧
        (∃ t, exec (.evtRingWrite 2 v) s = .next t ∧
          s.gives t [(Reg.SYS_EVT_SIZE, F.SYS_EVT_SIZE_ENTRIES.into (s.dev.rd Reg.SYS_EVT_SIZE) v.toNat)])))

/-! ### Web position and speed (spec/02_web_position.md) -/

/-- Positions of the web are compared modulo 2^48 (R45): a is after b when (a − b) mod 2^48 lies in 1 to 2^47 − 1, equal when the difference is 0, and
before otherwise, a difference of exactly 2^47 included. -/
def Obligations.PositionsCompareModulo : Prop :=
  ∀ a b k : Nat,
    let diff := (a % 2 ^ 48 + 2 ^ 48 - b % 2 ^ 48) % 2 ^ 48
    (webAfter a b = true ↔ 1 ≤ diff ∧ diff ≤ 2 ^ 47 - 1) ∧ (webDiff a b = 0 ↔ diff = 0) ∧ (webDiff a b < 0 ↔ 2 ^ 47 ≤ diff) ∧
    webDiff (a + 2 ^ 48 * k) b = webDiff a b ∧ webDiff a (b + 2 ^ 48 * k) = webDiff a b

/-- WEB_SET, POS_CFG_WRITE and POS_CNT_CLR (R28, R46, R52, R54, R466): what they write, in which modes, and the refusal elsewhere. A trim interruption
goes on from a coordinate that is set, and ends with the source; a counter that rises in the cycle of a clear keeps that rise. -/
def Obligations.PosHostWrites : Prop :=
  ∀ s : State, s.dev.reaches 5 = true →
    (∀ hi : Word,
      (s.dev.modeIn [.idle, .ready, .calibrate] = true →
        ∃ t, exec (.webSet hi) s = .next t ∧
          s.gives t [(Reg.POS_WEB_SET_HI, BitVec.ofNat 32 (hi.toNat % 2 ^ 16))] fun d =>
            let v := ((d.rd Reg.POS_WEB_SET_LO).toNat + hi.toNat % 2 ^ 16 * 2 ^ 32) * 2 ^ 24
            Dev.extrapSet { d with pos := { d.pos with web := v, hwm := v, setAt := some d.now } }) ∧
      (s.dev.modeIn [.idle, .ready, .calibrate] = false → exec (.webSet hi) s = .next (s.withDev (s.dev.raise Ev.POS_SET_REFUSED 15 none [s.dev.src.val, 0x1C])))) ∧
    (∀ (off : Nat) (v : Word), off = 0 ∨ off = 0x30 ∨ off = 0x34 → s.dev.modeIn [.idle, .calibrate] = false →
      exec (.posCfgWrite off v) s = .next (s.withDev (s.dev.raise Ev.POS_SET_REFUSED 15 none [s.dev.src.val, off]))) ∧
    (s.dev.modeIn [.idle, .calibrate] = true →
      (∀ v : Word,
        (Nat.testBit (v.toNat / 2 ^ 8 % 16) (v.toNat % 4) = true →
          ∃ t, exec (.posCfgWrite 0 v) s = .next t ∧ s.gives t [(Reg.POS_CFG, BitVec.ofNat 32 (v.toNat / 2 ^ 8 % 16 * 2 ^ 8 + v.toNat % 4))] fun d =>
            let fresh (n : Fin 4) (c : PosCh) : PosCh :=
              if Nat.testBit (v.toNat / 2 ^ 8 % 16) n.val && !d.chEn n then
                { c with phase := none, moved := 0, lag := 0, since := d.now, ref := none, idxDue := false, reqAt := none, defer := false, ssi := none,
                         word := none, silent := 0, low := 0, high := 0 }
              else c
            { d with pos := { d.pos with ch := updAll d.pos.ch fresh, extrap := if v.toNat % 4 = d.src.val then d.pos.extrap else none } }) ∧
        (Nat.testBit (v.toNat / 2 ^ 8 % 16) (v.toNat % 4) = false →
          exec (.posCfgWrite 0 v) s = .next (s.withDev (s.dev.raise Ev.POS_SET_REFUSED 15 none [s.dev.src.val, 0])))) ∧
      (∀ v : Word, ∃ t, exec (.posCfgWrite 0x30 v) s = .next t ∧ s.gives t [(Reg.POS_SCALE_LO, v)] ∧ t.dev.scale = s.dev.scale) ∧
      (∀ v : Word, ∃ t, exec (.posCfgWrite 0x34 v) s = .next t ∧
        t = s.withDev { s.dev with regs := t.dev.regs, eff := t.dev.eff } ∧
        (∀ a, t.dev.rd a = s.dev.wordAfter [(Reg.POS_SCALE_HI, BitVec.ofNat 32 (v.toNat % 2 ^ 8))] a) ∧
        (∀ a, a ≠ Reg.POS_SCALE_LO → a ≠ Reg.POS_SCALE_HI → t.dev.effRd a = s.dev.effRd a) ∧
        t.dev.scale = (s.dev.rd Reg.POS_SCALE_LO).toNat + v.toNat % 2 ^ 8 * 2 ^ 32)) ∧
    (s.dev.pos.incAt ≠ s.dev.now → ∃ t, exec .posCntClr s = .next t ∧
      s.gives t ([(Reg.POS_ILLEGAL, 0), (Reg.POS_GLITCH, 0)] ++ (List.finRange 4).flatMap fun n : Fin 4 =>
          [(Reg.POS_CH_SSI_ERR n, 0), (Reg.POS_CH_SSI_JUMP n, 0), (Reg.POS_CH_ANA_ERR n, 0), (Reg.POS_CH_IDXDEV n, 0)]) fun d =>
        { d with pos := { d.pos with ch := updAll d.pos.ch fun _ c => { c with idxRaised := false } } }) ∧
    (∀ (k : FaultKind) (ch : Fin 4), s.dev.pos.incAt = s.dev.now → s.dev.pos.incs = [((k.counter ch).reg, (k.counter ch).lo, (k.counter ch).w)] →
      ∃ t, exec .posCntClr s = .next t ∧ t.dev.get (k.counter ch) = 1 ∧
        ∀ (j : FaultKind) (n : Fin 4), j.counter n ≠ k.counter ch → t.dev.get (j.counter n) = 0)

/-- A source count moves the web coordinate, the mark and nothing else of the counts (R29, R43, R44, R48, R50): what `Dev.count`, which
every decoded motion goes through, does to the raw counter, the coordinate and the motion of the speed window, the running one or, in the cycle
that ends it, the next. A count in the cycle of a set of the coordinate does not move it (R46).
Where the spec leaves it open this rests on the model's choices of log entry 22. -/
def Obligations.CountsMoveTheWeb : Prop :=
  ∀ (d : Dev) (ch : Fin 4) (n : Int), d.pos.extrap = none →
    let m : Int := if d.bit (F.POS_CH_CFG_INVERT ch) then -n else n
    let e := d.count ch n
    (e.rd (Reg.POS_CH_RAW ch)).toNat = ((d.rd (Reg.POS_CH_RAW ch)).toNat + m) % 2 ^ 32 ∧
    (∀ j : Fin 4, j ≠ ch → e.pos.ch[j] = d.pos.ch[j] ∧ e.rd (Reg.POS_CH_RAW j) = d.rd (Reg.POS_CH_RAW j)) ∧
    (d.src = ch ∧ m ≠ 0 ∧ d.pos.setAt ≠ some d.now →
      (e.pos.web : Int) = (d.pos.web + m * d.scale) % webFull ∧
      (d.now < d.pos.speedStart + speedWinNs d.pos.speedWin → e.pos.acc = d.pos.acc + m * d.scale ∧ e.pos.accNext = d.pos.accNext) ∧
      (d.pos.speedStart + speedWinNs d.pos.speedWin ≤ d.now → e.pos.acc = d.pos.acc ∧ e.pos.accNext = d.pos.accNext + m * d.scale) ∧
      (d.modeIn [.idle, .ready, .calibrate, .safe, .boot, .shutdown, .sleep] = true → e.pos.hwm = e.pos.web) ∧
      (d.modeIn [.print, .hold, .shuttle, .shadow] = true → 0 < d.pos.ahead e.pos.web → e.pos.hwm = e.pos.web ∧ e.sys = d.sys) ∧
      (d.modeIn [.print, .hold] = true → d.pos.ahead e.pos.web ≤ 0 → e.pos.hwm = d.pos.hwm) ∧
      (d.mode = .print → d.pos.ahead e.pos.web ≤ 0 → -(d.backlash : Int) ≤ d.pos.ahead e.pos.web → e.sys = d.sys) ∧
      (d.mode = .print → d.pos.ahead e.pos.web < -(d.backlash : Int) → d.sys.trans = none →
        e.sys = { d.sys with trans := some { dest := .hold, cause := 0x01, host := false, at_ := d.now } }) ∧
      (d.mode = .print → d.pos.ahead e.pos.web < -(d.backlash : Int) → d.pos.ahead d.pos.web < -(d.backlash : Int) → d.sys.trans ≠ none → e.sys = d.sys) ∧
      (d.mode = .shuttle → d.pos.ahead e.pos.web < -(d.backlash : Int) →
        e.pos.hwm = e.pos.web ∧ e.pos.markDesc = !d.pos.markDesc ∧ e.sys = d.sys)) ∧
    (¬ (d.src = ch ∧ m ≠ 0 ∧ d.pos.setAt ≠ some d.now) → e.pos.web = d.pos.web ∧ e.pos.hwm = d.pos.hwm ∧ e.pos.acc = d.pos.acc ∧ e.pos.accNext = d.pos.accNext ∧
      e.sys = d.sys ∧ e.raised = d.raised)

/-- QUAD_EDGE, MINSP_ELAPSED and INDEX_EDGE (R32 to R35, R40 to R42): two accepted changes of one cycle are illegal, and an index that waits for the
last edge of its cycle is taken after it (`Dev.indexTake`, `Dev.indexDue`).
The phase of a pair, in 1/4,096 of a period (R29, R30), on the four axes and on the way round.
Where the spec leaves it open this rests on the model's choices of log entries 1 and 21. -/
def Obligations.QuadratureEdges : Prop :=
  (∀ (s : State) (n : Chan), s.dev.live 10 = true →
    let ch : Fin 4 := n
    let c := s.dev.pos.ch[ch]
    let sp := s.dev.get (F.POS_CH_CFG_MINSP ch)
    let free (l : Line) : Prop := sp = 0 ∨ l.at_ + sp * 10 ≤ s.dev.now
    let dest (v : Bool) : Line := { acc := v, at_ := s.dev.now, last := v }
    let w := s.edgeWaits ch
    let sees (a b : Bool) : Dev := s.dev.posCh ch fun x => { x with a := { x.a with last := a }, b := { x.b with last := b } }
    (s.dev.isQuad ch = true → ∀ a b : Bool,
      (a ≠ c.a.acc → free c.a → b = c.b.acc →
        exec (.quadEdge n a b) s = .next (s.withDev
          (((s.dev.posCh ch fun x => { x with a := dest a, b := { x.b with last := b } }).count ch (if a = b then -1 else 1)).indexTake ch w).moved)) ∧
      (a = c.a.acc → b ≠ c.b.acc → free c.b →
        exec (.quadEdge n a b) s = .next (s.withDev
          (((s.dev.posCh ch fun x => { x with a := { x.a with last := a }, b := dest b }).count ch (if a = b then 1 else -1)).indexTake ch w).moved)) ∧
      (a ≠ c.a.acc → free c.a → b ≠ c.b.acc → free c.b →
        exec (.quadEdge n a b) s = .next (s.withDev
          (((s.dev.posCh ch fun x => { x with a := dest a, b := dest b }).fault ch .ill).indexTake ch w).moved)) ∧
      (a = c.a.acc → b = c.b.acc → exec (.quadEdge n a b) s = .next (s.withDev ((sees a b).indexTake ch w).moved)) ∧
      (a ≠ c.a.acc → ¬ free c.a → b = c.b.acc → exec (.quadEdge n a b) s = .next (s.withDev
        ((if c.a.last = c.a.acc then (sees a b).fault ch .glitch else sees a b).indexTake ch w).moved)) ∧
      (a = c.a.acc → b ≠ c.b.acc → ¬ free c.b → exec (.quadEdge n a b) s = .next (s.withDev
        ((if c.b.last = c.b.acc then (sees a b).fault ch .glitch else sees a b).indexTake ch w).moved))) ∧
    (s.dev.isQuad ch = true → s.quadWaits ch = false →
      let late (l : Line) : Prop := l.last ≠ l.acc ∧ l.at_ + sp * 10 ≤ s.dev.now
      (late c.a → ¬ late c.b →
        exec (.minspElapsed n 0) s = .next (s.withDev
          (((s.dev.posCh ch fun x => { x with a := dest x.a.last }).count ch (if c.a.last = c.b.acc then -1 else 1)).indexTake ch w).moved)) ∧
      (late c.b → ¬ late c.a →
        exec (.minspElapsed n 1) s = .next (s.withDev
          (((s.dev.posCh ch fun x => { x with b := dest x.b.last }).count ch (if c.a.acc = c.b.last then 1 else -1)).indexTake ch w).moved)) ∧
      (late c.a → late c.b → ∀ line : Fin 3, line ≠ 2 →
        exec (.minspElapsed n line) s = .next (s.withDev
          (((s.dev.posCh ch fun x => { x with a := dest x.a.last, b := dest x.b.last }).fault ch .ill).indexTake ch w).moved)) ∧
      (late c.z → exec (.minspElapsed n 2) s = .next (s.withDev
        (let d := s.dev.posCh ch fun x => { x with z := dest x.z.last }
         ((if c.z.last ≠ s.dev.bit (F.POS_CH_CFG_IDX_POL ch) then d.indexDue ch w else d).indexTake ch w).moved))) ∧
      (∀ line : Fin 3, ¬ late (if line = 0 then c.a else if line = 1 then c.b else c.z) →
        exec (.minspElapsed n line) s = .next (s.withDev (s.dev.indexTake ch w).moved))) ∧
    (s.quadWaits ch = true → ∀ line : Fin 3, line ≠ 2 → exec (.minspElapsed n line) s = .next s) ∧
    (s.dev.chRuns ch = true → (2 ≤ ch.val → s.dev.get (F.POS_CH_CFG_MODE ch) ≠ 1) → ∀ level : Bool,
      level ≠ c.z.acc → (ch.val < 2 ∨ free c.z) →
        exec (.indexEdge n level) s = .next (s.withDev
          (let d := s.dev.posCh ch fun x => { x with z := dest level }
           (if level ≠ s.dev.bit (F.POS_CH_CFG_IDX_POL ch) then d.indexDue ch w else d).moved)))) ∧
  ((∀ a : Int, 0 < a → phaseOf 0 a = 0 ∧ phaseOf a 0 = 1024 ∧ phaseOf 0 (-a) = 2048 ∧ phaseOf (-a) 0 = 3072) ∧
  (∀ a b : Int, 0 < a → 0 < b →
    phaseOf a b < 1024 ∧ phaseOf b (-a) = 1024 + phaseOf a b ∧ phaseOf (-a) (-b) = 2048 + phaseOf a b ∧ phaseOf (-b) a = 3072 + phaseOf a b) ∧
  (∀ o n : Nat, o < 4096 → n < 4096 → -2048 ≤ phaseStep o n ∧ phaseStep o n < 2048 ∧ (o + phaseStep o n - n) % 4096 = 0))

/-- What an index does (R40 to R42), by `Dev.index`: the capture, the check against the expected count, and the re-home.
Where the spec leaves it open this rests on the model's choices of log entries 21 and 22. -/
def Obligations.IndexCaptures : Prop :=
  ∀ (d : Dev) (ch : Fin 4),
    (d.bit (F.POS_CH_IDXCTL_EN ch) = false → d.index ch = d) ∧
    (d.bit (F.POS_CH_IDXCTL_EN ch) = true →
      let raw := (d.rd (Reg.POS_CH_RAW ch)).toNat
      let per := d.get (F.POS_CH_IDXPER_PERIOD ch)
      let e := d.index ch
      e.rd (Reg.POS_IDX_SEEN ch) = d.rd (Reg.POS_CH_RAW ch) ∧
      (d.pos.ch[ch].ref = none ∨ per = 0 →
        e.pos = { d.pos with ch := upd d.pos.ch ch fun c => { c with ref := some raw } } ∧ e.raised = d.raised ∧
        ∀ a, a ≠ Reg.POS_IDX_SEEN ch → e.rd a = d.rd a) ∧
      (∀ r, d.pos.ch[ch].ref = some r → per ≠ 0 →
        let want := unsext 32 (if d.pos.ch[ch].back then (r : Int) - per else (r : Int) + per)
        let err := sext 32 (raw + 2 ^ 32 - want)
        e.rd (Reg.POS_CH_IDXERR ch) = BitVec.ofInt 32 err ∧
        (d.bit ⟨Reg.POS_IDX_REHOME, ch.val, 1⟩ = false → e.pos.web = d.pos.web ∧ e.pos.hwm = d.pos.hwm ∧
          e.rd (Reg.POS_CH_RAW ch) = d.rd (Reg.POS_CH_RAW ch) ∧ e.pos.ch[ch].ref = some raw) ∧
        (d.bit ⟨Reg.POS_IDX_REHOME, ch.val, 1⟩ = true →
          (e.rd (Reg.POS_CH_RAW ch)).toNat = want ∧ e.bit ⟨Reg.POS_IDX_REHOME, ch.val, 1⟩ = false ∧ e.pos.ch[ch].ref = some want ∧
          (d.src = ch → (e.pos.web : Int) = (d.pos.web - err * d.scale) % webFull ∧
            (e.pos.hwm : Int) = (d.pos.hwm - err * d.scale) % webFull) ∧
          (d.src ≠ ch → e.pos.web = d.pos.web ∧ e.pos.hwm = d.pos.hwm))))

/-- SSI_REQUEST, SSI_TRANSFER_START, SSI_TIMEOUT and SSI_WORD (R36 to R39, R47): a request a period, deferred during a transfer; a transfer while the
data line is high in time; a word no sooner than LATENCY, with LEAD bits discarded.
Where the spec leaves it open this rests on the model's choices of log entries 1, 60 and 61. -/
def Obligations.SerialWords : Prop :=
  ∀ (s : State) (n : Chan), s.dev.live 10 = true →
    let ch : Fin 4 := n
    let c := s.dev.pos.ch[ch]
    (s.dev.isSsi ch = true →
      (∀ t, c.reqAt = some t → s.dev.now < t + s.dev.ssiPeriodNs ch → exec (.ssiRequest n) s = .next s) ∧
      ((∀ t, c.reqAt = some t → t + s.dev.ssiPeriodNs ch ≤ s.dev.now) → ∃ t, exec (.ssiRequest n) s = .next t ∧
        t.dev.pos = { s.dev.pos with ch := upd s.dev.pos.ch ch fun c =>
          { c with silent := c.silent + 1, reqAt := some ((c.reqAt.map fun t => t + s.dev.ssiPeriodNs ch).getD s.dev.now),
                   defer := c.defer || (match c.ssi with | some r => r.run.isSome | none => false),
                   ssi := some (c.ssi.getD { at_ := max s.dev.now (c.ssiEnd + 2 * s.dev.ssiClk ch) }) } } ∧
        (4 ≤ c.silent → t.dev.get (F.POS_CH_STATUS_NO_WORD ch) = 1) ∧ (∀ a, a ≠ Reg.POS_CH_STATUS ch → t.dev.rd a = s.dev.rd a)) ∧
      (∀ r : SsiReq, c.ssi = some r → r.run = none → r.at_ ≤ s.dev.now →
        (s.dev.now ≤ r.at_ + s.dev.ssiTimeoutNs ch →
          exec (.ssiTransferStart n) s = .next (s.withDev (s.dev.posCh ch fun c => { c with ssi := some { r with run := some s.dev.now } }))) ∧
        (r.at_ + s.dev.ssiTimeoutNs ch ≤ s.dev.now → s.startWaits ch = false →
          exec (.ssiTimeout n) s = .next (s.withDev ((s.dev.posCh ch fun c => { c with ssi := none }).fault ch .timeout)))) ∧
      (∀ (r : SsiReq) (at_ : Nat) (hi lo : Word), c.ssi = some r → r.run = some at_ → at_ + s.dev.latency ch ≤ s.dev.now →
        let word := hi.toNat * 2 ^ 32 + lo.toNat
        let bits := s.dev.ssiBits ch
        let k := s.dev.ssiChkLen ch
        let p := word / 2 ^ k % 2 ^ bits
        let w := if s.dev.bit (F.POS_CH_SSI_GRAY ch) then grayToBin bits p else p
        let over_ := at_ + (s.dev.get (F.POS_CH_SSI_LEAD ch) + bits + k + 1) * s.dev.ssiClk ch
        let d := s.dev.posCh ch fun c =>
          { c with ssi := if c.defer then some { at_ := over_ + 2 * s.dev.ssiClk ch } else none, defer := false, ssiEnd := over_ }
        let step := s.dev.get (F.POS_CH_SSI_MAXSTEP_STEP ch)
        let ok (d : Dev) := (d.posCh ch fun c => { c with word := some w, silent := 0 }).set (F.POS_CH_STATUS_NO_WORD ch) 0
        let good := s.dev.ssiCheck ch p (word % 2 ^ k)
        (good = false → exec (.ssiWord n hi lo) s = .next (s.withDev (d.fault ch .check).moved)) ∧
        (good = true → c.word = none →
          exec (.ssiWord n hi lo) s = .next (s.withDev ((ok d).wr (Reg.POS_CH_RAW ch) (BitVec.ofNat 32 w)).moved)) ∧
        (∀ old, good = true → c.word = some old →
          let diff := halfRange bits w old
          (step ≠ 0 → step < diff.natAbs → exec (.ssiWord n hi lo) s = .next (s.withDev (d.fault ch .jump).moved)) ∧
          (step = 0 ∨ diff.natAbs ≤ step → exec (.ssiWord n hi lo) s = .next (s.withDev ((ok d).count ch diff).moved)))) ∧
      (∀ (r : SsiReq) (at_ : Nat) (hi lo : Word), c.ssi = some r → r.run = some at_ → s.dev.now < at_ + s.dev.latency ch →
        exec (.ssiWord n hi lo) s = .next (s.withDev s.dev.moved))) ∧
    (s.dev.isSsi ch = false → ∀ hi lo, exec (.ssiRequest n) s = .next s ∧ exec (.ssiTransferStart n) s = .next s ∧
      exec (.ssiTimeout n) s = .next s ∧ exec (.ssiWord n hi lo) s = .next (s.withDev s.dev.moved))

/-- SPEED_WINDOW_END and FAULT_WINDOW_END (R48, R49, R31, R52, R466).
Counting a fault (R52), by `Dev.fault`: the cumulative counter saturates, the window counts, and the limit raises one record in a window:
ENC_FAULT for the source, which leaves a printing mode for HOLD with cause 0x04, ENC_CH_FAULT for any other channel.
Where the spec leaves it open this rests on the model's choices of log entry 1. -/
def Obligations.WindowsEnd : Prop :=
  (∀ s : State, s.dev.live 10 = true →
    let p := s.dev.pos
    let ns := speedWinNs p.speedWin
    let v := speedOf p.acc ns
    (p.speedStart + ns ≤ s.dev.now → ∃ t, exec .speedWindowEnd s = .next t ∧
      t.dev.get F.POS_SPEED_SPEED = min 0xFFFFFFFF v.natAbs ∧
      t.dev.bit F.POS_STATUS_DIR = decide (v < 0) ∧
      t.dev.bit F.POS_STATUS_STABLE =
        stable (((min 0xFFFFFFFF v.natAbs, decide (v < 0)) :: p.hist).take 16) (s.dev.get F.POS_STABLE_TOL) ∧
      t.dev.pos.acc = p.accNext ∧ t.dev.pos.accNext = 0 ∧ t.dev.pos.speedPrev = p.speedStart ∧ t.dev.pos.speedStart = p.speedStart + ns ∧ t.dev.pos.speedWin = s.dev.get F.POS_SPEED_WIN_WIN ∧
      t.dev.pos.web = p.web ∧ t.dev.pos.hwm = p.hwm ∧ (∀ n : Fin 4, t.dev.pos.ch[n].moved = 0) ∧
      (∀ n : Fin 4, t.dev.rd (Reg.POS_CH_RAW n) = s.dev.rd (Reg.POS_CH_RAW n)) ∧
      (∀ n : Fin 2, s.dev.chEn (chOf2 n) = true →
        let m := p.ch[chOf2 n].moved.natAbs * 1000000000
        let part := p.speedStart + ns - max p.speedStart p.ch[chOf2 n].since
        (500000 * 4096 * part < m → t.dev.bit (F.POS_CH_STATUS_OVERSPEED n) = true) ∧
        (m < 500000 * 4096 * part → t.dev.bit (F.POS_CH_STATUS_OVERSPEED n) = false))) ∧
    (s.dev.now < p.speedStart + ns → exec .speedWindowEnd s = .next s) ∧
    (p.faultStart + faultWinNs p.faultWin ≤ s.dev.now → ∃ t, exec .faultWindowEnd s = .next t ∧
      s.gives t [] fun d => { d with pos := { d.pos with
        faultStart := p.faultStart + faultWinNs p.faultWin, faultWin := d.get F.POS_FLT_WIN_MS, ch := updAll p.ch fun _ c => { c with win := {} } } }) ∧
    (s.dev.now < p.faultStart + faultWinNs p.faultWin → exec .faultWindowEnd s = .next s)) ∧
  (∀ (d : Dev) (ch : Fin 4) (k : FaultKind),
    let e := d.fault ch k
    let w := d.pos.ch[ch].win.bump k
    let lim := d.get k.limit
    e.rd (k.counter ch).reg = (k.counter ch).into (d.rd (k.counter ch).reg) (min 0xFFFF (d.get (k.counter ch) + 1)) ∧
    (∀ a, a ≠ (k.counter ch).reg → e.rd a = d.rd a) ∧ e.pos.web = d.pos.web ∧ e.pos.hwm = d.pos.hwm ∧
    (lim = 0 ∨ w.group k < lim ∨ d.pos.ch[ch].win.raised = true → e.raised = d.raised ∧ e.sys = d.sys ∧ e.pos.ch[ch].win = w) ∧
    (lim ≠ 0 → lim ≤ w.group k → d.pos.ch[ch].win.raised = false → e.pos.ch[ch].win = { w with raised := true } ∧
      e.raised = d.raised ++ [d.event (if d.src = ch then Ev.ENC_FAULT else Ev.ENC_CH_FAULT) 15 none [ch.val + w.causes k, w.group k]] ∧
      (d.src = ch → d.printing = true → d.sys.trans = none →
        e.sys = { d.sys with trans := some { dest := .hold, cause := 0x04, host := false, at_ := d.now } }) ∧
      (d.src ≠ ch ∨ d.printing = false → e.sys = d.sys)))

/-- The TRIM commands (R53, R54, R56): a measurement over its periods, the codes taken up with an interruption in which the coordinate advances at the
last measured speed, and its end. ANALOG_SAMPLE and AMPLITUDE_EPISODE (R30, R31, R54): whole periods on the pair as sampled, the phase on the
trimmed pair; what is not counted at once is held back. Sample values are in 0.1 mV.
Where the spec leaves it open this rests on the model's choices of log entries 1, 21, 60 and 61. -/
def Obligations.TrimsOfAnalogChannels : Prop :=
  (∀ (s : State) (n : Fin 2),
    (s.dev.reaches 5 = true →
      (∃ t, exec (.trimMeasure n) s = .next t ∧
        t.dev.pos = { s.dev.pos with meas := s.dev.pos.meas.set n (some { need := 4096 * max 4096 (s.dev.get (F.POS_TRIM_CTL_PERIODS n)) }) } ∧
        t.dev.get (F.POS_TRIM_STAT_DONE n) = 0 ∧ t.dev.get (F.POS_TRIM_STAT_BUSY n) = 1 ∧
        ∀ a, a ≠ Reg.POS_TRIM_STAT n → t.dev.rd a = s.dev.rd a) ∧
      (s.dev.mode = .calibrate ∨ s.dev.mode = .print ∧ s.dev.bit F.POS_STATUS_STABLE = true → ∃ t, exec (.trimApply n) s = .next t ∧
        t.dev.rd (Reg.POS_TRIM_ACT n) = s.dev.rd (if s.dev.bit (F.POS_TRIM_CTL_USE_HOST n) then Reg.POS_TRIM_HOST n else Reg.POS_TRIM_MEAS n) ∧
        t.dev.get (F.POS_TRIM_STAT_REFUSED n) = 0 ∧ t.dev.get (F.POS_TRIM_STAT_BUSY n) = 1 ∧ t.dev.get F.POS_STATUS_EXTRAP = 1 ∧
        (∀ a, a ≠ Reg.POS_TRIM_ACT n → a ≠ Reg.POS_TRIM_STAT n → a ≠ Reg.POS_STATUS → t.dev.rd a = s.dev.rd a) ∧
        t.dev.pos = { s.dev.pos with
          applying := s.dev.pos.applying.set n (some (s.dev.pos.applying[n].getD s.dev.now)),
          extrap := match s.dev.pos.extrap with
            | some e => some e
            | none => if s.dev.src = chOf2 n then some { ch := n.val, start := s.dev.now, speed := s.dev.speedI } else none }) ∧
      (¬ (s.dev.mode = .calibrate ∨ s.dev.mode = .print ∧ s.dev.bit F.POS_STATUS_STABLE = true) →
        exec (.trimApply n) s =
          .next (s.withDev ((s.dev.set (F.POS_TRIM_STAT_REFUSED n) 1).raise Ev.TRIM_REFUSED 15 none [n.val]))) ∧
      (∃ t, exec (.trimStore n) s = .next t ∧
        let v := (s.dev.rd (Reg.POS_TRIM_ACT n)).toNat
        t = s.withDev ((s.dev.prsWrite (trimRecord n) v).prsWrite (trimRecord n + 1) (crc32c (bytesLE 4 v))))) ∧
    (s.dev.live 10 = true →
      (∀ (m : Meas) (e : Vector (Int × Int) 4), s.dev.pos.meas[n] = some m → m.ext = some e →
        (∀ k, m.need ≠ 4096 * k ∨ m.turned.natAbs < m.need → exec (.trimDone n k) s = .next s) ∧
        (∀ k, m.need = 4096 * k → m.need ≤ m.turned.natAbs → ∃ t, exec (.trimDone n k) s = .next t ∧
          let act := s.dev.rd (Reg.POS_TRIM_ACT n)
          let x := trimCodes e (s.dev.free 8)
          let lim := clampI (-127) 127
          t.dev.rd (Reg.POS_TRIM_MEAS n) =
            trimWord (lim (x.1 + trimOf act 0)) (lim (x.2.1 + trimOf act 1)) (lim (x.2.2.1 + trimOf act 2)) (lim (x.2.2.2 + trimOf act 3)) ∧
          t.dev.get (F.POS_TRIM_STAT_DONE n) = 1 ∧ t.dev.bit (F.POS_TRIM_STAT_BUSY n) = s.dev.pos.applying[n].isSome ∧
          t.dev.raised = s.dev.raised ++ [s.dev.event Ev.TRIM_DONE 15 none [n.val]] ∧
          t.dev.pos = { s.dev.pos with meas := s.dev.pos.meas.set n none } ∧
          ∀ a, a ≠ Reg.POS_TRIM_MEAS n → a ≠ Reg.POS_TRIM_STAT n → t.dev.rd a = s.dev.rd a)) ∧
      (s.dev.pos.meas[n] = none → ∀ k, exec (.trimDone n k) s = .next s) ∧
      (∀ (e : Extrap) (at_ : Nat), s.dev.pos.applying[n] = some at_ → s.dev.pos.extrap = some e → e.ch = n.val → s.dev.src = chOf2 n →
        s.dev.mode = .calibrate → s.dev.pos.turned = false → s.dev.pos.setAt ≠ some s.dev.now →
        let held : Int := if s.dev.bit (F.POS_CH_STATUS_AMP_LOW (chOf2 n)) then 0 else s.dev.pos.ch[chOf2 n].lag
        let m : Int := if s.dev.bit (F.POS_CH_CFG_INVERT (chOf2 n)) then -held else held
        ∃ t, exec (.trimApplied n) s = .next t ∧ (t.dev.pos.web : Int) = (s.dev.pos.web + (e.acc + m * s.dev.scale - e.moved)) % webFull ∧
          t.dev.pos.hwm = t.dev.pos.web ∧ t.dev.pos.extrap = none ∧ t.dev.pos.applying[n] = none))) ∧
  (∀ (s : State) (n : Fin 2), s.dev.live 10 = true →
    let ch := chOf2 n
    let c := s.dev.pos.ch[ch]
    let w := s.edgeWaits ch
    let last_ (d : Dev) : Host.Outcome State Fault Refusal := .next (s.withDev (d.indexTake ch w).moved)
    let lows : Dev := ((s.dev.posCh ch fun x => { x with low := 0, high := 0 }).set (F.POS_CH_STATUS_AMP_LOW ch) 0).set (F.POS_CH_STATUS_AMP_HIGH ch) 0
    let weak : Dev := (s.dev.posCh ch fun x => { x with low := x.low + 1, high := 0 }).set (F.POS_CH_STATUS_AMP_HIGH ch) 0
    (∀ sn cs : Int, s.dev.chRuns ch = false → exec (.analogSample n sn cs) s = last_ s.dev) ∧
    (s.dev.chRuns ch = true → ∀ sn cs : Int,
      let r2 := sn * sn + cs * cs
      let t := trimmed (s.dev.rd (Reg.POS_TRIM_ACT n)) sn cs
      let u := phaseOf sn cs
      let fine := sext 12 (phaseOf t.1 t.2 + 4096 - u)
      let seen (d : Dev) (step : Int) : Dev := (d.posCh ch fun x => { x with phase := some u, fine := fine }).measSample n t step
      (3000 ^ 2 ≤ r2 → r2 ≤ 6500 ^ 2 → t ≠ (0, 0) → c.phase = none → exec (.analogSample n sn cs) s = last_ (seen lows 0)) ∧
      (r2 = 0 → exec (.analogSample n sn cs) s = last_ (weak.measSample n t 0)) ∧
      (∀ o, c.phase = some o → t ≠ (0, 0) →
        let step := phaseStep o u
        let k := step + fine - c.fine
        (3000 ^ 2 ≤ r2 → r2 ≤ 6500 ^ 2 → s.dev.pos.applying[n] = none → exec (.analogSample n sn cs) s = last_
          (((seen lows step).posCh ch fun x => { x with moved := x.moved + k, lag := 0 }).count ch (c.lag + k))) ∧
        (3000 ^ 2 ≤ r2 → r2 ≤ 6500 ^ 2 → s.dev.pos.applying[n] ≠ none →
          let whole := 4096 * ((step - ((u : Int) - o)) / 4096)
          exec (.analogSample n sn cs) s = last_
            (((seen lows step).posCh ch fun x => { x with moved := x.moved + k, lag := x.lag + k - whole }).count ch whole)) ∧
        (0 < r2 → r2 < 3000 ^ 2 → s.dev.bit (F.POS_CH_STATUS_AMP_LOW ch) = true → exec (.analogSample n sn cs) s = last_
          ((seen weak step).posCh ch fun x => { x with moved := x.moved + k, lag := x.lag + k })))) ∧
    (∀ high : Bool,
      let run := if high then c.high else c.low
      let f := if high then F.POS_CH_STATUS_AMP_HIGH ch else F.POS_CH_STATUS_AMP_LOW ch
      (s.dev.chRuns ch = true → 16 ≤ run → s.dev.bit f = false →
        exec (.amplitudeEpisode n high) s = .next (s.withDev ((s.dev.set f 1).fault ch .amp))) ∧
      (s.dev.chRuns ch = false ∨ run < 16 ∨ s.dev.bit f = true → exec (.amplitudeEpisode n high) s = .next s)))


/-! ### Line timing (spec/03_line_timing.md) -/

/-- LINE_ISSUE (R66, R67, R68, R76, R210, R346): a buoy of the same cycle falls first; no line is issued before its count and gate, while a line's fire
instant is still to come, or outside the modes that fire; in the turnaround zone it is skipped, in the gap after a take-over passed; else it takes
the next wire number and its FIRE blocks go out.
Where the spec leaves it open this rests on the model's choices of log entries 1, 22 and 23. -/
def Obligations.LinesIssue : Prop :=
  ∀ (s : State) (b : Bar), s.dev.live 10 = true →
    let f := s.dev.buoyFall b
    (s.dev.clocksRun = false ∨ s.dev.buoyDue b = false ∨ s.dev.boundaryDue b = true → f = s.dev) ∧
    (f.dueLine b = none → exec (.lineIssue b) s = .next (s.withDev f)) ∧
    (∀ p e, f.dueLine b = some (p, e) → (∀ i ∈ (f.bar b).issued, i.pos ≠ p) →
      let x := f.bar b
      let go := f.linesRun && f.reached b (f.kOf p) && f.gateOpen b p e && x.issued.all (·.fired) && decide (x.issued.length < 2)
      let slow := f.shuttling && decide (f.get F.POS_SPEED_SPEED < f.get F.LTC_SHU_MINSPD_SPEED)
      (go = false → exec (.lineIssue b) s = .next (s.withDev f.hand)) ∧
      (go = true → slow = true → exec (.lineIssue b) s = .next (s.withDev ((((f.addSat (F.LTC_BAR_GATED_COUNT b) 1).modBar b fun y =>
        { y with skips := y.skips + 1, next := y.after (y.next + 1), lastLine := some p, heldAt := none,
                 car := y.car.filter fun t => t.pos ≠ p, starved := y.starved.filter fun q => q ≠ p }).checkPassed b).hand))) ∧
      (go = true → slow = false → (f.dpx.bars[b].gap = none ∨ ∃ t, f.dpx.bars[b].gap = some t ∧ t ≤ f.now) →
        let d := f.issueLine b p e
        exec (.lineIssue b) s = .next (s.withDev ((if (d.bar b).issued.any fun i => i.pos = p then d.bandDecision p else d).hand))) ∧
      (∀ t, go = true → slow = false → f.dpx.bars[b].gap = some t → f.now < t →
        exec (.lineIssue b) s = .next (s.withDev (f.gapLine b p e).hand)) ∧
      (∀ slot, f.mode = .print → f.dual b = false → f.dpx.bars[b].gap = none → x.tl = [] → x.derAt = [] → x.epWidth = f.widthNow b →
        (x.car.find? fun t => t.pos = p && t.committed) = some slot → slot.sent = true →
        let wire := f.get (F.ZXL_BAR_WIRE_COUNT b) + 1
        let at_ := f.fireTime b (f.kOf p)
        let line : Issued := { pos := p, k := f.kOf p, wire := wire, fireAt := at_, fired := false, endAt := 0,
                               bad := slot.bad, placed := slot.placed, lost := slot.lost }
        f.issueLine b p e = ((((((f.showWidth b).set (F.ZXL_BAR_WIRE_COUNT b) wire).sendFire b 0 wire at_).modBar b fun y =>
          { y with issued := y.issued ++ [line], lateRes := y.lateRes.filter fun x => p.lt x.1, lastK := f.kOf p,
                   lastLine := some p, firstLine := some (y.firstLine.getD p), next := y.after (y.next + 1), heldAt := none, moved := false, gatedEvt := false }).set
          (F.JOB_BAR_STATE_STATE b) 1).commitDue b)))

/-- FIRE_INSTANT and STROBE_END (R68, R77, R78, R148): the slot is freed and the outputs rise on the CK9 edge nearest the instant, one cycle later where
the strobe before still ran, and not at all on the way to SAFE; the line counts as fired when its strobe ends:
LTC_BAR_LINE takes its number, the printed lines count it, and the counters of starved, poisoned and failed lines and of spread dots (R436).
The fire lead and the gate (R60, R66, R67, R75): a fire instant lies at least 4 µs after issue, and exactly 4 µs where the gate came last or a
correction moved the count past the issue point; the gate opens with the mark at or after the fire position less the travel of 4 µs and the
latency, and less the guard.
Where the spec leaves it open this rests on the model's choices of log entries 1 and 22. -/
def Obligations.LinesFire : Prop :=
  (∀ (s : State) (b : Bar), s.dev.live 10 = true →
    (((s.dev.bar b).issued.find? fun i => !i.fired && decide (nearEdge i.fireAt ≤ s.dev.now)) = none →
      exec (.fireInstant b) s = .next (s.withDev (s.dev.setsIn b).hand)) ∧
    (∀ i, ((s.dev.bar b).issued.find? fun i => !i.fired && decide (nearEdge i.fireAt ≤ s.dev.now)) = some i → s.dev.mode ≠ .shadow →
      let prev := (s.dev.bar b).issued.find? fun x => x.fired
      let late := match prev with | some x => decide (s.dev.now < x.endAt) | none => false
      let d := match prev with | some x => s.dev.lineFired b x | none => s.dev
      let free := (d.noteCov b i).modBar b fun x => { x with car := x.car.filter fun t => t.pos ≠ i.pos }
      let up := free.stbRise b i.k late
      let fired := up.modBar b fun x => { x with issued := x.issued.map fun y =>
        if y.wire = i.wire then { y with fired := true, endAt := up.now + (up.get (F.LTC_BAR_STATUS_WIDTH_ACT b) * 10 + if late then 10 else 0) } else y }
      exec (.fireInstant b) s = .next (s.withDev (((((fired.modeFired b i.wire).spansAt b i.wire).lineReaches b i.pos).commitDue b).setsIn b).hand)) ∧
    (∀ (k : Nat) (late : Bool), s.dev.toSafe = false → ∀ n ∈ s.dev.stbOf b, s.dev.bit ⟨Reg.LTC_STB_STATUS, n.val, 1⟩ = false →
      (s.dev.stbRise b k late).stb[n] = (if late then { high := false, riseAt := some (s.dev.now + 10), line := k }
        else { high := true, rose := s.dev.now, line := k })) ∧
    (s.dev.toSafe = true → ∀ (k : Nat) (late : Bool), s.dev.stbRise b k late = s.dev) ∧
    (((s.dev.bar b).issued.find? fun i => i.fired && decide (i.endAt ≤ s.dev.now)) = none → exec (.strobeEnd b) s = .next s) ∧
    (∀ i, ((s.dev.bar b).issued.find? fun i => i.fired && decide (i.endAt ≤ s.dev.now)) = some i →
      exec (.strobeEnd b) s = .next (s.withDev ((s.dev.lineFired b i).checkPassed b)) ∧
      (s.dev.lineFired b i).rd (Reg.LTC_BAR_LINE b) = BitVec.ofNat 32 i.k ∧
      ((s.dev.lineFired b i).bar b).issued = (s.dev.bar b).issued.filter (fun x => x.wire ≠ i.wire) ∧
      (s.dev.lineFired b i).dpx.fired[b] = i.wire ∧ (s.dev.lineFired b i).pos = s.dev.pos ∧
      (let counts (f : Fld) (n : Nat) : Prop := (s.dev.lineFired b i).get f = min (2 ^ f.w - 1) (s.dev.get f + n)
       counts (F.SCR_BAR_STARVED_LINES b) i.empty.toNat ∧ counts (F.JOB_BAR_POISON_LINES b) (if i.bad = 1 then 1 else 0) ∧
       counts (F.CDC_BAR_BAD_LINES b) (if i.bad = 2 then 1 else 0) ∧ counts (F.NOZ_BAR_SPREADS_DOTS b) i.placed ∧
       counts (F.NOZ_BAR_LOST_DOTS b) i.lost))) ∧
  ((∀ (d : Dev) (b : Fin 12) (k : Nat),
    d.now + 4000 ≤ d.fireTime b k ∧
    ((d.bar b).heldAt ≠ none ∨ (d.bar b).moved = true → d.fireTime b k = d.now + 4000) ∧
    ((d.bar b).heldAt = none → (d.bar b).moved = false → (d.bar b).inc ≠ 0 → d.descending = false →
      d.fireTime b k = d.now + max 4000 (roundDiv ((k * lineOne - (d.bar b).count) * 10) (d.bar b).inc).toNat)) ∧
  (∀ (d : Dev) (f pitch : Nat),
    let lead := travel8 (d.get F.POS_SPEED_SPEED) (4000 + d.latency d.src) + d.get F.LTC_GATE_GUARD * pitch / 64
    d.gateAt f pitch = if d.descending then decide (diff56 d.hwm8 f ≤ lead) else decide (-lead ≤ diff56 d.hwm8 f)))

/-- BUOY, LINE_GATED and ROW_B_FIRE_ISSUE (R62 to R66, R215). A start buoy of the same cycle drops an ordinary one.
Where the spec leaves it open this rests on the model's choices of log entries 1 and 24. -/
def Obligations.BuoysAndGatedLines : Prop :=
  ∀ (s : State) (b : Bar), s.dev.live 10 = true →
    (s.entryWaits = true ∨ s.dev.clocksRun = false ∨ s.dev.buoyDue b = false ∨ s.dev.boundaryDue b = true → exec (.buoy b) s = .next s) ∧
    (∀ e c enc, s.entryWaits = false → s.dev.clocksRun = true → s.dev.buoyDue b = true → s.dev.boundaryDue b = false → s.dev.curEntry b = some (e, c) → s.dev.encLine b e c = some enc →
      let err := enc * 2 ^ 16 - (s.dev.bar b).count
      let d := ((s.dev.add (F.LTC_BAR_BUOYS_COUNT b) 1).regCheck b err).setRate b e
      exec (.buoy b) s = .next (s.withDev (d.modBar b fun x =>
        { x with corr := (if d.buoySpan b = none then 0 else clampI (-(2 ^ 28)) (2 ^ 28) err), corrN := (d.buoySpan b).getD 0,
                 lastBuoy := s.dev.now, cross := false }))) ∧
    (∀ err : Int,
      let excess := decide ((s.dev.get F.LTC_REG_LIMIT : Int) * 2 ^ 26 < err.natAbs)
      let d := s.dev.regCheck b err
      (excess = false → d.raised = s.dev.raised ∧ d.sys = s.dev.sys ∧ d.bit (F.LTC_BAR_STATUS_REGF b) = false) ∧
      (excess = true → d.bit (F.LTC_BAR_STATUS_REGF b) = true ∧
        (s.dev.printing = false → d.raised = s.dev.raised ∧ d.sys = s.dev.sys) ∧
        (s.dev.printing = true → s.dev.bit F.LTC_REG_ACTION = false → d.sys = s.dev.sys) ∧
        (s.dev.printing = true → s.dev.bit F.LTC_REG_ACTION = true → s.dev.sys.trans = none →
          d.sys = { s.dev.sys with trans := some { dest := .hold, cause := 0x02, host := false, at_ := s.dev.now } }))) ∧
    (∀ t p e, (s.dev.bar b).heldAt = some t → s.dev.dueLine b = some (p, e) → s.dev.clocksRun = true → s.dev.held b = true →
      t + 1000000 ≤ s.dev.now → (s.dev.bar b).gatedEvt = false →
      exec (.lineGated b) s = .next (s.withDev ((s.dev.modBar b fun x => { x with gatedEvt := true }).raise Ev.LINE_GATED b.val none
        [b.val, s.dev.kOf p]))) ∧
    (s.dev.held b = false ∨ (s.dev.bar b).gatedEvt = true → exec (.lineGated b) s = .next s) ∧
    ((s.dev.bar b).rowB = [] → exec (.rowBFireIssue b) s = .next s) ∧
    (∀ r rest, (s.dev.bar b).rowB = r :: rest → s.dev.modeIn [.print, .shuttle, .hold] = true → r.fireAt ≤ s.dev.now + 4000 →
      s.dev.gateAt r.f (s.dev.get (F.LTC_BAR_PITCH_ACT_PITCH b)) = true →
      exec (.rowBFireIssue b) s = .next (s.withDev ((s.dev.sendFire b 1 r.wire (s.dev.now + 4000)).modBar b fun x => { x with rowB := rest })))

/-- STROBE_CUT, STB_CUT_CLEAR, OFFSET_WRITE and CMP_POOL_WRITE (R2, R71, R79, R80, R81, R87). A CUT bit set in the cycle of its clear stays set.
Where the spec leaves it open this rests on the model's choices of log entry 1. -/
def Obligations.StrobeOutputsAndOffsets : Prop :=
  ∀ s : State,
    (s.dev.live 10 = true → ∀ n : Fin 8,
      (s.dev.stb[n].high = false ∨ s.dev.now < s.dev.stb[n].rose + s.dev.stbWdogNs n → exec (.strobeCut n) s = .next s) ∧
      (s.dev.stb[n].high = true → s.dev.stb[n].rose + s.dev.stbWdogNs n ≤ s.dev.now → ∃ t, exec (.strobeCut n) s = .next t ∧
        t.dev.stb[n].high = false ∧ (∀ m : Fin 8, m ≠ n → t.dev.stb[m] = s.dev.stb[m]) ∧
        t.dev.rd Reg.LTC_STB_STATUS = (⟨Reg.LTC_STB_STATUS, n.val, 1⟩ : Fld).into (s.dev.rd Reg.LTC_STB_STATUS) 1 ∧
        t.dev.get (F.LTC_STB_CUTS_COUNT n) = min (2 ^ (F.LTC_STB_CUTS_COUNT n).w - 1) (s.dev.get (F.LTC_STB_CUTS_COUNT n) + 1) ∧
        t.dev.raised = s.dev.raised ++ [s.dev.event Ev.STROBE_CUT ((s.dev.effRd (Reg.LTC_STB_CFG n)).toNat / 2 ^ 16 % 16) none [n.val, s.dev.stb[n].line]] ∧
        t.dev.sys = s.dev.sys ∧ t.dev.bars = s.dev.bars)) ∧
    (s.dev.reaches 6 = true →
      (∀ m : Word, ∃ t, exec (.stbCutClear m) s = .next t ∧ t = s.withDev { s.dev with regs := t.dev.regs, shadow := t.dev.shadow } ∧
        ∀ a, t.dev.rd a = s.dev.wordAfter [(Reg.LTC_STB_STATUS, s.dev.rd Reg.LTC_STB_STATUS &&& ~~~(m &&&
          ~~~(s.dev.rd Reg.LTC_STB_STATUS &&& ~~~(Sparse.get resetWord s.dev.was Reg.LTC_STB_STATUS))))] a) ∧
      (∀ (b : Bar) (desc : Bool) (v : Word),
        let a := if desc then Reg.LTC_BAR_OFFSET_D b else Reg.LTC_BAR_OFFSET b
        (s.dev.modeIn [.idle, .calibrate] = true → v.toNat ≤ 4000000000 → ∃ t, exec (.offsetWrite b desc v) s = .next t ∧ s.gives t [(a, v)]) ∧
        (s.dev.modeIn [.idle, .calibrate] = false ∨ 4000000000 < v.toNat → exec (.offsetWrite b desc v) s =
          .next (s.withDev (s.dev.raise Ev.LTC_SET_REFUSED 15 none [b.val, 0, a % 0x100000])))) ∧
      (∀ (i : Fin 16384) (hi : Word), s.dev.poolInUse i.val = false → ∃ t, exec (.cmpPoolWrite i hi) s = .next t ∧
        t.dev.rd (Reg.LTC_CMP_POOL_HI i.val) = hi ∧
        t.dev.poolEntry i.val = (hi.getLsbD 31, hi.getLsbD 30, (s.dev.rd (Reg.LTC_CMP_POOL_LO i.val)).toNat + hi.toNat % 2 ^ 16 * 2 ^ 32)) ∧
      (∀ (i : Fin 16384) (hi : Word), s.dev.poolInUse i.val = true → ∃ t, exec (.cmpPoolWrite i hi) s = .next t ∧
        t.dev.poolEntry i.val = s.dev.poolEntry i.val ∧ t.dev.raised.length = s.dev.raised.length + 1))

/-- CMP_CROSSING and CMP_PULSE_END (R77, R82 to R85): in the modes that evaluate, the crossed entries of a list, and those still owed of a list that has
been switched, make one pulse, which goes where TARGET says; a pulse ends with its ball at the inactive level.
Where the spec leaves it open this rests on the model's choices of log entry 1. -/
def Obligations.CompareChannels : Prop :=
  ∀ (s : State) (n : Fin 32), s.dev.live 10 = true →
    (s.dev.cmpRuns = false → exec (.cmpCrossing n) s = .next s) ∧
    (s.dev.cmpRuns = true → s.dev.denDriven n = false → s.dev.lampDriven n = false →
      let seen (c : Cmp) : Cmp := { c with x := s.dev.cmpX n, owed := 0 }
      (s.dev.cmpMode n = 0 ∨ s.dev.cmpDue n (s.dev.cmpX n) = false → s.dev.cmp[n].owed = 0 →
        exec (.cmpCrossing n) s = .next (s.withDev (s.dev.modCmp n seen))) ∧
      (s.dev.cmpMode n = 0 ∨ s.dev.cmpDue n (s.dev.cmpX n) = false → s.dev.cmp[n].owed ≠ 0 → s.dev.cmpTarget n = 0 →
        exec (.cmpCrossing n) s = .next (s.withDev ((s.dev.modCmp n seen).cmpPulse n s.dev.cmp[n].owed))) ∧
      (s.dev.cmpMode n = 1 → s.dev.cmpTarget n = 0 → s.dev.cmpDue n (s.dev.cmpX n) = true →
        s.dev.cmpNext n (s.dev.get (F.LTC_CMP_PTR_PTR n)) s.dev.cmp[n].pass = none →
        exec (.cmpCrossing n) s = .next (s.withDev
          ((((s.dev.setB (F.LTC_CMP_STATUS_DONE n) true).raise Ev.CMP_LIST_DONE 15 none [n.val]).modCmp n seen).cmpPulse n (1 + s.dev.cmp[n].owed)))) ∧
      (s.dev.cmpMode n ≠ 0 → s.dev.cmpDue n (s.dev.cmpX n) = true → ∃ t, exec (.cmpCrossing n) s = .next t ∧
        t.dev.cmp[n].x = s.dev.cmpX n ∧ t.dev.cmp[n].owed = 0 ∧ t.dev.cmp[n].pulse = some (s.dev.now + 10 + s.dev.cmpWidthNs n))) ∧
    (∀ (d : Dev) (k : Nat), d.cmp[n].pulse = none → (d.cmpPulse n k).cmp[n].pulse = some (d.now + 10 + d.cmpWidthNs n) ∧
      (d.cmpPulse n k).get (F.LTC_CMP_COUNT_PULSES n) = (d.get (F.LTC_CMP_COUNT_PULSES n) + 1) % 2 ^ (F.LTC_CMP_COUNT_PULSES n).w ∧
      (d.cmpPulse n k).raised = d.raised) ∧
    (s.dev.cmp[n].pulse = none → exec (.cmpPulseEnd n) s = .next s) ∧
    (∀ t, s.dev.cmp[n].pulse = some t → s.dev.now < t → exec (.cmpPulseEnd n) s = .next s) ∧
    (∀ t, s.dev.cmp[n].pulse = some t → t ≤ s.dev.now →
      let d := s.dev.modCmp n fun c => { c with pulse := none }
      exec (.cmpPulseEnd n) s = .next (s.withDev (if s.dev.cmpTarget n = 1 && s.dev.mode != .shadow then
        { d with sent := d.sent ++ [.pin 1 (s.dev.effGet (F.LTC_CMP_CFG_PIN n)) (s.dev.bit (F.LTC_CMP_CFG_POL n) != false)] } else d)))
/-! ### Jobs and the block code (spec/04_jobs.md, spec/05_block_code.md) -/

/-- The host's commands of the job block (R95, R97, R100, R106, R336): the ring in IDLE, the tail, BREAK, which counts a copy that starts in its own
cycle, and the restart of an ingest channel. Where the spec leaves it open this rests on the model's choice of log entry 60. -/
def Obligations.JobHostWrites : Prop :=
  ∀ s : State, s.dev.reaches 7 = true →
    (s.dev.mode = .idle → ∃ t, exec .schedReset s = .next t ∧
      s.gives t [(Reg.JOB_SCHED_HEAD, 0), (Reg.JOB_SCHED_TAIL, 0), (Reg.JOB_SCHED_SEQ, 0)] fun d =>
        { d with job := { d.job with headSeq := 0, used := [] } }) ∧
    (s.dev.mode ≠ .idle → exec .schedReset s = .next s) ∧
    (s.dev.mode = .shadow → exec .schedBreak s = .next s ∧ ∀ v, exec (.schedTailWrite v) s = .next s) ∧
    (s.dev.mode ≠ .shadow → ∀ v : Word, ∃ t, exec (.schedTailWrite v) s = .next t ∧
      s.gives t [(Reg.JOB_SCHED_TAIL, F.JOB_SCHED_TAIL_INDEX.into (s.dev.rd Reg.JOB_SCHED_TAIL) v.toNat)]) ∧
    (s.dev.mode ≠ .shadow → (∀ b : Bar, (s.dev.bar b).started = none) → s.startsWaiting = [] →
      exec .schedBreak s = .next (s.withDev s.dev.refindLines)) ∧
    (∀ (seq c : Nat) (e : Entry), s.dev.mode ≠ .shadow → ((∃ b : Bar, (s.dev.bar b).started = some (seq, c)) ∨ (seq, c) ∈ s.startsWaiting) →
      (∀ (x : Bar) (y : Nat × Nat), (s.dev.bar x).started = some y → y.1 < seq ∨ y.1 = seq ∧ y.2 ≤ c) →
      (∀ y ∈ s.startsWaiting, y.1 < seq ∨ y.1 = seq ∧ y.2 ≤ c) → s.dev.entry seq = some e →
      (e.rep ≠ 0 ∧ e.rep ≤ c + 1 → exec .schedBreak s = .next (s.withDev s.dev.refindLines)) ∧
      (e.rep = 0 ∨ c + 1 < e.rep → s.dev.job.final.isSome = true → s.dev.printing = false →
        exec .schedBreak s = .next (s.withDev (Dev.refindLines { s.dev with job := { s.dev.job with
          entries := fixAnchors none (s.dev.job.entries.map fun x =>
            if x.seq = seq then { x with rep := c + 1 } else if seq < x.seq ∧ x.anchor ≠ 1 then { x with j0 := none } else x) } })))) ∧
    (∀ (c : Port) (v : Word), ∃ t, exec (.ingestRestart c v) s = .next t ∧ t = s.withDev { s.dev with regs := t.dev.regs } ∧
      t.dev.get (F.JOB_ING_CTL_EN c) = 1 ∧ t.dev.get (F.JOB_ING_CTL_VEC c) = (F.JOB_ING_CTL_VEC c).of v ∧
      t.dev.get (F.JOB_ING_CTL_TMO c) = (F.JOB_ING_CTL_TMO c).of v ∧ t.dev.get (F.JOB_ING_STATUS_STOPPED c) = 0 ∧
      t.dev.get (F.JOB_ING_STATUS_ERR c) = s.dev.get (F.JOB_ING_STATUS_ERR c) ∧
      t.dev.get (F.JOB_ING_STATUS_RUN c) = s.dev.get (F.JOB_ING_STATUS_RUN c) ∧
      ∀ a, a ≠ Reg.JOB_ING_CTL c → a ≠ Reg.JOB_ING_STATUS c → t.dev.rd a = s.dev.rd a)

/-- Ingest (R105, R106, R130): an enabled channel with a descriptor waiting starts it, a copy writes its whole units to the job store, completion
reports to host memory and moves HEAD, a failure or a timeout stops the channel with its error and one DMA_ERROR; a completion in the cycle of a
timeout wins. Where the spec leaves it open this rests on the model's choices of log entries 1 and 27. -/
def Obligations.IngestChannels : Prop :=
  ∀ (s : State) (c : Port),
    let size := s.dev.ingSize c
    let head := s.dev.get (F.JOB_ING_HEAD_INDEX c) % size
    let own := s.dev.job.ing[c].orphan
    let waits := s.dev.bit (F.JOB_ING_CTL_EN c) && !s.dev.bit (F.JOB_ING_STATUS_STOPPED c) && head ≠ s.dev.get (F.JOB_ING_TAIL_INDEX c) % size
    let ready := s.dev.ingestRuns && !s.dev.unitHeld c.val && (own.isSome || waits) && s.dev.job.ing[c].desc.isNone && s.dev.bit F.HST_STATUS_BME
    ([2, 4, 6, 7].all s.dev.live = true → ∀ (ds : List Nat) (data : List (BitVec 8)),
      let run := if own.isSome then s.dev else s.dev.set (F.JOB_ING_STATUS_RUN c) 1
      (ready = false → exec (.ingestDescriptorStart c ds data) s = .next s) ∧
      (ready = true → run.ingError ds ≠ 0 → exec (.ingestDescriptorStart c ds data) s = .next (s.withDev
        (run.modIng c fun _ => { desc := some ds, start := s.dev.now, out := 0, bad := run.ingError ds, orphan := own }))) ∧
      (ready = true → run.ingError ds = 0 → bits (ingWord ds 5) 28 2 = 0 →
        let n := min (ingWord ds 4) (data.length / 64 * 64)
        exec (.ingestDescriptorStart c ds data) s = .next (s.withDev
          ((run.storeData (ingWord ds 2 + ingWord ds 3 % 8 * 2 ^ 32) (data.take n)).modIng c fun _ =>
            { desc := some ds, start := s.dev.now, out := n, bad := if n < ingWord ds 4 then 3 else 0, orphan := own })))) ∧
    (s.dev.live 2 = true →
      let at_ := own.getD
        ((s.dev.effRd (Reg.JOB_ING_BASE_LO c)).toNat + (s.dev.effRd (Reg.JOB_ING_BASE_HI c)).toNat * 2 ^ 32 + 64 * head)
      let stat (done : Bool) (err : Nat) : Sent := .host (at_ + 0x20)
        (bytesLE 4 (done.toNat * 2 ^ 31 + err * 2 ^ 24) ++ bytesLE 4 (s.dev.job.ing[c].out % 2 ^ 32))
      let late := own.isNone && decide (s.dev.get (F.JOB_ING_CTL_TMO c) ≠ 0) &&
        decide (s.dev.job.ing[c].start + s.dev.get (F.JOB_ING_CTL_TMO c) * 1000 ≤ s.dev.now)
      (s.dev.job.ing[c].desc = none → exec (.ingestDescriptorDone c) s = .next s ∧ exec (.dmaTimeout c) s = .next s) ∧
      (late = false → exec (.dmaTimeout c) s = .next s) ∧
      (.ingestDescriptorDone c ∈ s.pending → exec (.dmaTimeout c) s = .next s) ∧
      (∀ ds, s.dev.job.ing[c].desc = some ds → own = none → s.dev.job.ing[c].bad = 0 → ∃ t, exec (.ingestDescriptorDone c) s = .next t ∧
        t.dev.sent = s.dev.sent ++ [stat true 0] ∧ t.dev.get (F.JOB_ING_HEAD_INDEX c) = (head + 1) % size % 2 ^ (F.JOB_ING_HEAD_INDEX c).w ∧
        t.dev.job = { s.dev.job with ing := s.dev.job.ing.set c {} } ∧ t.dev.raised = s.dev.raised ∧
        t.dev.sigs = (if (ingWord ds 5).testBit 31 then s.dev.sigs ++ [s.dev.get (F.JOB_ING_CTL_VEC c)] else s.dev.sigs)) ∧
      (∀ ds, s.dev.job.ing[c].desc = some ds → own = none → s.dev.job.ing[c].bad ≠ 0 → s.dev.job.ing[c].bad < 8 →
        ∃ t, exec (.ingestDescriptorDone c) s = .next t ∧
        t.dev.sent = s.dev.sent ++ [stat false s.dev.job.ing[c].bad] ∧ t.dev.get (F.JOB_ING_STATUS_ERR c) = s.dev.job.ing[c].bad ∧
        t.dev.get (F.JOB_ING_STATUS_STOPPED c) = 1 ∧ t.dev.get (F.JOB_ING_STATUS_RUN c) = 0 ∧ t.dev.sigs = s.dev.sigs ∧
        (∀ a, a ≠ Reg.JOB_ING_STATUS c → t.dev.rd a = s.dev.rd a) ∧
        t.dev.raised = s.dev.raised ++ [s.dev.event Ev.DMA_ERROR 15 none [c.val, head, s.dev.job.ing[c].bad]]) ∧
      (∀ ds, s.dev.job.ing[c].desc = some ds → own.isSome = true → exec (.ingestDescriptorDone c) s = .next (s.withDev
        (if s.dev.job.ing[c].bad = 0 then (s.dev.emit (stat true 0)).modIng c fun _ => {}
         else ((s.dev.emit (stat false s.dev.job.ing[c].bad)).modIng c fun _ => {}).raise Ev.DMA_ERROR 15 none
           [c.val, head, s.dev.job.ing[c].bad]))) ∧
      (∀ ds, s.dev.job.ing[c].desc = some ds → late = true → .ingestDescriptorDone c ∉ s.pending → ∃ t, exec (.dmaTimeout c) s = .next t ∧
        t.dev.get (F.JOB_ING_STATUS_ERR c) = 4 ∧ t.dev.get (F.JOB_ING_STATUS_STOPPED c) = 1 ∧ t.dev.get (F.JOB_ING_STATUS_RUN c) = 0 ∧
        (∀ a, a ≠ Reg.JOB_ING_STATUS c → t.dev.rd a = s.dev.rd a) ∧
        t.dev.sent = s.dev.sent ++ [stat false 4] ∧ t.dev.raised = s.dev.raised ++
          [s.dev.event Ev.DMA_TIMEOUT 15 none [c.val, head, 4], s.dev.event Ev.DMA_ERROR 15 none [c.val, head, 4]]))

/-- SCHED_FETCH and JOB_BOUNDARY (R94, R95, R98, R99, R101): when the engine fetches (a write of TAIL in its cycle comes first), what an underrun, a failing and a passing entry leave, and when a bar
goes on to its next copy.
The check of an entry (R103): it passes exactly where its pitch, width, stride, place, bars, budget, anchor and lines all do, and a failure names the
first of them that does not.
Where the spec leaves it open this rests on the model's choices of log entries 1 and 24. -/
def Obligations.ScheduleWalk : Prop :=
  (∀ s : State,
    (s.dev.live 4 = true → s.dev.live 5 = true →
      let d := match s.tailWaiting with
        | some v => s.dev.tailWrite v
        | none => s.dev
      (d.fetchDue = false → exec .schedFetch s = .next (s.withDev d.hand)) ∧
      (∀ e : Entry, d.fetchDue = true → d.job.entries.getLast? = some e →
        let seq := e.seq + 1
        let stop (x : Dev) : Dev := { x with job := { x.job with final := some e.seq } }
        let short := decide (d.job.headSeq + d.schedLeft ≤ seq)
        (short = true → exec .schedFetch s = .next (s.withDev
          ((stop (d.raise Ev.SCHED_UNDERRUN 15 none [15, e.seq])).recheckEnd.findAllLines.hand))) ∧
        (∀ c, short = false → d.judge d.job.checked seq = .error c → exec .schedFetch s = .next (s.withDev
          ((stop ((d.checkFail seq c).raise Ev.SCHED_ENTRY_BAD 15 none [15, seq, c])).recheckEnd.findAllLines.hand))) ∧
        (∀ n, short = false → d.judge d.job.checked seq = .ok n → exec .schedFetch s = .next (s.withDev
          ((Dev.schedRecord { d with job := { d.job with
              entries := fixAnchors none (d.job.entries ++ [n]), checked := addJob d.job.checked n.desc,
              nextSeq := seq + 1, used := d.job.used ++ [(seq, n.job)], final := if n.last then some seq else none } }
            seq).recheckEnd.findAllLines.hand))))) ∧
    (s.dev.live 5 = true → ∀ b : Bar,
      (s.dev.curEntry b = none ∨ s.dev.modeIn [.print, .shadow] = false ∨ s.dev.bit F.JOB_SCHED_CFG_MODE = true →
        exec (.jobBoundary b) s = .next (s.withDev s.dev.hand)) ∧
      (∀ e c, s.dev.curEntry b = some (e, c) → s.dev.modeIn [.print, .shadow] = true → s.dev.bit F.JOB_SCHED_CFG_MODE = false →
        (∀ q m n, s.dev.nextCopy b e.seq c = some (q, m) → s.dev.entry q = some n →
          (s.dev.overlapped b e c (n, m) = none →
            (s.dev.copyOver b e c = false → exec (.jobBoundary b) s = .next (s.withDev s.dev.hand)) ∧
            (s.dev.copyOver b e c = true → exec (.jobBoundary b) s = .next (s.withDev (s.dev.takeCopy b n.seq m).hand))) ∧
          (∀ i, s.dev.overlapped b e c (n, m) = some i → (s.dev.truncate b e c i).copyOver b e c = false →
            exec (.jobBoundary b) s = .next (s.withDev (s.dev.truncate b e c i).hand))) ∧
        (s.dev.nextCopy b e.seq c = none → s.dev.copyOver b e c = true → e.has b c = true →
          exec (.jobBoundary b) s = .next (s.withDev s.dev.hand)) ∧
        (s.dev.nextCopy b e.seq c = none → s.dev.copyOver b e c = true → e.has b c = false →
          exec (.jobBoundary b) s = .next (s.withDev (s.dev.copyPassed b e.seq c).hand))))) ∧
  (∀ (d : Dev) (before : List JobDesc) (e : Entry),
    let j := e.desc
    let wide := j.width = 0 ∨ ∃ b : Bar, j.has b = true ∧ d.configured b = true ∧ d.nozzles b < j.width
    let outside := d.cap < j.base + j.bars.length * j.nrows * j.stride
    let odd := 2 ≤ e.anchor ∨ (if d.bit F.JOB_SCHED_CFG_MODE then e.anchor ≠ 1 ∨ e.rep ≠ 1 else e.dir = 1)
    let absent := ∃ b : Bar, j.has b = true ∧ d.available b = false
    (d.checkEntry before e = 0 ↔ 0x7D000 ≤ e.pitch ∧ ¬ wide ∧ j.strideOk = true ∧ ¬ outside ∧ ¬ absent ∧
      d.overBudget (before ++ [j]) = false ∧ ¬ odd ∧ j.lines ≠ 0) ∧
    (d.checkEntry before e = 2 ↔ e.pitch < 0x7D000) ∧
    (d.checkEntry before e = 3 ↔ 0x7D000 ≤ e.pitch ∧ wide) ∧
    (d.checkEntry before e = 4 ↔ 0x7D000 ≤ e.pitch ∧ ¬ wide ∧ j.strideOk = false) ∧
    (d.checkEntry before e = 5 ↔ 0x7D000 ≤ e.pitch ∧ ¬ wide ∧ j.strideOk = true ∧ outside) ∧
    (d.checkEntry before e = 6 ↔ 0x7D000 ≤ e.pitch ∧ ¬ wide ∧ j.strideOk = true ∧ ¬ outside ∧ absent) ∧
    (d.checkEntry before e = 7 ↔ 0x7D000 ≤ e.pitch ∧ ¬ wide ∧ j.strideOk = true ∧ ¬ outside ∧ ¬ absent ∧ d.overBudget (before ++ [j]) = true) ∧
    (d.checkEntry before e = 8 ↔ 0x7D000 ≤ e.pitch ∧ ¬ wide ∧ j.strideOk = true ∧ ¬ outside ∧ ¬ absent ∧
      d.overBudget (before ++ [j]) = false ∧ odd) ∧
    (d.checkEntry before e = 9 ↔ 0x7D000 ≤ e.pitch ∧ ¬ wide ∧ j.strideOk = true ∧ ¬ outside ∧ ¬ absent ∧
      d.overBudget (before ++ [j]) = false ∧ ¬ odd ∧ j.lines = 0))

/-- BLOCK_ROW_DECODE (R131, R132): a row that the bar's next line needs or that comes next goes into decode staging, decoded, or failed with its code
recorded and reported, or poisoned and reported; any other row changes nothing.
Where the spec leaves it open this rests on the model's choices of log entries 1 and 27. -/
def Obligations.BlockRowsDecode : Prop :=
  ∀ (s : State) (b : Bar) (row : Nat), [4, 5, 6, 7].all s.dev.live = true →
    (s.dev.screens = false ∨ s.dev.nextScr b = none → exec (.blockRowDecode b row) s = .next s) ∧
    (∀ p e, s.dev.screens = true → s.dev.nextScr b = some p → s.dev.entry p.seq = some e →
      let w := srcWidth e.desc
      let a := e.desc.plane b + row * e.desc.stride
      let slot := s.dev.bytes a e.desc.stride
      let bad := s.dev.poisonedIn a (max 1 (rowExtent slot e.desc.stride (blocksOf w) (blocksOf w + 1) 0 0))
      let wanted := e.desc.cls = 0 ∧ p.copy % 2 = 0 ∧ (s.dev.rowsWanted b e p).contains row = true ∧ s.dev.stagedRow b p row = none
      (¬ wanted → exec (.blockRowDecode b row) s = .next s) ∧
      (∀ blks, wanted → bad = false → decRow slot e.desc.stride w = .ok blks → ∃ t, exec (.blockRowDecode b row) s = .next t ∧
        t = s.withDev { s.dev with bars := t.dev.bars } ∧ (∀ x : Bar, x ≠ b → t.dev.bar x = s.dev.bar x) ∧
        (t.dev.bar b).staging.getLast? = some { seq := p.seq, copy := p.copy, row := row, lines := some (blockLines w blks) }) ∧
      (wanted → bad = true → ∃ t, exec (.blockRowDecode b row) s = .next t ∧
        t = s.withDev { s.dev with bars := t.dev.bars, coal := t.dev.coal } ∧ (∀ x : Bar, x ≠ b → t.dev.bar x = s.dev.bar x) ∧
        (t.dev.bar b).staging.getLast? = some { seq := p.seq, copy := p.copy, row := row, lines := none, poison := true }) ∧
      (∀ c, wanted → bad = false → decRow slot e.desc.stride w = .error c → c < 16 → ∃ t, exec (.blockRowDecode b row) s = .next t ∧
        t.dev.get F.CDC_ERR_LAST_CODE = c ∧ t.dev.get F.CDC_ERR_LAST_BAR = b.val ∧ t.dev.rd Reg.CDC_ERR_ROW = BitVec.ofNat 32 row ∧
        t.dev.rd Reg.CDC_ERR_SEQ = BitVec.ofNat 32 p.seq ∧ t.dev.raised = s.dev.raised ∧
        (t.dev.bar b).staging.getLast? = some { seq := p.seq, copy := p.copy, row := row, lines := none }))

/-- A block row encoded at ratio 0 decodes to the source lines it was made of, at every width, for every setting of the encoder (R119 to R123, R128,
R131). -/
def Obligations.RawRowsSurvive : Prop :=
  ∀ (fillEn split : Bool) (w space : Nat) (lines : List (List Nat)), 0 < w → w ≤ 122880 → lines.length = 4 →
    (∀ l ∈ lines, l.length = w ∧ ∀ v ∈ l, v < 256) → maxRowBytes (blocksOf w) 0 ≤ space →
    let r := encRow 0 fillEn split w space lines
    r.whole = true ∧ r.blocks = blocksOf w ∧ r.bytes.length = maxRowBytes (blocksOf w) 0 ∧
    (decRow (r.bytes ++ List.replicate (space - r.bytes.length) 0) space w).map (blockLines w) = .ok lines

/-! ### Screening (spec/06_screening.md) -/

/-- The arithmetic of the pipeline (R90, R138, R139, R141, R143, R146): a tone of 0 stays 0, gain saturates, a threshold of 0xFFF is never exceeded, error
diffusion gives one level of 0 to 3 for each position and begins each span anew, and packed levels unpack to themselves.
The arithmetic of an update (R274, R277, R278): a deviation within 16 bits, a gain within its limits and within a step of the old one, and the old
gain where there is no deviation. -/
def Obligations.ScreeningAndDensityArithmetic : Prop :=
  ((∀ tofs : Int, toned 0 tofs = 0) ∧
  (∀ (t : Nat) (tofs : Int), t ≠ 0 → (toned t tofs : Int) = max 0 (min 1023 (t + tofs))) ∧
  (∀ t g : Nat, gained t g ≤ 1023 ∧ (t ≤ 1023 → gained t 128 = t)) ∧
  (∀ x t0 t1 t2 : Nat, x ≤ 1023 → threshold x 0xFFF 0xFFF 0xFFF = 0 ∧ threshold 0 t0 t1 t2 = 0 ∧ threshold x t0 t1 t2 ≤ 3 ∧
    threshold x t0 t1 t2 = threshold x t2 t0 t1) ∧
  (∀ (p : EdP) (b k : Nat) (xs : List Nat) (ein : List Int),
    (edLine p b k xs ein).1.length = xs.length ∧ (edLine p b k xs ein).2.length = xs.length ∧ (∀ q ∈ (edLine p b k xs ein).1, q ≤ 3) ∧
    (∀ j x : Nat, xs[j]? = some x → j % 480 = 0 → (edLine p b k xs ein).1[j]? =
      some (edLevel p (x + ein.getD j 0 + noiseOf (lfsrStep (noiseSeed b (j / 480) k)) p.namp)))) ∧
  (∀ b s k : Nat, b < 12 → s < 256 → noiseSeed b s k ≠ 0 ∧ noiseSeed b s k < 2 ^ 32) ∧
  (∀ st : Nat, st ≠ 0 → st < 2 ^ 32 → lfsrStep st ≠ 0 ∧ lfsrStep st < 2 ^ 32) ∧
  (∀ l : List Nat, (∀ q ∈ l, q < 4) → (unpackLevels (packLevels l)).take l.length = l)) ∧
  ((∀ (w : List Nat) (means : List (List Nat)) (mu : List Nat) (x : Nat),
    -32767 ≤ deviation w means mu x ∧ deviation w means mu x ≤ 32767) ∧
  (∀ (w mu : List Nat) (m x : Nat), (∀ r < 3, mu.getD r 0 = m) → deviation w (List.replicate 3 (List.replicate (x + 1) m)) mu x = 0) ∧
  (∀ (g dstep gmin gmax : Nat) (e : Int), gmin ≤ gmax →
    let n := (newGain g e dstep gmin gmax).1
    gmin ≤ n ∧ n ≤ gmax ∧ (gmin ≤ g → g ≤ gmax → g ≤ n + dstep ∧ n ≤ g + dstep) ∧
    (0 < e → gmin ≤ g → g ≤ gmax → n ≤ g) ∧ (e < 0 → gmin ≤ g → g ≤ gmax → g ≤ n)) ∧
  (∀ g dstep gmin gmax : Nat, gmin ≤ g → g ≤ gmax → newGain g 0 dstep gmin gmax = (g, false)) ∧
  (∀ (e : Nat → Int) (x : Int) (lo hi : Nat) (a b : Int), lo ≤ hi → (∀ c, lo ≤ c → c ≤ hi → a ≤ e c ∧ e c ≤ b) →
    a ≤ nozzleDev e x lo hi ∧ nozzleDev e x lo hi ≤ b))

/-- SCREEN_LINE, CHECKPOINT_COPY, REPLAY_LINE and GAIN_LOAD (R140, R150 to R153): the array works for the bar that it serves, and for no other.
MATRIX_WRITE (R142): the pair of a cell acts at its high word; a busy matrix keeps its cell and reports the write; a selector that names no bar
reaches nothing.
Where the spec leaves it open this rests on the model's choices of log entries 1, 25 and 26. -/
def Obligations.ScreeningArray : Prop :=
  (∀ (s : State) (b : Bar),
    ((s.dev.halves b).all s.dev.live = true →
      ((∀ c, s.dev.served ≠ some (b, c)) →
        exec (.screenLine b) s = .next s ∧ exec (.checkpointCopy b) s = .next s ∧ exec (.replayLine b) s = .next s) ∧
      (∀ c p e, s.dev.served = some (b, c) → c = 2 ∨ c = 4 → s.dev.canScreen b = some p → s.dev.entry p.seq = some e →
        exec (.screenLine b) s = .next (s.withDev (s.dev.screenLine b p e))) ∧
      (∀ p, s.dev.served = some (b, 1) → (s.dev.bar b).scr = some p → ∃ t, exec (.checkpointCopy b) s = .next t ∧
        t.dev.bars = (s.dev.modBar b fun x =>
          { x with com := x.work, comPos := some p, paused := false, kept := x.kept.filter fun k => !k.pos.le p }).bars ∧
        s.gives t [(Reg.SCR_BAR_CKPT b, (F.SCR_BAR_CKPT_LINE b).into (s.dev.rd (Reg.SCR_BAR_CKPT b)) (s.dev.kOf p))]
          fun d => { d with bars := t.dev.bars }) ∧
      (∀ l r, s.dev.served = some (b, 3) → (s.dev.bar b).replay = l :: r → ∃ t, exec (.replayLine b) s = .next t ∧
        (t.dev.bar b).replay = r ∧ (t.dev.bar b).car = (s.dev.bar b).car ∧ (∀ x : Bar, x ≠ b → t.dev.bar x = s.dev.bar x) ∧
        (let row := if l.reset then [] else (s.dev.bar b).work
         (t.dev.bar b).work = match l.x with | some x => (edLine l.p b l.k x row).2 | none => row) ∧
        (r = [] → (t.dev.bar b).replaying = false ∧ (t.dev.bar b).com = (t.dev.bar b).work ∧ (t.dev.bar b).comPos = some l.pos ∧
          t.dev.get (F.SCR_BAR_CKPT_LINE b) = l.k % 2 ^ 32) ∧
        (r ≠ [] → (t.dev.bar b).com = (s.dev.bar b).com ∧ (t.dev.bar b).replaying = (s.dev.bar b).replaying))) ∧
    ((4 :: s.dev.halves b).all s.dev.live = true →
      (s.dev.screens = false ∨ (s.dev.bar b).replaying = true ∨ s.dev.nextScr b = none → exec (.gainLoad b) s = .next s) ∧
      (∀ p e, s.dev.screens = true → (s.dev.bar b).replaying = false → s.dev.nextScr b = some p → s.dev.entry p.seq = some e →
        let due : Option (LinePos × Nat) := match (s.dev.bar b).gainNext.find? fun x => x.2.isNone with
          | some x => some (x.1, s.dev.getAt b (F.SCR_BAR_CFG_GAIN_BANK b) x.1)
          | none => (s.dev.gainNeeded b e p).bind fun g => if (s.dev.gainFor b p).map (·.1) = some g then none else some (p, g)
        (due = none → exec (.gainLoad b) s = .next s) ∧
        (∀ q g, due = some (q, g) → ∃ t, exec (.gainLoad b) s = .next t ∧
          let base := s.dev.gainBase + (2 * b.val + g) * 122880
          let bad (u : Nat) : Bool := s.dev.poisonedAt (base + 64 * u) || decide (s.dev.cap < base + 64 * u + 64)
          let table := (g, (List.range 1920).flatMap fun u =>
            if bad u then List.replicate 64 128 else (s.dev.bytes (base + 64 * u) 64).map (·.toNat))
          t = s.withDev { s.dev with bars := t.dev.bars, raised := t.dev.raised } ∧
          t.dev.bars = (s.dev.modBar b fun x =>
            if x.gainNext.any fun y => y.1.le q then
              { x with gainNext := (x.gainNext.filter fun y => y.1.lt q) ++ [(q, some table)] ++ x.gainNext.filter fun y => q.lt y.1 }
            else { x with gain := some table }).bars ∧
          t.dev.raised = s.dev.raised ++ ((List.range 1920).filter bad).map fun u =>
            s.dev.event Ev.GAIN_POISON b.val none [b.val, q.seq, s.dev.kOf q, g, 64 * u])))) ∧
  (∀ (s : State) (x y : Fin 128) (hi : Word), s.dev.reaches 9 = true →
    (12 ≤ s.dev.get F.SCR_MAT_SEL_BAR → exec (.matrixWrite x y hi) s = .next s) ∧
    (∀ b : Bar, s.dev.get F.SCR_MAT_SEL_BAR = b.val →
      let m := s.dev.get F.SCR_MAT_SEL_MAT
      let a := Reg.SCR_MAT_LO (2 * b.val + m) (128 * y.val + x.val)
      (s.dev.matBusy b m = true → ∃ t, exec (.matrixWrite x y hi) s = .next t ∧
        s.gives t [(a, s.dev.effRd a)] fun d => d.raise Ev.SCR_WRITE_REFUSED b.val none [b.val, 0, 0, m]) ∧
      (s.dev.matBusy b m = false → ∃ t, exec (.matrixWrite x y hi) s = .next t ∧
        s.gives t [(a + 4, BitVec.ofNat 32 (hi.toNat % 2 ^ 12))] fun d => d.effWr a (d.rd a))))

/-- The counter clears (R134, R157, R176, R266, R285, R303, R330, R350, R365, R400, R420): the counters a CNT_CLR names take 0, but for what this
cycle has added, and nothing else changes. That a clear and an increment of one cycle leave the increment is the model's choice of log entry 60. -/
def Obligations.CountersClear : Prop :=
  ∀ s : State,
    let bars (f : Bar → List Fld) : List Fld := (List.finRange 12).flatMap f
    (s.dev.reaches 2 = true →
      (s.dev.rd Reg.THM_PEAK = Sparse.get resetWord s.dev.was Reg.THM_PEAK → ∃ t, exec .peakClr s = .next t ∧ s.gives t [(Reg.THM_PEAK, 0)]) ∧
      (s.dev.rd Reg.THM_PEAK ≠ Sparse.get resetWord s.dev.was Reg.THM_PEAK → exec .peakClr s = .next s)) ∧
    (s.dev.reaches 3 = true → ∃ t, exec .prsCntClr s = .next t ∧ s.countersClear t [F.PRS_CNT_CE, F.PRS_CNT_UE]) ∧
    (s.dev.reaches 8 = true → ∃ t, exec .cdcCntClr s = .next t ∧ s.countersClear t (bars fun b => [F.CDC_BAR_BAD_LINES b])) ∧
    (s.dev.reaches 9 = true → ∃ t, exec .scrCntClr s = .next t ∧ s.countersClear t
      (bars fun b => [F.SCR_BAR_ROLLBACK_LINES b, F.SCR_BAR_ROLLBACK_COUNT b, F.SCR_BAR_STARVED_LINES b])) ∧
    (s.dev.reaches 10 = true → ∃ t, exec .nozCntClr s = .next t ∧ s.countersClear t
      (bars fun b => [F.NOZ_BAR_LOST_DOTS b, F.NOZ_BAR_SPREADS_DOTS b])) ∧
    (s.dev.reaches 12 = true → ∃ t, exec .visCntClr s = .next t ∧ s.countersClear t
      ([F.VIS_STAT_STATUS_LOST, F.VIS_STAT_STATUS_RECORDS] ++ (List.finRange 4).flatMap fun (n : Port) =>
        [F.VIS_CAM_ERR0_SHORT n, F.VIS_CAM_ERR0_LONG n, F.VIS_CAM_ERR1_CRCERR n, F.VIS_CAM_ERR1_TMO n, F.VIS_CAM_EXCESS_LINES n,
         F.VIS_CAM_DROP_FRAMES n, F.VIS_VS_STATUS_DROP n, F.VIS_VS_STATUS_FRAMES n])) ∧
    (s.dev.reaches 13 = true → ∃ t, exec .denCntClr s = .next t ∧ s.countersClear t
      (bars fun b => [F.DEN_BAR_COUNT_SKIPS b, F.DEN_BAR_COUNT_UPDATES b, F.DEN_BAR_BANDS_BAD b, F.DEN_BAR_BANDS_BANDS b])) ∧
    (s.dev.reaches 14 = true → ∃ t, exec .lmpCntClr s = .next t ∧ s.countersClear t
      ([F.LMP_LATCH_LATE, F.LMP_LATCH_MERGED] ++ (List.range 16).flatMap fun m => [F.LMP_MOD_ERR_CRC m, F.LMP_MOD_ERR_MISS m])) ∧
    (s.dev.reaches 15 = true → ∃ t, exec .drcCntClr s = .next t ∧ s.countersClear t
      (F.DRC_POISON_UNITS :: (List.range 2).flatMap fun i =>
        [F.DRC_DI_CE_COUNT i, F.DRC_DI_UE_COUNT i, F.DRC_DI_REF_INSERTED i, F.DRC_DI_REF_HOTPAY i, F.DRC_DI_RHT_COUNT i])
      ((List.range 2).map fun i => F.DRC_DI_REF_DEBT_MAX i) ∧
      ∀ i < 2, t.dev.get (F.DRC_DI_REF_DEBT_MAX i) =
        if s.dev.began (F.DRC_DI_REF_DEBT_MAX i) < s.dev.get (F.DRC_DI_REF_DEBT_MAX i) then s.dev.get (F.DRC_DI_REF_DEBT_MAX i) else 0) ∧
    (s.dev.reaches 16 = true → ∃ t, exec .dpxCntClr s = .next t ∧ s.countersClear t
      ([F.DPX_HB_MISSED, F.DPX_TAKE_COUNT] ++
        bars fun b => [F.DPX_BAR_MATCH_LINES b, F.DPX_BAR_MISM_CONFIRMED b, F.DPX_BAR_MISM_SELF b])) ∧
    (s.dev.reaches 17 = true → ∃ t, exec .ptpCntClr s = .next t ∧ s.countersClear t [F.PTP_RXDROP_COUNT])

/-! ### Rows and nozzles (spec/07_rows_and_nozzles.md) -/

/-- OUT_BANK_WRITE, OVT_RELEASE, OVT_CLR, NOZ_HEAD_ACT_WRITE, LIFE_PERSIST and LIFE_SAVE (R166, R170, R172, R174); a bit that
sets in the cycle of a release wins, and a head whose record already waits to be written is queued no second time.
Where the spec leaves it open this rests on the model's choices of log entries 1, 20, 59 and 60. -/
def Obligations.NozzleCommands : Prop :=
  ∀ s : State,
    (s.dev.reaches 10 = true → ∀ (b : Bar) (bank : Fin 2),
      let len := if bank = 0 then Reg.NOZ_BAR_OUTN0 b else Reg.NOZ_BAR_OUTN1 b
      let other := s.dev.effGet (F.NOZ_BAR_CFG_OUT_BANK b) ≠ bank.val
      let overrides (w : State) : List MaskEntry := overrideDiff (s.dev.bankOverrides b bank) (w.dev.bankOverrides b bank)
      let send (w : State) : State := w.withDev (w.dev.sendMask b (w.dev.lineSoon b 1000) (overrides w))
      (∀ (i : Fin 4096) (v : Word),
        (s.dev.mode = .shadow → exec (.outBankWrite b bank (some i) v) s = .next s) ∧
        (s.dev.mode ≠ .shadow → s.dev.outBusy b bank = true → exec (.outBankWrite b bank (some i) v) s =
          .next (s.withDev (s.dev.raise Ev.NOZ_WRITE_REFUSED b.val none [b.val, 0, 0x4000 + 4 * i.val]))) ∧
        (s.dev.mode ≠ .shadow → s.dev.outBusy b bank = false → s.dev.role ≠ 1 → ∃ w t, exec (.outBankWrite b bank (some i) v) s = .next t ∧
          s.gives w [(Reg.NOZ_OUT_WIN (2 * b.val + bank.val) i, v)] ∧ (other → t = w) ∧ (¬ other → t = send w))) ∧
      (∀ v : Word,
        (s.dev.outBusy b bank = true → exec (.outBankWrite b bank none v) s =
          .next (s.withDev (s.dev.raise Ev.NOZ_WRITE_REFUSED b.val none [b.val, 0, len % 0x100000]))) ∧
        (s.dev.outBusy b bank = false → s.dev.role ≠ 1 → ∃ w t, exec (.outBankWrite b bank none v) s = .next t ∧
          s.gives w [(len, BitVec.ofNat 32 (v.toNat % 2 ^ 13))] ∧ (other → t = w) ∧ (¬ other → t = send w)))) ∧
    (s.dev.live 6 = true → ∀ h : Fin 1024,
      (s.dev.head h.val = none ∨ s.dev.get F.NOZ_CFG_OVT_REL = 0 ∨ s.dev.sendsMask = false → exec (.ovtRelease h) s = .next s) ∧
      (∀ x t, s.dev.head h.val = some x → x.clearAt = some t → s.dev.get F.NOZ_CFG_OVT_REL ≠ 0 → s.dev.sendsMask = true →
        x.inhibit = true → x.ovt = false →
        (x.setsIn s.waiting.hot = true ∨ s.dev.now < t + s.dev.get F.NOZ_CFG_OVT_REL * 1000000 → exec (.ovtRelease h) s = .next s) ∧
        (x.setsIn s.waiting.hot = false → t + s.dev.get F.NOZ_CFG_OVT_REL * 1000000 ≤ s.dev.now → exec (.ovtRelease h) s = .next (s.withDev (s.dev.headCool h.val))))) ∧
    (s.dev.reaches 10 = true →
      let holds (y : HeadSt) : Prop := y.inhibit = false ∨ y.ovt = true ∨ y.setsIn s.waiting.hot = true
      ((∀ x ∈ s.dev.noz.heads, holds x) ∨ s.dev.sendsMask = false → exec .ovtClr s = .next s) ∧
      (∀ pre x post, s.dev.noz.heads = pre ++ x :: post → (∀ y ∈ pre ++ post, holds y) → ¬ holds x → s.dev.sendsMask = true → exec .ovtClr s = .next (s.withDev (s.dev.headCool x.img.h)))) ∧
    (s.dev.reaches 10 = true → ∀ hi : Word,
      let h := s.dev.get F.NOZ_HEAD_SEL_HEAD
      (s.dev.mode = .idle → s.dev.head h = none → exec (.nozHeadActWrite hi) s = .next s) ∧
      (s.dev.mode ≠ .idle → s.dev.head h = none → exec (.nozHeadActWrite hi) s = .next (s.withDev
        (s.dev.raise Ev.NOZ_WRITE_REFUSED 15 none [15 + h * 2 ^ 16, 0, Reg.NOZ_HEAD_ACT_HI % 0x100000]))) ∧
      (∀ x, s.dev.head h = some x →
        (s.dev.mode = .idle → exec (.nozHeadActWrite hi) s = .next (s.withDev (s.dev.modHead h fun y =>
          { y with ctr := (s.dev.rd Reg.NOZ_HEAD_ACT_LO).toNat + hi.toNat % 2 ^ 16 * 2 ^ 32 }))) ∧
        (s.dev.mode ≠ .idle → exec (.nozHeadActWrite hi) s = .next (s.withDev
          (s.dev.raise Ev.NOZ_WRITE_REFUSED x.img.bar none [x.img.bar + h * 2 ^ 16, 0, Reg.NOZ_HEAD_ACT_HI % 0x100000]))))) ∧
    (s.dev.live 6 = true →
      (s.dev.now < s.dev.noz.lastPersist + 1800000000000 → exec .lifePersist s = .next s) ∧
      (s.dev.noz.lastPersist + 1800000000000 ≤ s.dev.now → exec .lifePersist s = .next (s.withDev
        ((Dev.saveHeads { s.dev with noz := { s.dev.noz with lastPersist := s.dev.now } } 0).hoursSave)))) ∧
    (s.dev.reaches 10 = true → ((∀ x ∈ s.dev.noz.heads, x.ctr = x.saved) → exec .lifeSave s = .next s) ∧
      (∀ pre x post, s.dev.noz.heads = pre ++ x :: post → (∀ y ∈ pre ++ post, y.ctr = y.saved) → x.ctr ≠ x.saved →
        (∀ u, x.savedAt = some u → u ≤ s.dev.now) →
        ((∃ w ∈ s.dev.prsQ, w.1 = 0x802 + 4 * x.img.h ∨ w.1 = 0x803 + 4 * x.img.h) → exec .lifeSave s = .next s) ∧
        ((∀ w ∈ s.dev.prsQ, w.1 ≠ 0x802 + 4 * x.img.h ∧ w.1 ≠ 0x803 + 4 * x.img.h) → exec .lifeSave s = .next (s.withDev { s.dev with
          prsQ := s.dev.prsQ ++ [(0x802 + 4 * x.img.h, BitVec.ofNat 32 x.ctr),
            (0x803 + 4 * x.img.h, BitVec.ofNat 32 (x.model * 2 ^ 16 + x.ctr / 2 ^ 32))] }))))
/-! ### Zixlink lanes (spec/08_zixlink_lanes.md) -/

/-- The commands of bring-up (R182 to R187, R200): each acts in its own state only, a pass no sooner than the device's own
sets and blocks take; what a pass, a failure and a limit lead to, a limit giving way to a pass of its cycle (R188).
What entering a state and a failed bring-up leave (R182, R183): the code and the state that failed, a retry from DETECT, and FAILED with its event
after the configured number of failures in succession.
Where the spec leaves it open this rests on the model's choices of log entries 1, 60 and 64. -/
def Obligations.LaneBringUp : Prop :=
  (∀ (s : State) (n : Lane), s.dev.live (laneDom n) = true →
    let d := s.dev
    let st := d.laneSt n
    let mir := decide (16 ≤ n.val)
    let early (ns : Nat) : Prop := d.now < (d.lane n).entered + ns
    let met := s.pending.any (Instr.endsState d n)
    (∀ hops : Nat,
      (st ≠ 1 ∨ early 65536 → exec (.ringClosed n hops) s = .next s) ∧
      (st = 1 → ¬ early 65536 → mir = true → exec (.ringClosed n hops) s = .next (s.withDev ((d.set (F.ZXL_LANE_STATUS_RATE n) 2).setLane n 4))) ∧
      (st = 1 → ¬ early 65536 → mir = false → 64 < hops → exec (.ringClosed n hops) s = .next (s.withDev (d.laneFail n 0x11))) ∧
      (st = 1 → ¬ early 65536 → mir = false → hops ≤ 64 → exec (.ringClosed n hops) s =
        .next (s.withDev ((d.set (F.ZXL_LANE_STATUS_ENDPOINTS n) hops).setLane n 2)))) ∧
    (∀ r : BaseResult,
      let agree := r.hops = d.get (F.ZXL_LANE_STATUS_ENDPOINTS n) ∧ r.hops = d.get (F.ZXL_LANE_CFG_EP_EXPECT n)
      (st ≠ 2 → exec (.basePassed n r) s = .next s) ∧
      (st = 2 → r.err = true → exec (.basePassed n r) s = .next (s.withDev (d.laneFail n 0x20))) ∧
      (st = 2 → r.err = false → ¬ agree → exec (.basePassed n r) s = .next (s.withDev (d.laneFail n 0x21))) ∧
      (st = 2 → r.err = false → agree → early 1000000 → exec (.basePassed n r) s = .next s) ∧
      (st = 2 → r.err = false → agree → ¬ early 1000000 → exec (.basePassed n r) s = .next (s.withDev (d.setLane n 3)))) ∧
    (∀ c : Caps,
      let caps := (((d.set (F.ZXL_LANE_CAPS_VER n) c.ver).set (F.ZXL_LANE_CAPS_LPM n) c.lpm).set (F.ZXL_LANE_CAPS_RATES n) c.rates).set
        (F.ZXL_LANE_STATUS_LPM_OK n) c.lpm
      let may (r : Nat) := c.rates.val.testBit r = true ∧ r ≤ (d.lane n).rateMax ∧ r ≤ (d.lane n).cap
      (st ≠ 3 → exec (.negotiateDone n c) s = .next s) ∧
      (st = 3 → c.ver.val < d.get (F.ZXL_LANE_CFG_VER_MIN n) → exec (.negotiateDone n c) s = .next (s.withDev (caps.laneFail n 0x31))) ∧
      (∀ r : Nat, st = 3 → d.get (F.ZXL_LANE_CFG_VER_MIN n) ≤ c.ver.val → r ∈ [1, 2, 3] → may r → (∀ x ∈ [1, 2, 3], r < x → ¬ may x) →
        exec (.negotiateDone n c) s = .next (s.withDev ((caps.set (F.ZXL_LANE_STATUS_RATE n) r).setLane n 4))) ∧
      (st = 3 → d.get (F.ZXL_LANE_CFG_VER_MIN n) ≤ c.ver.val → (∀ r ∈ [1, 2, 3], ¬ may r) →
        exec (.negotiateDone n c) s = .next (s.withDev (if (d.pieces n).isEmpty then (caps.set (F.ZXL_LANE_STATUS_RATE n) 0).setLane n 5
          else (caps.set (F.ZXL_LANE_STATUS_RATE n) 0).laneFail n 0x30)))) ∧
    (∀ r : Adapted,
      (st ≠ 4 → exec (.stepDone n r) s = .next s) ∧
      (st = 4 → r.code ≠ 0 → exec (.stepDone n r) s = .next (s.withDev (d.laneFail n (laneCode 4 r.code)))) ∧
      (st = 4 → r.code = 0 → early 16384 → exec (.stepDone n r) s = .next s) ∧
      (st = 4 → r.code = 0 → ¬ early 16384 →
        let e := d.modLane n fun l => { l with eqEvt := false, coefs := [], acc := [] }
        (d.get (F.ZXL_LANE_EQ_MODE n) = 2 → exec (.stepDone n r) s = .next (s.withDev (e.setLane n 5))) ∧
        (d.get (F.ZXL_LANE_EQ_MODE n) ≠ 2 → exec (.stepDone n r) s = .next (s.withDev
          ((((e.set (F.ZXL_LANE_EQ_CTLE n) r.ctle).set (F.ZXL_LANE_EQ_SAT n) 0).setTaps n r.taps).setLane n 5))))) ∧
    (∀ code : Nat,
      (st ≠ 5 → exec (.alignPassed n code) s = .next s) ∧
      (st = 5 → code ≠ 0 → exec (.alignPassed n code) s = .next (s.withDev (d.laneFail n (laneCode 5 code)))) ∧
      (st = 5 → code = 0 → early 10000000 → exec (.alignPassed n code) s = .next s) ∧
      (st = 5 → code = 0 → ¬ early 10000000 → exec (.alignPassed n code) s = .next (s.withDev (d.laneUp n true))) ∧
      (st = 0 ∨ 5 < st ∨ early (laneLimit st) ∨ met = true → exec (.laneStateTimeout n code) s = .next s) ∧
      (1 ≤ st → st ≤ 5 → ¬ early (laneLimit st) → met = false →
        exec (.laneStateTimeout n code) s = .next (s.withDev (d.laneFail n (laneCode st code)))))) ∧
  (∀ (d : Dev) (n : Lane),
    (∀ st : Nat, st < 16 → n.val < 16 →
      let e := d.setLane n st
      e.laneSt n = st ∧ (e.rd Reg.ZXL_STATUS).getLsbD n.val = decide (st = 6) ∧ (e.lane n).entered = d.now ∧
      (∀ m : Lane, m ≠ n → e.lane m = d.lane m ∧ e.laneSt m = d.laneSt m) ∧ e.raised = d.raised ∧
      ∀ a, a ≠ Reg.ZXL_LANE_STATUS n → a ≠ Reg.ZXL_STATUS → e.rd a = d.rd a) ∧
    (∀ code : Nat, code < 256 → n.val < 16 →
      let e := d.laneFail n code
      let last := decide (max 1 (d.get F.ZXL_CFG_RETRIES) ≤ (d.lane n).fails + 1)
      e.get (F.ZXL_LANE_STATUS_FAILCODE n) = code ∧ e.get (F.ZXL_LANE_STATUS_LAST_FAIL n) = d.laneSt n ∧
      (e.lane n).fails = (d.lane n).fails + 1 ∧
      e.get (F.ZXL_LANE_ERR_RETRIES n) = min (2 ^ (F.ZXL_LANE_ERR_RETRIES n).w - 1) (d.get (F.ZXL_LANE_ERR_RETRIES n) + 1) ∧
      (last = true → e.laneSt n = 10 ∧
        e.raised = d.raised ++ [d.event Ev.LANE_FAILED 15 none [n.val, 10 + code * 2 ^ 8]] ∧ (e.lane n).nonce = (d.lane n).nonce) ∧
      (last = false → e.laneSt n = 1 ∧ e.raised = d.raised ∧ (e.lane n).nonce = Config.freeValue d.fresh % 2 ^ 16) ∧
      ∀ m : Lane, m ≠ n → e.lane m = d.lane m))

/-- The commands of a lane in use (R189, R191, R193 to R196, R201): loss of lock and recovery, the equaliser, the eye, the low-power states, RETRAIN; with a
lock loss of its cycle a request is refused with STATE (R190).
Where the spec leaves it open this rests on the model's choices of log entries 1, 38, 39, 60 and 64. -/
def Obligations.LaneUpkeep : Prop :=
  ∀ (s : State) (n : Lane),
    let d := s.dev
    let l := d.lane n
    let st := d.laneSt n
    let met := s.pending.any (Instr.endsState d n)
    let lost := (st = 6 ∧ n ∈ s.waiting.losses) ∨ (st = 7 ∧ l.entered = d.now)
    let refused (reason : Nat) : Dev := d.raise Ev.LANE_REQ_REFUSED 15 none [n.val, st + reason * 2 ^ 8]
    (d.live (laneDom n) = true →
      (∀ k : Nat,
        let limit := if d.get (F.ZXL_LANE_STATUS_RATE n) = 0 then 4 else 16
        let counted := d.addSat (F.ZXL_LANE_ERR_SYMBOL n) k
        (st ≠ 6 → exec (.lockLoss n k) s = .next s) ∧
        (st = 6 → k < limit → exec (.lockLoss n k) s = .next (s.withDev counted)) ∧
        (st = 6 → limit ≤ k → exec (.lockLoss n k) s = .next (s.withDev (counted.laneDown n)))) ∧
      (st ≠ 7 → exec (.recoverDone n) s = .next s ∧ exec (.recoverTimeout n) s = .next s ∧ exec (.recoverDarkEnd n) s = .next s) ∧
      (st = 7 → l.dark = false → exec (.recoverDarkEnd n) s = .next s ∧
        (l.entered + 100000 ≤ d.now → d.now ≤ l.entered + 1000000 → exec (.recoverDone n) s = .next (s.withDev (d.laneUp n false))) ∧
        (d.now < l.entered + 100000 ∨ l.entered + 1000000 < d.now → exec (.recoverDone n) s = .next s) ∧
        (d.now < l.entered + 1000000 ∨ met = true → exec (.recoverTimeout n) s = .next s) ∧
        (l.entered + 1000000 ≤ d.now → met = false →
          exec (.recoverTimeout n) s = .next (s.withDev (d.modLane n fun l => { l with dark := true, entered := d.now })))) ∧
      (st = 7 → l.dark = true → exec (.recoverDone n) s = .next s ∧ exec (.recoverTimeout n) s = .next s ∧
        (d.now < l.entered + 2000000 → exec (.recoverDarkEnd n) s = .next s) ∧
        (l.entered + 2000000 ≤ d.now → exec (.recoverDarkEnd n) s = .next (s.withDev (d.laneFail n 0x70)))) ∧
      (∀ gs : List Int,
        let due := st = 6 ∧ d.get (F.ZXL_LANE_EQ_MODE n) = 0 ∧ s.pending.any (writesEq n) = false ∧ l.modeAt ≠ some d.now ∧
          l.lmsAt + blocksTime (d.get (F.ZXL_LANE_STATUS_RATE n)) ≤ d.now
        let step (i : Nat) : Int :=
          let v := (d.taps n).getD i 0
          let fine := l.acc.getD i (v * 2 ^ 13)
          (if fine / 2 ^ 13 = v then fine else v * 2 ^ 13) + gs.getD i 0 * 2 ^ (7 - d.get (F.ZXL_LANE_EQ_MU n))
        let acc := (List.range 8).map fun i =>
          if i = 0 then max (-64 * 2 ^ 13) (min (63 * 2 ^ 13) (step i)) else max (-32 * 2 ^ 13) (min (31 * 2 ^ 13) (step i))
        (due → exec (.lmsUpdate n gs) s = .next (s.withDev
          ((d.modLane n fun l => { l with acc := acc, lmsAt := d.now }).setTaps n (acc.map (· / 2 ^ 13))))) ∧
        (¬ due → exec (.lmsUpdate n gs) s = .next s)) ∧
      (∀ h v : Nat, (l.margin = none ∨ st ≠ 6 → exec (.marginDone n h v) s = .next s) ∧
        (∀ x, l.margin = some x → d.now < x + 50000000 → exec (.marginDone n h v) s = .next s) ∧
        (∀ x, l.margin = some x → st = 6 → x + 50000000 ≤ d.now → ∃ t, exec (.marginDone n h v) s = .next t ∧
          t.dev.get (F.ZXL_LANE_MARGIN_H n) = h % 2 ^ (F.ZXL_LANE_MARGIN_H n).w ∧
          t.dev.get (F.ZXL_LANE_MARGIN_V n) = v % 2 ^ (F.ZXL_LANE_MARGIN_V n).w ∧ (t.dev.lane n).margin = none)) ∧
      (l.exit = none → exec (.lpmExitDone n) s = .next s) ∧
      (∀ t, l.exit = some t →
        let least := if st = 9 then 160000 else 2000
        (d.now < t + least → exec (.lpmExitDone n) s = .next s) ∧
        (st = 9 → t + 2000000 < d.now → exec (.lpmExitDone n) s = .next (s.withDev (d.laneFail n 0x90))) ∧
        (t + least ≤ d.now → st ≠ 9 ∨ d.now ≤ t + 2000000 → exec (.lpmExitDone n) s = .next (s.withDev
          (((d.putCoefs n l.dark2).modLane n fun l => { l with dark2 := none }).laneUp n false)))) ∧
      (let due := d.get F.ZXL_LPM_L1_MS ≠ 0 ∧ d.mode = .idle ∧ d.sys.trans = none ∧ st = 6 ∧
         (d.get (F.ZXL_LANE_STATUS_LPM_OK n)).testBit 0 = true ∧ d.laneTraffic n = false ∧
         l.idleAt + d.get F.ZXL_LPM_L1_MS * 1000000 ≤ d.now
       (due → exec (.l1IdleTimer n) s = .next (s.withDev (d.lowPower n false))) ∧ (¬ due → exec (.l1IdleTimer n) s = .next s)) ∧
      (let due := d.get F.ZXL_LPM_L2_S ≠ 0 ∧ d.mode = .idle ∧ st = 8 ∧ l.exit = none ∧
         (d.get (F.ZXL_LANE_STATUS_LPM_OK n)).testBit 1 = true ∧ l.entered + d.get F.ZXL_LPM_L2_S * 1000000000 ≤ d.now
       (due → exec (.l2Timer n) s = .next (s.withDev (d.lowPower n true))) ∧ (¬ due → exec (.l2Timer n) s = .next s))) ∧
    (d.reaches 11 = true →
      (st ≠ 6 ∨ lost → exec (.margin n) s = .next (s.withDev (refused 3))) ∧
      (st = 6 → ¬ lost → exec (.margin n) s = .next (s.withDev (d.modLane n fun l => { l with margin := some d.now }))) ∧
      (∀ two : Bool,
        let calm := s.waiting.leaves = false ∧ d.mode = .idle ∧ d.sys.trans = none
        let can := (d.get (F.ZXL_LANE_STATUS_LPM_OK n)).testBit two.toNat
        let goes (o : Host.Outcome State Fault Refusal) : Prop :=
          (lost → o = .next (s.withDev (refused 3))) ∧
          (¬ lost → ¬ calm → o = .next (s.withDev (refused 1))) ∧
          (¬ lost → calm → can = false → o = .next (s.withDev (refused 2))) ∧
          (¬ lost → calm → can = true → st ≠ 6 → o = .next (s.withDev (refused 3))) ∧
          (¬ lost → calm → can = true → st = 6 → d.laneTraffic n = true → o = .next (s.withDev (d.modLane n fun l =>
            if two then { l with wantL2 := true } else { l with wantL1 := true }))) ∧
          (¬ lost → calm → can = true → st = 6 → d.laneTraffic n = false → o = .next (s.withDev
            ((d.setLane n (if two then 9 else 8)).modLane n fun l =>
              { l with wantL1 := false, wantL2 := false, exit := none,
                       dark2 := if two then some (d.rd (Reg.ZXL_LANE_EQ n), d.rd (Reg.ZXL_LANE_DFE0 n), d.rd (Reg.ZXL_LANE_DFE1 n))
                         else none })))
        (two = false → goes (exec (.l1Enter n) s)) ∧ (two = true → goes (exec (.l2Enter n) s))) ∧
      (lost ∨ (st ≠ 8 ∧ st ≠ 9) → exec (.laneWake n) s = .next (s.withDev (refused 3))) ∧
      (st = 8 ∨ st = 9 → l.exit = none → exec (.laneWake n) s =
        .next (s.withDev (d.modLane n fun l => { l with exit := some d.now, wantL1 := false, wantL2 := false }))) ∧
      (st = 8 ∨ st = 9 → l.exit.isSome = true → exec (.laneWake n) s = .next s) ∧
      (lost → exec (.retrain n) s = .next (s.withDev (refused 3))) ∧
      (¬ lost → d.modeIn [.idle, .calibrate] = false → exec (.retrain n) s = .next (s.withDev (refused 1))) ∧
      (¬ lost → d.modeIn [.idle, .calibrate] = true → st = 11 → exec (.retrain n) s = .next (s.withDev (refused 3))) ∧
      (¬ lost → d.modeIn [.idle, .calibrate] = true → st ≠ 11 → d.unitHeld (0x30 + n.val) = true → exec (.retrain n) s = .next s) ∧
      (¬ lost → d.modeIn [.idle, .calibrate] = true → st ≠ 11 → d.unitHeld (0x30 + n.val) = false → exec (.retrain n) s = .next (s.withDev
        (((d.modLane n fun l => { l with fails := 0 }).set (F.ZXL_LANE_ERR_RETRIES n) 0).enterDetect n))) ∧
      (∀ v : Word,
        (d.get (F.ZXL_LANE_EQ_MODE n) ≠ 2 → exec (.eqWrite n 1 v) s = .next (s.withDev (refused 1)) ∧
          exec (.eqWrite n 2 v) s = .next (s.withDev (refused 1))) ∧
        (d.get (F.ZXL_LANE_EQ_MODE n) = 2 →
          (∀ w : Fin 2, exec (.eqWrite n ⟨w.val + 1, by omega⟩ v) s = .next (s.withDev (d.setTaps n ((List.range 8).map fun i =>
            if i / 4 = w.val then sext 8 (v.toNat / 2 ^ (8 * (i % 4))) else (d.taps n).getD i 0))))) ∧
        ∃ t, exec (.eqWrite n 0 v) s = .next t ∧ t = s.withDev { d with regs := t.dev.regs, raised := t.dev.raised, zxl := t.dev.zxl } ∧
            t.dev.get (F.ZXL_LANE_EQ_MODE n) = (F.ZXL_LANE_EQ_MODE n).of v ∧ t.dev.get (F.ZXL_LANE_EQ_MU n) = (F.ZXL_LANE_EQ_MU n).of v ∧
            t.dev.get (F.ZXL_LANE_EQ_CTLE n) =
              (if (F.ZXL_LANE_EQ_MODE n).of v = 2 then (F.ZXL_LANE_EQ_CTLE n).of v else d.get (F.ZXL_LANE_EQ_CTLE n)) ∧
            t.dev.raised = d.raised ++ (if (F.ZXL_LANE_EQ_MODE n).of v ≠ 2 ∧ (F.ZXL_LANE_EQ_CTLE n).of v ≠ d.get (F.ZXL_LANE_EQ_CTLE n) then
              [d.event Ev.LANE_REQ_REFUSED 15 none [n.val, st + 2 ^ 8]] else []) ∧
            (t.dev.lane n).modeAt = some d.now ∧ (∀ m : Lane, m ≠ n → t.dev.lane m = d.lane m) ∧
            ∀ a, a ≠ Reg.ZXL_LANE_EQ n → t.dev.rd a = d.rd a))
/-! ### The Zixlink protocol (spec/09_zixlink_protocol.md) -/

/-- LINE_FRAME_SEND, BEACON, STATUS_FRAME_SEND, STATUS_FRAME_RETURN, STATUS_FRAME_LOST, FAULT_WINDOW_CLOSE and FVEC_CLEAR (R212 to R214, R219,
R221, R223, R233): a line waits for one that fires sooner on a lane of its bar, and a window for the slots that return in its cycle.
Where the spec leaves it open this rests on the model's choices of log entries 1, 38, 53, 60, 63 and 64. -/
def Obligations.ZixlinkFrames : Prop :=
  ∀ s : State,
    let d := s.dev
    (d.live 8 = true → ∀ b : Bar,
      (d.modeIn [.ready, .hold, .print, .shuttle] = false ∨ d.unsent b = none ∨ (∃ x : Bar, x ≠ b ∧ d.sendsBefore x b = true) →
        exec (.lineFrameSend b) s = .next s) ∧
      (∀ x, d.modeIn [.ready, .hold, .print, .shuttle] = true → (∀ y : Bar, y ≠ b → d.sendsBefore y b = false) → d.unsent b = some x →
        ∃ t, exec (.lineFrameSend b) s = .next t ∧
        t = s.withDev { d with sent := t.dev.sent, bars := t.dev.bars, zxl := { d.zxl with lanes := t.dev.zxl.lanes } } ∧
        t.dev.sent = d.sent ++ (d.lanesOf b).flatMap (fun n => if d.active n = true ∧ d.get (F.ZXL_LANE_STATUS_RATE n) ≠ 0 then
          ((d.pieces n).filter fun p => p.bar = b.val).flatMap fun p => (fragments p.first p.count).map fun f =>
            Sent.line n b (d.wireOf b x.pos % 2 ^ 16) (d.maskPhase b x.pos) f.1 f.2 (fragLevels x.levels f) else []) ∧
        (∀ n : Lane, t.dev.lane n = { d.lane n with tx := (t.dev.lane n).tx }) ∧
        (∀ y : Bar, y ≠ b → t.dev.bar y = d.bar y) ∧
        ((t.dev.bar b).car.map fun c => (c.pos, c.levels, c.committed)) = ((d.bar b).car.map fun c => (c.pos, c.levels, c.committed)) ∧
        ∀ c ∈ (t.dev.bar b).car, c.pos = x.pos → c.sent = true)) ∧
    (∀ n : Lane, d.live (laneDom n) = true →
      let l := d.lane n
      (16 ≤ n.val ∨ d.active n = false → exec (.beacon n) s = .next s ∧ exec (.statusFrameSend n) s = .next s) ∧
      (d.now < l.beacAt + d.beaconGap l.beacAt → exec (.beacon n) s = .next s) ∧
      (n.val < 16 → d.active n = true → l.beacAt + d.beaconGap l.beacAt ≤ d.now → exec (.beacon n) s = .next (s.withDev
        (Dev.emitOn (d.modLane n fun l => { l with beacSeq := (l.beacSeq + 1) % 256, beacAt := d.now }) n
          (.beacon n (d.get F.ZXL_CLAIM_CLAIM) (d.modeIn [.safe, .shutdown]) l.beacSeq (d.time.sec % 2 ^ 16) d.time.ns)))) ∧
      (d.sendsStatus = false ∨ (∃ t, l.statStart = some t ∧ d.now < t + 50000) → exec (.statusFrameSend n) s = .next s) ∧
      (n.val < 16 → d.active n = true → d.sendsStatus = true → (∀ t, l.statStart = some t → t + 50000 ≤ d.now) →
        ∃ t, exec (.statusFrameSend n) s = .next t ∧
        t = s.withDev { d with zxl := t.dev.zxl, sent := d.sent ++ [.status n ((l.statSeq + 1) % 2 ^ 16) (d.get (F.ZXL_LANE_STATUS_ENDPOINTS n))] } ∧
        (t.dev.lane n).statSeq = (l.statSeq + 1) % 2 ^ 16 ∧ (t.dev.lane n).statAt = some d.now ∧ (t.dev.lane n).statStart = some d.now ∧
        (∀ u, l.statAt = some u → (t.dev.lane n).statOld = some (l.statSeq, u, d.now + 50000)) ∧
        (l.statAt = none → (t.dev.lane n).statOld = l.statOld) ∧ ∀ m : Lane, m ≠ n → t.dev.lane m = d.lane m) ∧
      (∀ seq u v, l.statOld = some (seq, u, v) →
        (d.now ≤ v → exec (.statusFrameLost n) s = .next s) ∧
        (v < d.now → exec (.statusFrameLost n) s =
          .next (s.withDev ((d.modLane n fun l => { l with statOld := none }).addSat F.ZXL_STAT_LOST_FRAMES 1)))) ∧
      (l.statOld = none → exec (.statusFrameLost n) s = .next s) ∧
      (∀ (seq : Nat) (ok : Bool) (slots : List (BitVec 64)),
        exec (.statusFrameReturn n seq ok slots) s = .next (s.withDev (d.statusIn n seq ok slots s.returnWaits))) ∧
      (∀ t (slots : List (BitVec 64)), l.statOld = none → l.statAt = some t →
        d.statusReturn n l.statSeq false slots = (d.modLane n fun l => { l with statAt := none, statOld := none }).addSat F.ZXL_STAT_LOST_FRAMES 1) ∧
      (∀ (seq : Nat) (ok : Bool) (slots : List (BitVec 64)), l.statOld = none → l.statSeq ≠ seq → d.statusReturn n seq ok slots = d)) ∧
    (d.live 8 = true →
      (d.now < d.zxl.winAt + 1000000 → exec .faultWindowClose s = .next s) ∧
      (d.zxl.winAt + 1000000 ≤ d.now → s.returnWaits = true → exec .faultWindowClose s =
        .next (s.withDev { d with zxl := { d.zxl with winDue := true } })) ∧
      (d.zxl.winAt + 1000000 ≤ d.now → s.returnWaits = false → ∃ t, exec .faultWindowClose s = .next t ∧
        t.dev.zxl = { d.zxl with prevWin := d.zxl.win, win := Vector.replicate 7 0, winAt := d.now, winDue := false } ∧
        (∀ (c : Fin 7) (i : Fin 32), t.dev.rd (Reg.ZXL_FVEC c.val i.val) =
          d.rd (Reg.ZXL_FVEC c.val i.val) ||| BitVec.ofNat 32 (d.zxl.win[c] / 2 ^ (32 * i.val))) ∧
        ((∀ c : Fin 7, d.zxl.win[c] = 0 ∧ d.zxl.prevWin[c] = 0) → t.dev.raised = d.raised))) ∧
    (d.reaches 11 = true → ∀ (w : Fin 32) (m : Word),
      (7 ≤ d.get F.ZXL_FSEL_CLASS → ∃ t, exec (.fvecClear w m) s = .next t ∧ t = s.withDev { d with shadow := t.dev.shadow }) ∧
      (d.get F.ZXL_FSEL_CLASS < 7 → ∃ t, exec (.fvecClear w m) s = .next t ∧
        let a := Reg.ZXL_FVEC (d.get F.ZXL_FSEL_CLASS) w.val
        let gone := m &&& ~~~(d.rd a &&& ~~~(Sparse.get resetWord d.was a))
        t = s.withDev { d with regs := t.dev.regs, shadow := t.dev.shadow } ∧ ∀ x, t.dev.rd x = d.wordAfter [(a, d.rd a &&& ~~~gone)] x))

/-- ECMD_READ, ECMD_WRITE, ECMD_BROADCAST_WRITE, RSP_RECEIVED and CMD_TIMEOUT (R196, R224, R233): one command at a time; it goes out under a new tag, a
correct response ends it, and without one it is sent three times more and then reported; the device's own commands likewise.
Where the spec leaves it open this rests on the model's choices of log entries 1, 38, 60 and 64. -/
def Obligations.EndpointCommands : Prop :=
  ∀ s : State,
    let d := s.dev
    (d.reaches 11 = true →
      (∀ (ep : Fin 1024) (reg : Fin 65536),
        (d.zxl.ecmd.isSome = true → exec (.ecmdRead ep reg) s = .next s ∧ exec (.ecmdWrite ep reg) s = .next s) ∧
        (d.mode = .shadow → exec (.ecmdWrite ep reg) s = .next s) ∧
        (let begun (op : Fin 2) (o : Host.Outcome State Fault Refusal) : Prop := ∃ t, o = .next t ∧
          t.dev.get F.ZXL_ECMD_OP = op.val + 1 ∧ t.dev.get F.ZXL_ECMD_EP = ep.val ∧ t.dev.get F.ZXL_ECMD_REG = reg.val ∧
          t.dev.get F.ZXL_ESTAT_RESULT = 1 ∧ t.dev.get F.ZXL_ESTAT_CODE = 0 ∧ t.dev.zxl.tag = (d.zxl.tag + 1) % 256 ∧
          t.dev.rd Reg.ZXL_EDATA = d.rd Reg.ZXL_EDATA ∧ t.dev.raised = d.raised ∧
          let n := laneOf (ep.val / 64)
          let low := d.laneSt n = 8 ∨ d.laneSt n = 9
          let ws := if op = 0 then [] else [(d.rd Reg.ZXL_EDATA).toNat]
          let leaves := (d.laneSt n = 6 ∨ low) ∧ (d.sendsCmd = true ∨ (d.mode = .shadow ∧ op = 0))
          t.dev.zxl.ecmd = some { lane := ep.val / 64, ep := ep.val, op := op.val + 1, reg := reg.val, data := (d.rd Reg.ZXL_EDATA).toNat,
                                  at_ := d.now, tries := 0, waiting := decide low, tag := (d.zxl.tag + 1) % 256, words := ws } ∧
          (leaves → t.dev.sent = d.sent ++ [.cmd (ep.val / 64) false ep.val ((d.zxl.tag + 1) % 256) (op.val + 1) reg.val 0 ws]) ∧
          (¬ leaves → t.dev.sent = d.sent)
         d.zxl.ecmd = none → begun 0 (exec (.ecmdRead ep reg) s) ∧ (d.mode ≠ .shadow → begun 1 (exec (.ecmdWrite ep reg) s)))) ∧
      (∀ (b : Bar) (reg : Fin 65536),
        (d.mode = .shadow ∨ d.zxl.ecmd.isSome = true → exec (.ecmdBroadcastWrite b reg) s = .next s) ∧
        (d.mode ≠ .shadow → d.zxl.ecmd = none → exec (.ecmdBroadcastWrite b reg) s = .next (s.withDev
          ((((((d.set F.ZXL_ECMD_OP 3).set F.ZXL_ECMD_EP b).set F.ZXL_ECMD_REG reg).broadcast b reg none [(d.rd Reg.ZXL_EDATA).toNat]).set
            F.ZXL_ESTAT_RESULT 2).set F.ZXL_ESTAT_CODE 0))))) ∧
    (∀ (n : Lane) (tag status : Fin 256) (word : Word), d.live (laneDom n) = true →
      let awaits (c : Ecmd) : Prop := c.lane = n.val ∧ c.tag = tag.val ∧ c.waiting = false
      ((∀ c, d.zxl.ecmd = some c → ¬ awaits c) → (∀ c ∈ d.zxl.cmds, ¬ awaits c) → exec (.rspReceived n tag status word) s = .next s) ∧
      (∀ c, d.zxl.ecmd = some c → awaits c → ∃ t, exec (.rspReceived n tag status word) s = .next t ∧
        t.dev.rd Reg.ZXL_EDATA = (if c.op = 1 ∧ status = 0 then word else d.rd Reg.ZXL_EDATA) ∧
        t = s.withDev ((if c.op = 1 ∧ status = 0 then d.wr Reg.ZXL_EDATA word else d).ecmdEnd c (if status = 0 then 2 else 3) status)) ∧
      (∀ pre c post, (∀ x, d.zxl.ecmd = some x → ¬ awaits x) → d.zxl.cmds = pre ++ c :: post → (∀ x ∈ pre, ¬ awaits x) → awaits c →
        exec (.rspReceived n tag status word) s = .next (s.withDev (d.cmdEnd c)))) ∧
    (d.live 8 = true →
      let due (c : Ecmd) : Prop := c.waiting = false ∧ c.at_ + d.get F.ZXL_PCFG_CMD_TMO * 10000 ≤ d.now ∧
        ∀ (n : Lane) (tag status : Fin 256) (word : Word), .rspReceived n tag status word ∈ s.pending → ¬ (c.lane = n.val ∧ c.tag = tag.val)
      ((∀ c, d.zxl.ecmd = some c → ¬ due c) → (∀ c ∈ d.zxl.cmds, ¬ due c) → exec .cmdTimeout s = .next s) ∧
      (∀ c, d.zxl.ecmd = some c → due c → (∀ x ∈ d.zxl.cmds, ¬ due x) →
        (c.tries < 3 → exec .cmdTimeout s = .next (s.withDev (d.ecmdSend { c with tries := c.tries + 1 }))) ∧
        (3 ≤ c.tries → exec .cmdTimeout s =
          .next (s.withDev ((d.ecmdEnd c 3 0xFF).raise Ev.EP_NO_RESPONSE 15 (some c.ep) [c.lane])))) ∧
      (∀ pre c post, (∀ x, d.zxl.ecmd = some x → ¬ due x) → d.zxl.cmds = pre ++ c :: post → (∀ x ∈ pre ++ post, ¬ due x) → due c →
        (c.tries < 3 → exec .cmdTimeout s = .next (s.withDev (Dev.sendCmd { d with zxl := { d.zxl with cmds := pre ++ post } }
          { c with tries := c.tries + 1 }))) ∧
        (3 ≤ c.tries → exec .cmdTimeout s = .next (s.withDev ((d.cmdEnd c).raise Ev.EP_NO_RESPONSE 15 (some c.ep) [c.lane])))))

/-- PUSH_RESEND, DELAY_MEASURE, DELAY_MEASURE_DONE, MODE_CHANGE_DEADLINE, MODE_CHANGE_ABORT_END and STATE_PUSH (R216, R226, R230, R231, R233);
an acknowledgement that arrives in the cycle of a deadline counts.
Where the spec leaves it open this rests on the model's choices of log entries 1, 53 and 60. -/
def Obligations.PushesDelaysAndModeChanges : Prop :=
  ∀ s : State,
    let d := s.dev
    (∀ n : Lane, d.live (laneDom n) = true →
      ((∀ p ∈ (d.lane n).pushes, d.now < p.at_ + 1000000) → exec (.pushResend n) s = .next s) ∧
      (∀ pre p post, (d.lane n).pushes = pre ++ p :: post → (∀ q ∈ pre ++ post, d.now < q.at_ + 1000000 ∧ q.seq ≠ p.seq) →
        p.at_ + 1000000 ≤ d.now →
        (3 ≤ p.tries → exec (.pushResend n) s = .next (s.withDev (p.eps.foldl (fun (e : Dev) ep =>
          let b := match e.epImg ep with
            | some i => i.bar
            | none => 15
          (e.inhibitEp ep 2).raise Ev.EP_PUSH_FAILED b (some ep) [n.val, e.lineSoon (barOf b) 1000 % 2 ^ 16])
          (d.modLane n fun l => { l with pushes := pre ++ post })))) ∧
        (p.tries < 3 → (pre ++ post).length < 127 → ∃ t, exec (.pushResend n) s = .next t ∧
          let x : Push := { seq := (d.lane n).pushSeq, eps := p.eps, at_ := d.now, tries := p.tries + 1, frame := p.frame.withSeq (d.lane n).pushSeq }
          (t.dev.lane n).pushes = pre ++ post ++ [x] ∧ (t.dev.lane n).pushSeq = ((d.lane n).pushSeq + 1) % 256 ∧
          t.dev.sent = (if d.laneSt n ∈ [6, 8, 9] then d.sent ++ [x.frame] else d.sent) ∧ t.dev.regs = d.regs ∧ t.dev.raised = d.raised)) ∧
      (∀ (ring : Int) (eps : List EpDelay), (d.lane n).dmeas = none ∨ d.active n = false → exec (.delayMeasureDone n ring eps) s = .next s) ∧
      (∀ (ring : Int) (eps : List EpDelay) t, (d.lane n).dmeas = some t →
        (d.now < t + 630000 → exec (.delayMeasureDone n ring eps) s = .next s) ∧
        (t + 630000 ≤ d.now → d.active n = true → d.mode ≠ .boot →
          exec (.delayMeasureDone n ring eps) s = .next (s.withDev (((chainDelays ring eps 0).zipIdx).foldl (fun d x =>
            match d.epImg (64 * n.val + x.2) with
            | none => d
            | some e =>
              if (48000 : Int) < x.1 then
                (d.raise Ev.EP_DELAY_LIMIT e.bar (some e.ep)
                  [n.val, d.lineSoon (barOf e.bar) 1000 % 2 ^ 16, unsext 32 x.1]).inhibitEp e.ep 3
              else d.setDelay e x.1.toNat (t + 1630000 - d.now)) (d.modLane n fun l => { l with dmeas := none })))))) ∧
    (∀ (ring : Int) (e : EpDelay) (r : List EpDelay) (a : Int),
      chainDelays ring (e :: r) a = (ring - e.i - a) / 2 :: chainDelays ring r (a + (e.v - e.u))) ∧
    (d.reaches 11 = true →
      (d.modeIn [.idle, .calibrate] = false → exec .delayMeasure s = .next s) ∧
      (d.modeIn [.idle, .calibrate] = true → ∃ t, exec .delayMeasure s = .next t ∧ t.dev.regs = d.regs ∧
        (∀ n : Lane, (t.dev.lane n).dmeas = if n.val < 16 ∧ d.epsOn n ≠ [] ∧ d.active n = true then some d.now else (d.lane n).dmeas))) ∧
    (d.live 8 = true → ∀ b : Bar,
      (d.mchg b = none → exec (.modeChangeDeadline b) s = .next s ∧
        exec (.modeChangeAbortEnd b) s = .next (s.withDev (allBars.foldl Dev.setsIn d))) ∧
      (∀ m, d.mchg b = some m →
        let acked := m.acked ++ s.pending.flatMap (d.prepAcks b)
        let late := m.prepared = true ∧ m.aborting = false ∧ d.modeAcked b { m with acked := acked } = false ∧ m.at_ + d.mchgDeadline * 1000000 ≤ d.now
        let excess := if m.commit = true ∨ d.issues b = false then m.at_ + 1000000 ≤ d.now else m.l ≤ d.get (F.ZXL_BAR_WIRE_COUNT b) + d.mchgGuard
        (late → exec (.modeChangeDeadline b) s = .next (s.withDev (d.modeAbort b))) ∧
        (¬ late → exec (.modeChangeDeadline b) s = .next s) ∧
        (m.aborting = true → excess → exec (.modeChangeAbortEnd b) s = .next (s.withDev (allBars.foldl Dev.setsIn (d.modeAbortEnd b)))) ∧
        (m.aborting = false ∨ ¬ excess → exec (.modeChangeAbortEnd b) s = .next (s.withDev (allBars.foldl Dev.setsIn d))))) ∧
    (d.live 8 = true → ∀ ep : Fin 1024,
      (d.inhOf ep false = none ∨ d.epImg ep = none ∨ d.sendsCmd = false → exec (.statePush ep) s = .next s) ∧
      (∀ i e, d.inhOf ep false = some i → d.epImg ep = some e → d.sendsCmd = true →
        (d.now < i.at_ + 10000000 → exec (.statePush ep) s = .next s) ∧
        (i.at_ + 10000000 ≤ d.now → exec (.statePush ep) s = .next (s.withDev (Dev.fullPush
          { d with zxl := { d.zxl with inh := d.zxl.inh.map fun j => if j.ep = ep.val ∧ j.cause ≠ 3 then { j with at_ := d.now } else j } } e)))))
/-! ### Vision (spec/10_vision.md) -/

/-- FRAME_START, LINE_START, CAMERA_LINE_END, FRAME_END, VSYNC_TIMEOUT and EXPOSURE_END (R240 to R243, R245, R246): a port that takes no inputs keeps
still; a frame opens with the next number and the staged words of its port, its lines take coordinate and time at their start, and a line joins with WIDTH
pixels; a frame start of the cycle of a timeout wins.
Where the spec leaves it open this rests on the model's choices of log entries 1, 32, 33, 60 and 65. -/
def Obligations.CameraFrames : Prop :=
  ∀ (s : State) (p : Port),
    let d := s.dev
    let v := d.port p
    let own := d.effBit (F.VIS_CAM_CFG_FSTART p)
    ([11, 6, 7].all d.live = true →
      (d.portOn p = false → exec (.frameStart p) s = .next s ∧ exec (.lineStart p) s = .next s ∧ exec (.frameEnd p) s = .next s ∧
        ∀ ts, exec (.cameraLineEnd p ts) s = .next s) ∧
      (own = true → v.trig = false → exec (.frameStart p) s = .next s) ∧
      (d.portOn p = true → own = false ∨ v.trig = true → v.frame = none → v.sets = [] → p.val = 0 → ∃ t, exec (.frameStart p) s = .next t ∧
        s.gives t [(Reg.VIS_CAM_FRAME p, BitVec.ofNat 32 v.next)] (fun d => d.modPort p fun x => { x with
          frame := some { port := p.val, num := v.next, tag := v.tag, start := d.now, web := d.pos.web / 2 ^ 24, time := d.time,
                          flags := if v.late then 16 else 0, slot := none, words := d.frameWords p, dropped := false }
          line := none
          ended := none
          next := (v.next + 1) % 2 ^ 32
          late := false
          trig := if own then false else v.trig
          tmoFrom := if d.trigRouted p then none else some d.now })) ∧
      (∀ i, d.portOn p = true → own = false ∨ v.trig = true → v.frame = none → v.sets = [] → p.val ≠ 0 →
        ((List.range (d.slotCount p)).find? fun i => !v.slots.contains i) = some i → ∃ t, exec (.frameStart p) s = .next t ∧
        t.dev.rd (Reg.VIS_CAM_FRAME p) = BitVec.ofNat 32 v.next ∧ (t.dev.port p).slots = v.slots ++ [i] ∧ t.dev.raised = d.raised ∧
        ((t.dev.port p).frame.map fun f => (f.num, f.slot, f.lines.length, f.dropped)) = some (v.next, some i, 0, false)) ∧
      (d.portOn p = true → own = false ∨ v.trig = true → v.frame = none → v.sets = [] → p.val ≠ 0 →
        ((List.range (d.slotCount p)).find? fun i => !v.slots.contains i) = none → ∃ t, exec (.frameStart p) s = .next t ∧
        t.dev.raised = d.raised ++ [d.event Ev.VIS_OVERRUN 15 none [p.val, v.next]] ∧ (t.dev.port p).slots = v.slots ∧
        ((t.dev.port p).frame.map fun f => (f.num, f.slot, f.dropped)) = some (v.next, none, true)) ∧
      (∀ fr, d.portOn p = true → v.frame = some fr →
        (fr.lines.length < d.frameLines p → exec (.lineStart p) s = .next (s.withDev (d.modPort p fun x =>
          { x with line := some { web := d.pos.web / 2 ^ 24, time := d.time, at_ := d.now } }))) ∧
        (d.frameLines p ≤ fr.lines.length → ∃ t, exec (.lineStart p) s = .next t ∧
          t.dev.get (F.VIS_CAM_EXCESS_LINES p) = min (2 ^ (F.VIS_CAM_EXCESS_LINES p).w - 1) (d.get (F.VIS_CAM_EXCESS_LINES p) + 1) ∧
          ((t.dev.port p).frame.map fun f => (f.lines.length, f.flags.testBit 1)) = some (fr.lines.length, true)) ∧
        (fr.lines.length < d.frameLines p → own = true → exec (.frameEnd p) s = .next s) ∧
        (d.frameLines p ≤ fr.lines.length ∨ own = false → exec (.frameEnd p) s = .next (s.withDev (d.endFrame p fr)))) ∧
      (v.frame = none → exec (.frameEnd p) s = .next s) ∧
      (v.frame = none → v.ended = none → exec (.lineStart p) s = .next s) ∧
      (v.line = none ∨ v.frame = none → ∀ ts, exec (.cameraLineEnd p ts) s = .next s) ∧
      (∀ fr l (ts : List Nat), d.portOn p = true → v.frame = some fr → v.line = some l → d.effBit (F.VIS_CAM_CFG_CRC_EN p) = false →
        fr.lineByLine p = false → (∀ x ∈ ts, x < 2 ^ (fr.pixFmt p).nbits) → ∃ t, exec (.cameraLineEnd p ts) s = .next t ∧
          let err := decide (ts.length ≠ fr.width p * (fr.pixFmt p).per)
          t.dev.regs = d.regs ∧ (t.dev.port p).line = none ∧ (t.dev.port p).frame = some { fr with
            lines := fr.lines ++ [{ l with xs := fitLine (fr.pixFmt p).per (fr.width p) ts, lineErr := err, crcErr := false }]
            flags := if err then fr.flags ||| 8 else fr.flags })) ∧
    (d.live 11 = true →
      (let tmo := d.get (F.VIS_CAM_FRAMING_TMO p)
       let starts := .frameStart p ∈ s.pending ∧ d.startsFrame p = true
       (v.tmoFrom = none ∨ d.portOn p = false ∨ tmo = 0 ∨ starts → exec (.vsyncTimeout p) s = .next s) ∧
       (∀ u, v.tmoFrom = some u → d.now < u + tmo * 10000 → exec (.vsyncTimeout p) s = .next s) ∧
       (∀ u, v.tmoFrom = some u → d.portOn p = true → tmo ≠ 0 → ¬ starts → u + tmo * 10000 ≤ d.now →
         exec (.vsyncTimeout p) s = .next (s.withDev
           (((d.modPort p fun x => { x with tmoFrom := none, late := true }).addSat (F.VIS_CAM_ERR1_TMO p) 1).raise Ev.VIS_VSYNC_TMO 15 none
             [p.val, d.get (F.VIS_CAM_FRAME_FRAME p)])))) ∧
      (v.exp = none → exec (.exposureEnd p) s = .next s) ∧
      (∀ u, v.exp = some u → d.now < u → exec (.exposureEnd p) s = .next s) ∧
      (∀ u, v.exp = some u → u ≤ d.now →
        let off := d.modPort p fun x => { x with exp := none }
        exec (.exposureEnd p) s = .next (s.withDev (if d.shareZ 3 then off
          else off.emit (.pin pinCamExp p ((F.VIS_CAM_EXP_POL p).of (d.effRd (Reg.VIS_CAM_EXP p)) ≠ 0))))))

/-- I2C_WRITE, I2C_READ, I2C_DONE, SENSOR_LIST_DONE, M2M_FRAME, M2M_FRAME_DONE and VIS_TABLE_WRITE (R244, R249, R263, R265); a
direct transaction goes out in the cycle after its command, a list of staged settings before it.
Where the spec leaves it open this rests on the model's choices of log entries 1 and 34. -/
def Obligations.CameraControlAndTables : Prop :=
  ∀ s : State,
    let d := s.dev
    (∀ p : Port, d.reaches 12 = true → ∀ (rd : Bool) (w : Word),
      let word := (F.VIS_CAM_I2C_RESULT p).into ((F.VIS_CAM_I2C_OP p).into (w &&& 0xFFF0FFFF) (if rd then 2 else 1)) 1
      let reg := if (F.VIS_CAM_I2C_REG16 p).of word = 0 then (F.VIS_CAM_I2C_REG p).of word % 256 else (F.VIS_CAM_I2C_REG p).of word
      let x : I2c := { rd := rd, dev := (F.VIS_CAM_I2C_ADDR p).of word, reg := reg, data := d.get (F.VIS_CAM_I2C_DATA_DATA p), started := false }
      let takes (o : Host.Outcome State Fault Refusal) : Prop :=
        ((d.port p).i2c.isSome = true → o = .next s) ∧
        ((d.port p).i2c = none → ∃ t, o = .next t ∧ s.gives t [(Reg.VIS_CAM_I2C p, word)] fun d => d.modPort p fun y => { y with i2c := some x })
      (rd = true → takes (exec (.i2cRead p w) s)) ∧ (rd = false → takes (exec (.i2cWrite p w) s))) ∧
    (∀ (p : Port) (x : I2c), (d.port p).i2c = some x →
      (d.listNow p ≠ none ∨ x.started = true ∨ d.shareZ 3 = true → d.i2cStart p = d) ∧
      (d.listNow p = none → x.started = false → d.shareZ 3 = false → d.i2cStart p =
        (d.modPort p fun y => { y with i2c := some { x with started := true } }).emit
          (.i2c p (!x.rd) x.dev x.reg x.data (d.get (F.VIS_CAM_I2C_DATA_SPEED p))))) ∧
    (∀ (p : Port) (x : VisSet) (e : Nat), d.listNow p = some x → x.list = some [e] → bits e 31 1 = 1 →
      (x.wide = none → d.i2cBusy p = false → (d.listStart p).sent = d.sent ++ [.i2c p true (bits e 24 7)
        (if d.bit (F.VIS_CAM_I2C_REG16 p) then bits e 8 16 else bits e 8 8) (e % 256) (d.get (F.VIS_CAM_I2C_DATA_SPEED p))]) ∧
      (x.wide.isSome = true ∨ d.i2cBusy p = true → d.listStart p = d)) ∧
    (∀ p : Port, d.live 11 = true →
      (∀ (ack : Bool) (b : Fin 256),
        ((d.port p).i2c = none → exec (.i2cDone p ack b) s = .next s) ∧
        (∀ x, (d.port p).i2c = some x →
          (x.started = false → exec (.i2cDone p ack b) s = .next s) ∧
          (x.started = true → ∃ t, exec (.i2cDone p ack b) s = .next t ∧ (t.dev.port p).i2c = none ∧
            t.dev.get (F.VIS_CAM_I2C_RESULT p) = (if ack then 2 else 3) ∧
            t.dev.get (F.VIS_CAM_I2C_DATA_DATA p) = (if ack && x.rd then b.val else d.get (F.VIS_CAM_I2C_DATA_DATA p)) ∧
            t.dev.raised = (if ack then d.raised else d.raised ++
              [d.event Ev.VIS_I2C_NACK 15 none [p.val, d.get (F.VIS_CAM_FRAME_FRAME p), x.dev * 2 ^ 16 + x.reg]])))) ∧
      (∀ nacks, d.listNow p = none → exec (.sensorListDone p nacks) s = .next s) ∧
      (∀ x nacks, d.listNow p = some x → x.wide = none → exec (.sensorListDone p nacks) s = .next s) ∧
      (∀ x e wide (nack : Bool), d.listNow p = some x → x.list = some [e] → x.wide = some wide → bits e 31 1 = 1 →
        ∃ t, exec (.sensorListDone p (if nack then [0] else [])) s = .next t ∧ t.dev.regs = d.regs ∧
          t.dev.raised = (if nack then d.raised ++ [d.event Ev.VIS_I2C_NACK 15 none [p.val, d.get (F.VIS_CAM_FRAME_FRAME p),
            bits e 24 7 * 2 ^ 16 + if wide then bits e 8 16 else bits e 8 8]] else d.raised) ∧
          (∀ y ∈ (t.dev.port p).sets, y.seq = x.seq → y.sent = true ∧ y.at_ = d.now))) ∧
    ([11, 4, 6, 7].all d.live = true →
      (d.vis.m2m.isSome = true ∨ d.visRuns = false ∨ d.vis.waiting = [] → exec .m2mFrame s = .next s) ∧
      (∀ fr rest, d.vis.m2m = none → d.visRuns = true → d.vis.waiting = fr :: rest → (∀ x ∈ rest, fr.start < x.start) →
        exec .m2mFrame s = .next (s.withDev { d with vis := { d.vis with waiting := rest, m2m := some fr } })) ∧
      (d.vis.m2m = none → exec .m2mFrameDone s = .next s) ∧
      (∀ fr i, d.vis.m2m = some fr → fr.slot = some i → fr.port < 4 →
        let p : Port := Fin.ofNat 4 fr.port
        let e : Dev := { d with vis := { d.vis with m2m := none } }
        exec .m2mFrameDone s = .next (s.withDev ((e.processFrame p (e.readSlot p fr i)).modPort p fun x =>
          { x with slots := x.slots.filter fun j => j ≠ i })))) ∧
    (d.reaches 12 = true → ∀ (i : Fin 2048) (w : Word),
      let unit := d.get F.VIS_TAB_SEL_UNIT
      let table := d.get F.VIS_TAB_SEL_TABLE
      let p : Port := Fin.ofNat 4 unit
      let free := if table = 4 ∨ table = 5 then d.bankSelected p (table - 4) = false else d.modeIn [.idle, .calibrate] = true
      (visMask table i = 0 → exec (.visTableWrite i w) s = .next s) ∧
      (visMask table i ≠ 0 → free → ∃ t, exec (.visTableWrite i w) s = .next t ∧
        s.gives t [(Reg.VIS_TAB (8 * unit + table) i, w &&& BitVec.ofNat 32 (visMask table i))]) ∧
      (visMask table i ≠ 0 → ¬ free → exec (.visTableWrite i w) s = .next (s.withDev (d.raise Ev.VIS_WRITE_REFUSED 15 none
        [p.val, d.get (F.VIS_CAM_FRAME_FRAME p), 0x10000 + 4 * i.val]))))

/-! ### The density loop (spec/11_density_loop.md) -/

/-- BAND_NOW, DEN_ESTIMATE, DEN_CAPTURE, DEN_BUSY_TIMEOUT, DEN_RESTORE and DEN_RESUME (R275, R280 to R282): what keeps an update from being captured,
what a capture and a restore leave, and the refusals in their order; a SET pulse or an accepted RESTORE of the
host in the cycle of a capture wins. Where the spec leaves it open this rests on the model's choices of log entries 1, 30, 60 and 65. -/
def Obligations.DensityLoop : Prop :=
  ∀ s : State,
    let d := s.dev
    (d.reaches 13 = true → exec .bandNow s = .next (s.withDev { d with den := { d.den with rotReq := true } }) ∧
      ∀ b : Bar,
        (∃ t, exec (.denResume b) s = .next t ∧ s.gives t [(Reg.DEN_BAR_STATUS b, (F.DEN_BAR_STATUS_PAUSED b).into (d.rd (Reg.DEN_BAR_STATUS b)) 0)]) ∧
        (let refused (why : Nat) := exec (.denRestore b) s = .next (s.withDev ((d.raise Ev.DEN_REFUSED b.val none [b.val, 0, 0, why]).hand))
         let valid := d.bit (F.DEN_BAR_STATUS_PREV_VALID b)
         let may := d.modeIn [.idle, .ready, .print, .hold, .shuttle, .calibrate]
         (valid = false → refused 1) ∧ (valid = true → may = false → refused 2) ∧
         (valid = true → may = true → 8 ≤ d.job.sets.length → refused 3) ∧
         (valid = true → may = true → d.job.sets.length < 8 → (∀ u ∈ d.den.upds, u.bar ≠ b.val) →
           let r := d.denSet b (d.denFields b true (some (d.get (F.DEN_BAR_TOFS_PREV_OFS b)))) d.printing
             (d.get (F.LTC_BAR_PITCH_ACT_PITCH b))
           let e := ((((r.1.set (F.DEN_BAR_STATUS_PAUSED b) 1).set (F.DEN_BAR_STATUS_PREV_VALID b) 0).set (F.DEN_BAR_LASTSET_SEQ b) r.2).raise
             Ev.DEN_RESTORED b.val none [b.val, 0, 0, r.2 % 2 ^ 16])
           exec (.denRestore b) s = .next (s.withDev ((e.loopRecord b (d.get (F.DEN_BAR_LASTSET_SEQ b))).hand))))) ∧
    ([11, 6, 7].all d.live = true →
      (d.den.bands = [] → exec .denEstimate s = .next s) ∧
      (∀ x r, d.den.bands = x :: r →
        (x.done = false ∨ d.denOn = false → exec .denEstimate s = .next s) ∧
        (x.done = true → d.denOn = true → x.bad ≠ 0 → ∃ t, exec .denEstimate s = .next t ∧
          t.dev.den.bands = d.den.bands.filter (fun y => ¬ (y.seq = x.seq ∧ y.copy = x.copy)) ∧ t.dev.den.upds = d.den.upds ∧ t.dev.sys = d.sys ∧
          t.dev.get (F.DEN_BAR_BANDS_BAD (barOf x.bar)) =
            min (2 ^ (F.DEN_BAR_BANDS_BAD (barOf x.bar)).w - 1) (d.get (F.DEN_BAR_BANDS_BAD (barOf x.bar)) + 1) ∧
          ∃ why, why ≠ 0 ∧ t.dev.raised = d.raised ++
            [d.event Ev.DEN_BAND_BAD x.bar none [x.bar, x.y0 / 2 ^ 8 % 2 ^ 32, x.y0 / 2 ^ 40 % 2 ^ 16, why]]))) ∧
    (d.live 11 = true →
      (d.den.upds = [] → exec .denBusyTimeout s = .next s) ∧
      (∀ u r, d.den.upds = u :: r →
        let late := u.gains.isSome = true ∧ d.gainBusy (barOf u.bar) (d.otherBank (barOf u.bar)) = true ∧ u.since + 10000000 ≤ d.now
        (late → exec .denBusyTimeout s = .next (s.withDev ((d.dropUpd u).denSkipped u.bar u.y0 3))) ∧
        (¬ late → exec .denBusyTimeout s = .next s))) ∧
    ([11, 4, 6, 7].all d.live = true →
      (d.den.upds = [] → exec .denCapture s = .next s) ∧
      (∀ u r, d.den.upds = u :: r →
        let b := barOf u.bar
        let paused := d.bit (F.DEN_BAR_STATUS_PAUSED b)
        let busy := u.gains.isSome && d.gainBusy b (d.otherBank b)
        let back := d.restoreWhy b = 0 ∧ b ∈ s.pending.filterMap Instr.restores
        let host := u.host = true ∨ s.pending.any Instr.pulsesSet = true ∨ d.den.setAt = some d.now
        (d.mode ≠ .print → exec .denCapture s = .next (s.withDev d.hand)) ∧
        (d.mode = .print → back → exec .denCapture s = .next (s.withDev ((d.dropUpd u).denSkipped u.bar u.y0 7).hand)) ∧
        (d.mode = .print → ¬ back → host → exec .denCapture s = .next (s.withDev ((d.dropUpd u).denSkipped u.bar u.y0 1).hand)) ∧
        (d.mode = .print → ¬ back → ¬ host → paused = true → exec .denCapture s = .next (s.withDev ((d.dropUpd u).denSkipped u.bar u.y0 5).hand)) ∧
        (d.mode = .print → ¬ back → ¬ host → paused = false → busy = true → exec .denCapture s = .next (s.withDev d.hand)) ∧
        (d.mode = .print → ¬ back → ¬ host → paused = false → busy = false → 8 ≤ d.job.sets.length →
          exec .denCapture s = .next (s.withDev ((d.dropUpd u).denSkipped u.bar u.y0 2).hand)) ∧
        (d.mode = .print → ¬ back → ¬ host → paused = false → busy = false → d.job.sets.length < 8 →
          let table := match u.gains with
            | some t => (d.set (F.DEN_BAR_STATUS_PREV_VALID b) 0).storeData (d.gainBase + (2 * b.val + d.otherBank b) * 122880) (t.map (BitVec.ofNat 8))
            | none => d
          let prep := table.set (F.DEN_BAR_TOFS_PREV_OFS b) (d.effGet (F.SCR_BAR_TOFS_OFS b))
          let q := prep.denSet b (d.denFields b u.gains.isSome u.tofs) true u.pitch
          let own : Dev := { q.1 with den := { q.1.den with ownSets := q.1.den.ownSets ++ [(b.val, q.2)] } }
          let e := (own.set (F.DEN_BAR_LASTSET_SEQ b) q.2).addSat (F.DEN_BAR_COUNT_UPDATES b) 1
          let f := (e.raise Ev.DEN_UPDATE u.bar none [u.bar, u.y0 / 2 ^ 8 % 2 ^ 32, u.y0 / 2 ^ 40 % 2 ^ 16, q.2 % 2 ^ 16,
            (e.rd (Reg.DEN_BAR_RESULT b)).toNat, unsext 32 u.dT]).dropUpd u
          exec .denCapture s = .next (s.withDev ((f.loopRecord b (d.get (F.DEN_BAR_LASTSET_SEQ b))).hand)))))

/-! ### Lamps and the panel (spec/12_lamps.md) -/

/-- LAMP_STAGE, LAMP_LATCH, LATCH_NOW, COVERAGE_TICK, LAMP_POLL, LAMP_RESPONSE, LAMP_RSP_TIMEOUT, LAMP_ON_SECOND, HOURS_SAVE and PANEL_ROW_SWITCH (R287,
R288 to R290, R292, R293, R295, R297 to R299, R302): a LATCH waits for its staging and for a response on the bus, and a response that begins in the
cycle of a timeout wins. The bus sends a frame byte by byte and awaits the response of a POLL or IDENT.
Levels and the panel (R295, R300 to R302): a module outside the modes that light it is dark, coverage gives a duty between its limits, and a blinking
LED is on for half its period and off for the other.
Where the spec leaves it open this rests on the model's choices of log entries 1, 35, 60 and 66. -/
def Obligations.Lamps : Prop :=
  (∀ s : State,
    let d := s.dev
    (d.live 10 = true →
      (d.busDriven = false → exec .lampStage s = .next s ∧ exec .coverageTick s = .next s ∧ exec .lampPoll s = .next s ∧
        ∀ (m : Fin 16) ok r, exec (.lampResponse m ok r) s = .next s) ∧
      (d.busDriven = true → d.lmp.sets = [] → d.lampDiff = [] → exec .lampStage s = .next s) ∧
      (d.busDriven = true → d.role ≠ 1 → d.lmp.sets = [] → d.lampDiff ≠ [] → exec .lampStage s = .next (s.withDev
        (d.lampDiff.foldl (fun e m => e.lampSend m (e.lampWant m)) d))) ∧
      (d.lmp.due = none ∨ d.busDriven = false ∨ d.lampStaged = false ∨ d.now < d.lmp.respEnd → exec .lampLatch s = .next s) ∧
      (∀ at_, d.lmp.due = some at_ → d.busDriven = true → d.lampStaged = true → d.lmp.respEnd ≤ d.now → ∃ t, exec .lampLatch s = .next t ∧
        let start := match d.lmp.sending with
          | some x => x.2.2
          | none => d.now
        t.dev.sent = d.sent ++ [.lampBreak] ∧
        t.dev.get F.LMP_LATCH_COUNT = (d.get F.LMP_LATCH_COUNT + 1) % 2 ^ F.LMP_LATCH_COUNT.w ∧
        t.dev.lmp.due = none ∧ t.dev.lmp.breakEnd = start + 1600 ∧ t.dev.lmp.sending = none ∧
        t.dev.lmp.queue = (d.lmp.sending.map (·.1)).toList ++ d.lmp.queue ∧
        (∀ m : Fin 16, (t.dev.lampMod m).lit = if m ∈ d.lampsOn then (d.lampMod m).staged.getD (d.lampMod m).lit else (d.lampMod m).lit) ∧
        (d.lmp.late = false → t.dev.raised = d.raised) ∧
        (d.lmp.late = true → d.lmp.lateAt = none → t.dev.raised = d.raised ++ [d.event Ev.LMP_LATCH_LATE 15 none [0, 0, start - at_]])) ∧
      (d.mode ≠ .print ∨ d.covMods = [] → exec .coverageTick s = .next s) ∧
      (∀ m : Fin 16, d.mode = .print → d.busDriven = true → d.covMods = [m] → d.rd Reg.LMP_COV_STEP ≠ 0 → d.covDue m (d.tickAt d.lmp.tick) = 0 →
        ∃ t, exec .coverageTick s = .next t ∧ t.dev.regs = d.regs ∧ t.dev.raised = d.raised ∧ t.dev.lmp.tick = d.lmp.tick + 1 ∧
          (t.dev.lampMod m).cov = d.covLevels m (d.tickAt d.lmp.tick) 0 ∧ ∀ n : Fin 16, n ≠ m → t.dev.lampMod n = d.lampMod n) ∧
      (let round := max 250 (d.effGet F.LMP_BUS_POLL) * 1000
       (∀ u, d.lmp.pollAt = some u → d.now < u + round → exec .lampPoll s = .next s) ∧
       (d.busDriven = true → (∀ u, d.lmp.pollAt = some u → u + round ≤ d.now) → ∃ t, exec .lampPoll s = .next t ∧
         t.dev.lmp.pollAt = some d.now ∧ t.dev.sent = d.sent ∧
         t.dev.lmp.queue = d.lmp.queue ++ (d.lampsOn.map fun m => (⟨m.val, 0x03, []⟩ : LampFrame)).filter (fun f => f ∉ d.lmp.queue) ∧
         ∀ m ∈ d.lampsOn, (t.dev.lampMod m).hr = none)) ∧
      (∀ (m : Fin 16) ok (r : LampAnswer), (∀ u, d.lmp.ask ≠ some (m.val, lampCmd r, u)) → exec (.lampResponse m ok r) s = .next s) ∧
      (∀ (m : Fin 16) (r : LampAnswer) u, d.busDriven = true → d.lmp.ask = some (m.val, lampCmd r, u) →
        exec (.lampResponse m false r) s = .next (s.withDev (Dev.addSat
          { d with lmp := { d.lmp with ask := none, respEnd := d.now + lampNs r, restAt := d.now + lampNs r } } (F.LMP_MOD_ERR_CRC m) 1))) ∧
      (∀ (m : Fin 16) st hr (op un : Word) temp u, d.busDriven = true → d.lmp.ask = some (m.val, 0x03, u) → ∃ t,
        exec (.lampResponse m true (.poll st hr op un temp)) s = .next t ∧
        t.dev.get (F.LMP_MOD_STATUS_STATE m) = 1 ∧ t.dev.get (F.LMP_MOD_STATUS_FLAGS m) = st.val % 16 ∧ t.dev.get (F.LMP_MOD_STATUS_TEMP m) = temp.val ∧
        t.dev.get (F.LMP_MOD_STATUS_HEADROOM m) = hr.val ∧ t.dev.rd (Reg.LMP_MOD_OPEN m) = op ∧ t.dev.rd (Reg.LMP_MOD_UNVER m) = un ∧
        (t.dev.lampMod m).hr = some hr.val ∧ (t.dev.lampMod m).miss = 0 ∧ t.dev.lmp.ask = none ∧ t.dev.lmp.respEnd = d.now + 9500) ∧
      (∀ m : Fin 16,
        let tmo := d.effGet F.LMP_BUS_RSP_TMO * 100
        let comes := ∃ ok r, .lampResponse m ok r ∈ s.pending
        ((∀ c u, d.lmp.ask ≠ some (m.val, c, u)) ∨ d.busDriven = false ∨ comes → exec (.lampRspTimeout m) s = .next s) ∧
        (∀ c u, d.lmp.ask = some (m.val, c, u) →
          let free : Dev := { d with lmp := { d.lmp with ask := none } }
          let lost := decide (max 1 (d.effGet F.LMP_BUS_MISS) ≤ (d.lampMod m).miss + 1)
          (d.now < u + tmo → exec (.lampRspTimeout m) s = .next s) ∧
          (c = 0x04 → d.busDriven = true → ¬ comes → u + tmo ≤ d.now → exec (.lampRspTimeout m) s = .next (s.withDev
            (if d.mode = .boot ∧ d.lampLost m = false then (free.lampState m 2).raise Ev.LMP_MODULE_LOST 15 none [m.val] else free))) ∧
          (c ≠ 0x04 → d.busDriven = true → ¬ comes → u + tmo ≤ d.now → ∃ t, exec (.lampRspTimeout m) s = .next t ∧
            (t.dev.lampMod m).miss = (d.lampMod m).miss + 1 ∧ t.dev.lmp.ask = none ∧
            (lost = true → d.lampLost m = false → t.dev.get (F.LMP_MOD_STATUS_STATE m) = 2 ∧
              t.dev.raised = d.raised ++ [d.event Ev.LMP_MODULE_LOST 15 none [m.val]]) ∧
            (lost = false ∨ d.lampLost m = true → t.dev.raised = d.raised ∧
              t.dev.get (F.LMP_MOD_STATUS_STATE m) = d.get (F.LMP_MOD_STATUS_STATE m))))) ∧
      (d.now < d.lmp.secAt + 1000000000 → exec .lampOnSecond s = .next s) ∧
      (d.lmp.secAt + 1000000000 ≤ d.now → d.lmpen = false ∨ (∀ m ∈ d.lampsOn, (d.lampMod m).lit.any lampLit = false) →
        exec .lampOnSecond s = .next (s.withDev { d with lmp := { d.lmp with secAt := d.lmp.secAt + 1000000000 } })) ∧
      (∀ m : Fin 16, d.lmp.secAt + 1000000000 ≤ d.now → d.lmpen = true → m ∈ d.lampsOn → (d.lampMod m).lit.any lampLit = true → ∃ t,
        exec .lampOnSecond s = .next t ∧ t.dev.lmp.secAt = d.lmp.secAt + 1000000000 ∧
        t.dev.rd (Reg.LMP_MOD_HOURS m) = BitVec.ofNat 32 (min 0xFFFFFFFF ((d.rd (Reg.LMP_MOD_HOURS m)).toNat + 1))) ∧
      (let on := d.bit F.LMP_PNL_CFG_EN && decide (2 ≤ d.mode.code) && decide (d.mode.code ≤ 9)
       let r := (d.lmp.row + 1) % 16
       let frame := if r = 0 then d.lmp.frame + 1 else d.lmp.frame
       (on = false → exec .panelRowSwitch s = .next (s.withDev { d with lmp := { d.lmp with cols := 0, rowNext := 0 } })) ∧
       (on = true → d.now < d.lmp.rowNext → exec .panelRowSwitch s = .next s) ∧
       (on = true → d.lmp.rowNext ≤ d.now → exec .panelRowSwitch s = .next (s.withDev { d with lmp := { d.lmp with
         row := r, frame := frame, cols := d.rowCols r frame, rowAt := d.now + d.get F.LMP_PNL_CFG_PRE * 10,
         rowNext := d.now + 62500 } })))) ∧
    (d.reaches 14 = true →
      (d.busDriven = false → exec .latchNow s = .next s) ∧
      (d.busDriven = true → exec .latchNow s = .next (s.withDev { d with lmp := { d.lmp with due := some (d.lmp.due.getD d.now) } })) ∧
      ((∀ m : Fin 16, (d.rd (Reg.LMP_MOD_HOURS m)).toNat = (d.lampMod m).saved) → exec .hoursSave s = .next s) ∧
      (∀ m : Fin 16, (∀ n : Fin 16, n ≠ m → (d.rd (Reg.LMP_MOD_HOURS n)).toNat = (d.lampMod n).saved) →
        (d.rd (Reg.LMP_MOD_HOURS m)).toNat ≠ (d.lampMod m).saved → ∃ t, exec .hoursSave s = .next t ∧ t.dev.regs = d.regs ∧
          t.dev.prsQ = d.prsQ ++ [(0x201 + 4 * m.val, d.rd (Reg.LMP_MOD_HOURS m))] ∧
          (t.dev.lampMod m).saved = (d.rd (Reg.LMP_MOD_HOURS m)).toNat))) ∧
  ((∀ (d : Dev) (f : LampFrame) (q : List LampFrame), d.busDriven = true → d.lmp.sending = none → d.lmp.ask = none → d.lmp.respEnd ≤ d.now →
      d.lmp.restAt ≤ d.now → d.lmp.breakEnd ≤ d.now → d.lmp.due = none → d.lmp.queue = f :: q →
      d.lampTick = { d with lmp := { d.lmp with queue := q, sending := some (f, 0, d.now + 600) } }) ∧
  (∀ (d : Dev) (f : LampFrame) (i t : Nat), d.busDriven = true → d.lmp.sending = some (f, i, t) →
      (d.now < t → d.lampTick = d) ∧
      (t ≤ d.now → i + 1 < f.data.length + 6 → d.lampTick = { d with lmp := { d.lmp with sending := some (f, i + 1, t + 500) } }) ∧
      (t ≤ d.now → f.data.length + 6 ≤ i + 1 → d.lampTick.sent = d.sent ++ [.lamp f.bytes] ∧ d.lampTick.lmp.sending = none ∧
        (f.cmd = 0x03 ∨ f.cmd = 0x04 → d.lampTick.lmp.ask = some (f.addr, f.cmd, t)))) ∧
  (∀ (d : Dev) (m : Fin 16) (k : Nat), (d.lampMod m).held = none → d.mode ∈ [Mode.sleep, .boot, .shadow, .safe, .shutdown, .frozen] → d.lampLevel m k = 0) ∧
  (∀ (d : Dev) (m : Fin 16) (k : Nat), (d.lampMod m).held = none → d.mode = .idle ∨ d.mode = .calibrate → d.lampLevel m k = (d.effRd (Reg.LMP_LEVEL m k)).toNat &&& 0x80FFFFFF) ∧
  (∀ dmin dmax c n : Nat, dmin ≤ dmax → c ≤ n → dmax ≤ 65535 → dmin ≤ covDuty dmin dmax c n ∧ covDuty dmin dmax c n ≤ dmax) ∧
  (∀ dmin dmax n : Nat, covDuty dmin dmax 0 n = dmin) ∧
  (∀ frame : Nat, ledOn 0 frame = false ∧ ledOn 1 frame = true ∧ ledOn 2 (frame + 1000) = ledOn 2 frame ∧ ledOn 3 (frame + 250) = ledOn 3 frame ∧
    ledOn 2 (frame + 500) = !ledOn 2 frame ∧ ledOn 3 (frame + 125) = !ledOn 3 frame))

/-! ### The LPDDR5 controller (spec/13_dram.md) -/

/-- MEMORY_READ, MEMORY_WRITE, SCRUB_UNIT and MIGRATION_COPY (R307, R308, R310 to R315, R327, R328): a request joins its channel's queue and an
idle channel serves it at once; a write changes its own bytes and no others, a whole unit loses its poison, an unreadable unit is poisoned
once, the migration visits the data units in order, and a channel's next request is one that waits, in the order of the classes.
Where the spec leaves it open this rests on the model's choices of log entries 4, 36, 37 and 67. -/
def Obligations.MemoryTraffic : Prop :=
  (∀ u v : Nat, unitAt u = unitAt v → u = v) ∧ (∀ u : Nat, (unitAt u).2.2 % 8 ≠ 7) ∧
  (∀ (d : Dev) (k : Fin 4) (t : Nat),
    let ready (r : MemReq) : Prop := r ∈ d.drc.ch[k].waiting ∧ d.bankFree (d.rowOf r.u).1 (d.rowOf r.u).2.1 t = true
    let rt := d.rtWithin k t = true ∧ ∃ r, ready r ∧ isRt r.who = true
    let mgmt := d.mgmtWithin t = true ∧ ∃ r, ready r ∧ isMgmt r.who = true
    (∀ r, d.pick k t = some r → ready r) ∧
    (rt → ∃ r, d.pick k t = some r ∧ isRt r.who = true) ∧
    (¬ rt → mgmt → ∃ r, d.pick k t = some r ∧ isMgmt r.who = true) ∧
    (∀ r, d.pick k t = some r → r.who = .scrub → r.wr = none → ¬ rt ∧ ¬ mgmt ∧ ∀ x, ready x → turnOf (d.copyLate x) x.who = none) ∧
    (∀ i : Fin 8, (d.chRank i).must ≠ 0 → d.canRefresh i t = true → ((d.refreshAt i t).chRank i).must = (d.chRank i).must - 1)) ∧
  ∀ s : State, s.dev.live 4 = true →
    let d := s.dev
    (∀ (who : Client) (a : Nat) (data : List (BitVec 8)) (act : Bool) (e : Ecc),
      let write := exec (.memoryWrite who a data ⟨act, e⟩) s
      let fits := d.memTakes = true ∧ a + data.length ≤ d.cap ∧ data ≠ [] ∧ a % 64 + data.length ≤ 64
      (¬ fits → write = .next s) ∧
      (fits → write = .next (s.withDev (d.submit [{ who := who, u := a / 64, act := act, e := e,
                                                                                     wr := some (a % 64, data) }]))) ∧
      (fits → d.memIdle (chanOf (a / 64)) → isMgmt who = false → ∃ t, write = .next t ∧
        (∀ x : Nat, t.dev.byte x = if a ≤ x ∧ x < a + data.length then data.getD (x - a) 0 else d.byte x) ∧
        (Memory.wf d.store = true → Memory.wf t.dev.store = true) ∧
        (data.length = 64 ∨ e = .clean → t = s.withDev { d with store := t.dev.store, poison := d.poison.filter (· ≠ a / 64), drc := t.dev.drc } ∧
          (act = false → t.dev.drc.cr = d.drc.cr)) ∧
        (data.length < 64 → e = .bad → d.drc.ch[chanOf (a / 64)].wrote ≠ some (a / 64, d.now) →
          ∀ x, x ∈ t.dev.poison ↔ x = a / 64 ∨ x ∈ d.poison))) ∧
    (∀ (who : Client) (u : Nat) (act : Bool) (e : Ecc),
      let read := exec (.memoryRead who u ⟨act, e⟩) s
      let i := u % 4 / 2
      let r : MemReq := { who := who, u := u, act := act, e := e }
      (d.memTakes = false ∨ d.cap ≤ u * 64 → read = .next s) ∧
      (d.memTakes = true → u * 64 < d.cap → read = .next (s.withDev (d.submit [r]))) ∧
      (u * 64 < d.cap → d.memIdle (chanOf u) → isMgmt who = false → who ≠ .writeBack → who ≠ .migrate →
        (e = .clean ∨ d.poison.contains u = true ∨ d.drc.ch[chanOf u].wrote = some (u, d.now) →
          ∃ t, read = .next t ∧ t = s.withDev { d with drc := t.dev.drc } ∧ t.dev.drc.ch[chanOf u].waiting = [] ∧
            (act = false → t.dev.drc.cr = d.drc.cr)) ∧
        (e = .corrected → d.poison.contains u = false → d.drc.ch[chanOf u].wrote ≠ some (u, d.now) →
          d.effGet F.DRC_SPARE_CE_LIMIT = 0 ∨ d.countsAt u = false → ∃ t, read = .next t ∧
            t.dev.get (F.DRC_DI_CE_COUNT i) = min (2 ^ (F.DRC_DI_CE_COUNT i).w - 1) (d.get (F.DRC_DI_CE_COUNT i) + 1) ∧
            t.dev.store = d.store ∧ t.dev.poison = d.poison ∧ t.dev.raised = d.raised ∧ t.dev.rd Reg.DRC_ERR_LO = BitVec.ofNat 32 (u * 64) ∧
            t.dev.drc.ch[chanOf u].waiting = [{ who := .writeBack, u := u, act := false, e := .clean }]) ∧
        (e = .bad → d.poison.contains u = false → d.drc.ch[chanOf u].wrote ≠ some (u, d.now) → d.spareOf i = 1 →
          ∃ t, read = .next t ∧ (∀ x, x ∈ t.dev.poison ↔ x = u ∨ x ∈ d.poison) ∧ t.dev.store = d.store ∧
            t.dev.rd Reg.DRC_ERR_LO = BitVec.ofNat 32 (u * 64) ∧
            (d.drc.ueRank[ifaceOf u] + 1 < max 1 (d.effGet F.DRC_SPARE_UE_LIMIT) →
              t.dev.raised = d.raised ++ [d.event Ev.DRC_UE 15 none (d.unitWords u)] ∧ t.dev.spareOf i = 1) ∧
            (max 1 (d.effGet F.DRC_SPARE_UE_LIMIT) ≤ d.drc.ueRank[ifaceOf u] + 1 → t.dev.spareOf i = 2 ∧ t.dev.rd (Reg.DRC_DI_MIG i) = 0 ∧
              t.dev.raised = d.raised ++ [d.event Ev.DRC_UE 15 none (d.unitWords u),
                                          d.event Ev.DRC_RANK_RETIRED 15 none (d.unitWords u ++ [1])])))) ∧
    (∀ (act : Bool) (e : Ecc),
      let period := max 1 (d.effGet F.DRC_SCRUB_HOURS) * 3600000000000
      let units := d.cap / 64
      let u := d.drc.scrubAt
      let due := d.memServes = true ∧ d.effBit F.DRC_SCRUB_EN = true ∧ units ≠ 0 ∧ d.drc.scrubFrom + u * period / units ≤ d.now
      let at_ := if units ≤ u + 1 then 0 else u + 1
      let from_ := if units ≤ u + 1 then d.now + period / units else d.drc.scrubFrom
      (¬ due → exec (.scrubUnit act e) s = .next s) ∧
      (due → exec (.scrubUnit act e) s = .next (s.withDev (Dev.submit { d with drc := { d.drc with scrubAt := at_, scrubFrom := from_ } }
        [{ who := .scrub, u := u, act := act, e := e }]))) ∧
      (due → d.memIdle (chanOf u) → ∃ t, exec (.scrubUnit act e) s = .next t ∧ t.dev.drc.scrubAt = at_ ∧ t.dev.drc.scrubFrom = from_ ∧
        t.dev.store = d.store ∧ (e = .bad → d.drc.ch[chanOf u].wrote ≠ some (u, d.now) → u ∈ t.dev.poison))) ∧
    (∀ (i : Fin 2) (e0 e1 : Ecc),
      let m := (d.rd (Reg.DRC_DI_MIG i)).toNat
      let next := if m % 8 = 6 then m + 2 else m + 1
      let u := 4 * (m / 8 * 7 + m % 8) + 2 * i.val
      let due := d.spareOf i = 2 ∧ d.memServes = true ∧ d.drc.migLeft[i] = 0
      (¬ due → exec (.migrationCopy i e0 e1) s = .next s) ∧
      (due → exec (.migrationCopy i e0 e1) s = .next (s.withDev (Dev.submit { d with drc := { d.drc with migLeft := d.drc.migLeft.set i 2 } }
        [{ who := .migrate, u := u, act := false, e := e0 }, { who := .migrate, u := u + 1, act := false, e := e1 }]))) ∧
      (due → (∀ k : Fin 4, k.val / 2 = i.val → d.memIdle k) →
        (next / 8 * 7 + next % 8 < d.chanData → ∃ t, exec (.migrationCopy i .clean .clean) s = .next t ∧
          s.gives t [(Reg.DRC_DI_MIG i, BitVec.ofNat 32 next)] fun d => { d with drc := t.dev.drc }) ∧
        (d.chanData ≤ next / 8 * 7 + next % 8 → ∃ t, exec (.migrationCopy i .clean .clean) s = .next t ∧ t.dev.spareOf i = 3 ∧
          t.dev.get (F.DRC_DI_STATE_ACTIVE i) = 1 ∧ t.dev.raised = d.raised ++ [d.event Ev.DRC_MIG_DONE 15 none [i.val, 0, 0, d.drc.migBad[i]]] ∧
          t.dev.prsQ = d.prsQ ++ [(0x90 + i.val, t.dev.rd (Reg.DRC_DI_STATE i))] ∧ t.dev.store = d.store)))

/-- REFRESH_DUE, MR4_POLL, TRACKER_WINDOW_END, WCK_TRACK, OP_CHANGE_REQUEST, OP_CHANGE_DONE, RANK_RETIRE and UNRETIRE (R315 to R321, R325 to R328).
Where the spec leaves it open this rests on the model's choices of log entries 1, 8, 36, 37 and 67. -/
def Obligations.MemoryUpkeep : Prop :=
  (∀ (d : Dev) (i : Fin 8) (p : DebtPay), (d.chRank i).pay = some p → (d.chRank i).must = 0 → (d.chRank i).refAt = none →
    (d.payEnd i).raised = d.raised ++ [d.event Ev.DRC_HOT 15 none [crWord i, 0, 0, min p.cls 2, p.paid]]) ∧
  ∀ s : State,
    let d := s.dev
    (d.live 4 = true →
      (∀ (ch : Fin 4) (r : Fin 2),
        let i := crOf ch r
        let c := d.chRank i
        let di := i.val / 4
        let ns := d.refreshNs c.cls
        let due := d.memServes = true ∧ d.hasRank i = true ∧ c.dueAt + ns ≤ d.now
        let goes := d.rtWaits i = false ∧ d.canRefresh i d.now = true ∧ c.must = 0
        let joins := ∃ p, c.pay = some p ∧ p.full = true ∧ p.at_ = d.now
        let dueAt := if d.now < c.dueAt + 2 * ns then c.dueAt + ns else d.now
        (¬ due → exec (.refreshDue ch r) s = .next s) ∧
        (due → goes → ∃ t, exec (.refreshDue ch r) s = .next t ∧ (t.dev.chRank i).pair = (c.pair + 1) % 8 ∧ (t.dev.chRank i).debt = c.debt ∧
          (t.dev.chRank i).refAt = some d.now ∧ (t.dev.chRank i).dueAt = dueAt ∧
          (d.now < d.now + d.timing.rfc → t.dev.bankFree i c.pair d.now = false ∧ t.dev.bankFree i (c.pair + 8) d.now = false)) ∧
        (due → ¬ goes → ¬ joins → c.debt < d.debtLimit c.cls → ∃ t, exec (.refreshDue ch r) s = .next t ∧
          s.gives t [((F.DRC_DI_REF_DEBT_MAX di).reg, ((d.set (F.DRC_DI_REF_DEBT_MAX di) (max (d.get (F.DRC_DI_REF_DEBT_MAX di)) (c.debt + 1))).rd
            (F.DRC_DI_REF_DEBT_MAX di).reg))] (fun d => { d with drc := t.dev.drc }) ∧
          (t.dev.chRank i).debt = c.debt + 1 ∧ (t.dev.chRank i).pair = c.pair ∧ (t.dev.chRank i).dueAt = dueAt) ∧
        (due → ¬ goes → joins ∨ d.debtLimit c.cls ≤ c.debt → ∃ t, exec (.refreshDue ch r) s = .next t ∧ (t.dev.chRank i).debt = c.debt ∧
          (t.dev.chRank i).must = c.must + 1 ∧ (t.dev.chRank i).pair = c.pair ∧ t.dev.get (F.DRC_DI_REF_INSERTED di) =
            min (2 ^ (F.DRC_DI_REF_INSERTED di).w - 1) (d.get (F.DRC_DI_REF_INSERTED di) + 1))) ∧
      (∀ (i : Fin 8) (r : Fin 32) (k : Fin 4),
        let c := d.chRank i
        let due := d.memTakes = true ∧ d.hasRank i = true ∧ c.polledAt + max 1 (d.get F.DRC_TEMP_POLL) * 1000000 ≤ d.now
        let e := d.set ⟨Reg.DRC_DI_MR4 (i.val / 4), 8 * (i.val % 4), 5⟩ r
        let acts := c.cls < k.val ∨ k.val < c.cls ∧ c.cool = some k.val
        let pays := d.debtLimit k.val < c.debt
        (¬ due → exec (.mr4Poll i r k) s = .next s) ∧
        (due → k.val = c.cls → exec (.mr4Poll i r k) s = .next (s.withDev (e.modCr i fun x => { x with polledAt := d.now, cool := none }))) ∧
        (due → k.val < c.cls → c.cool ≠ some k.val →
          exec (.mr4Poll i r k) s = .next (s.withDev (e.modCr i fun x => { x with polledAt := d.now, cool := some k.val }))) ∧
        (due → acts → (∃ t0, d.drc.fcAt = some t0 ∧ t0 + 1000 ≤ d.now) →
          exec (.mr4Poll i r k) s = .next (s.withDev (e.modCr i fun x => { x with polledAt := d.now, late := some k.val }))) ∧
        (due → acts → (∀ t0, d.drc.fcAt = some t0 → d.now < t0 + 1000) → ∃ t, exec (.mr4Poll i r k) s = .next t ∧
          (t.dev.chRank i).cls = k.val ∧ (t.dev.chRank i).cool = none ∧
          (t.dev.chRank i).debt = (if pays then 0 else c.debt) ∧ (t.dev.chRank i).must = (if pays then c.must + c.debt else c.must) ∧
          (t.dev.rd Reg.DRC_STATUS).getLsbD (16 + i.val) = decide (k ≠ 0) ∧
          t.dev.raised = d.raised ++ (if k.val < c.cls then (if k.val = 0 then [d.event Ev.DRC_COOL 15 none [crWord i]] else []) else
            (if pays then [] else [d.event Ev.DRC_HOT 15 none [crWord i, 0, 0, min k.val 2, 0]]) ++
            (if k.val = 3 then [d.event Ev.DRC_TEMP_LIMIT 15 none [crWord i]] else [])))) ∧
      (∀ i : Fin 8,
        let c := d.chRank i
        (d.now < c.winAt + trackNs c.cls → exec (.trackerWindowEnd i) s = .next s) ∧
        (c.winAt + trackNs c.cls ≤ d.now → exec (.trackerWindowEnd i) s = .next (s.withDev (d.modCr i fun x => { x with track := [], winAt := d.now })))) ∧
      (let due := d.memServes = true ∧ d.drc.wckAt + 100000000 ≤ d.now
       (∀ l, ¬ due → exec (.wckTrack l) s = .next s) ∧
       (due → exec (.wckTrack []) s = .next (s.withDev { d with drc := { d.drc with wckAt := d.now } })) ∧
       ∀ a b : Nat, due → (d.chRank 0).driftEvt = false → d.get F.DRC_TRACK_LIMIT < max a b → ∃ t, exec (.wckTrack [(a, b)]) s = .next t ∧
          t.dev.get (F.DRC_DI_DRIFT_PS 0) = max (d.get (F.DRC_DI_DRIFT_PS 0)) (min 0xFFFF (max a b)) ∧ (t.dev.chRank 0).driftEvt = true ∧
          t.dev.raised = d.raised ++ [d.event Ev.DRC_TRACK_LIMIT 15 none [0, 0, 0, if a < b then 1 else 0, max a b]]) ∧
      (let ended := d.bit F.DRC_STATUS_FC_BUSY = true ∧ ∃ t0, d.drc.fcAt = some t0 ∧ t0 + 11000 ≤ d.now
       (¬ ended → exec .opChangeDone s = .next s) ∧
       (ended → (∀ i : Fin 8, (d.chRank i).late = none) → ∃ t, exec .opChangeDone s = .next t ∧
        t.dev.get F.DRC_STATUS_FC_BUSY = 0 ∧ t.dev.get F.DRC_OP_RESULT = 2 ∧ t.dev.get F.DRC_STATUS_OP = d.get F.DRC_OP_TARGET ∧
        t.dev.get F.JOB_RT_RES_MBPS = min (d.effGet F.DRC_RT_RES) (if d.get F.DRC_OP_TARGET = 0 then 32000 else 16000) ∧
        t.dev.drc.fcAt = none ∧ t.dev.fresh = d.fresh + 16 ∧ (∀ di : Fin 2, d.get (F.DRC_DI_DRIFT_PS di) ≤ t.dev.get (F.DRC_DI_DRIFT_PS di)) ∧
        ∃ l, (∀ e ∈ l, e.code = (d.event Ev.DRC_TRACK_LIMIT 15 none []).code) ∧
          t.dev.raised = d.raised ++ l ++ [d.event Ev.DRC_OP_DONE 15 none [0, 0, 0, d.get F.DRC_OP_TARGET]]))) ∧
    (d.reaches 15 = true →
      (∀ op1 : Bool,
        let bars := d.printing = true ∨ d.memTakes = false ∨ d.mode = .boot
        let busy := d.bit F.DRC_STATUS_FC_BUSY = true
        let tight := op1 = true ∧ (d.set F.JOB_RT_RES_MBPS (min (d.effGet F.DRC_RT_RES) 16000)).overBudget d.job.checked = true
        let only := op1 = false ∧ d.bit F.DRC_STATUS_OP1_ONLY = true
        let refused (why : Nat) := exec (.opChangeRequest op1) s = .next (s.withDev
          (((d.set F.DRC_OP_RESULT 3).set F.DRC_OP_REASON why).raise Ev.DRC_REQ_REFUSED 15 none [0, 0, 0, why]))
        (bars → refused 1) ∧ (¬ bars → busy → refused 2) ∧ (¬ bars → ¬ busy → tight → refused 3) ∧ (¬ bars → ¬ busy → ¬ tight → only → refused 4) ∧
        (¬ bars → ¬ busy → ¬ tight → ¬ only → ∃ t, exec (.opChangeRequest op1) s = .next t ∧
          t.dev.get F.DRC_OP_TARGET = op1.toNat ∧ t.dev.get F.DRC_OP_REASON = 0 ∧ t.dev.raised = d.raised ∧
          (d.get F.DRC_STATUS_OP = op1.toNat → t.dev.get F.DRC_OP_RESULT = 2 ∧ t.dev.drc = d.drc ∧ t.dev.bit F.DRC_STATUS_FC_BUSY = false) ∧
          (d.get F.DRC_STATUS_OP ≠ op1.toNat → t.dev.get F.DRC_OP_RESULT = 1 ∧ t.dev.bit F.DRC_STATUS_FC_BUSY = true ∧
            t.dev.drc.fcAt = some d.now ∧ ∀ i : Fin 8, (t.dev.chRank i).debt = 0 ∧ (t.dev.chRank i).must = 0))) ∧
      (∀ i : Fin 2,
        (d.modeIn [.idle, .calibrate] = false → exec (.rankRetire i) s = .next (s.withDev (d.raise Ev.DRC_REQ_REFUSED 15 none [i.val, 0, 0, 1]))) ∧
        (d.modeIn [.idle, .calibrate] = true → d.spareOf i = 2 → exec (.rankRetire i) s = .next s) ∧
        (d.modeIn [.idle, .calibrate] = true → d.spareOf i = 1 → ∃ t, exec (.rankRetire i) s = .next t ∧ t.dev.spareOf i = 2 ∧
          t.dev.rd (Reg.DRC_DI_MIG i) = 0 ∧ t.dev.drc.migBad[i] = 0 ∧ t.dev.prsQ = d.prsQ ++ [(0x90 + i.val, t.dev.rd (Reg.DRC_DI_STATE i))] ∧
          t.dev.raised = d.raised ++ [d.event Ev.DRC_RANK_RETIRED 15 none [i.val, 0, 0, 3]]) ∧
        (d.modeIn [.idle, .calibrate] = true → d.spareOf i = 0 ∨ d.spareOf i = 3 →
          (d.drc.noSpare[i] = true → exec (.rankRetire i) s = .next s) ∧
          (d.drc.noSpare[i] = false → exec (.rankRetire i) s = .next (s.withDev
            (Dev.raise { d with drc := { d.drc with noSpare := d.drc.noSpare.set i true } } Ev.DRC_NO_SPARE 15 none [i.val, 0, 0])))) ∧
        (d.mode ≠ .idle ∨ d.spareOf i < 2 → exec (.unretire i) s = .next s) ∧
        (d.mode = .idle → 2 ≤ d.spareOf i → exec (.unretire i) s = .next (s.withDev
          { d with drc := { d.drc with unret := d.drc.unret.set i true }, prsQ := d.prsQ ++ [(0x90 + i.val, 0x40000000)] }))))

/-! ### Duplex (spec/14_duplex.md) -/

/-- The records of the tightrope (R335 to R343, R348, R351): what is sent when, that the first correct copy counts and later copies do not, and what each
record does where it is taken.
Where the spec leaves it open this rests on the model's choices of log entries 1, 40 and 53. -/
def Obligations.PairRecords : Prop :=
  ∀ s : State, s.dev.live 8 = true →
    let d := s.dev
    let up := d.mirrorsUp ≠ []
    let took (seq : Nat) : Dev := d.modDpx fun x => { x with seen := (seq :: x.seen).take 256 }
    let shadows := d.mode = .shadow
    let synced := shadows ∧ d.get F.DPX_STATUS_STATE = 2
    (d.role ≠ 1 → exec .heartbeatSend s = .next s ∧ exec .posRecordSend s = .next s ∧ ∀ q g, exec (.syncReqRx q g) s = .next s) ∧
    (∀ t, d.dpx.hbTx = some t → d.now < t + 100000 → exec .heartbeatSend s = .next s) ∧
    (∀ t, d.dpx.posTx = some t → d.now < t + 1000000 → exec .posRecordSend s = .next s) ∧
    (d.role = 1 → (∀ t, d.dpx.hbTx = some t → t + 100000 ≤ d.now) → ∃ t, exec .heartbeatSend s = .next t ∧
      t = s.withDev ((d.mirrorSend 0xA0 ([d.mode.code, 1, d.get F.ZXL_CLAIM_CLAIM, d.time.sec % 2 ^ 32, d.time.ns] ++ words48 (d.pos.hwm / 2 ^ 24)
        ++ d.dpx.fired.toList)).modDpx fun x => { x with hbTx := some d.now })) ∧
    (d.role = 1 → (∀ t, d.dpx.posTx = some t → t + 1000000 ≤ d.now) → exec .posRecordSend s = .next (s.withDev
      ((d.mirrorSend 0xA7 d.posWords).modDpx fun x => { x with posTx := some d.now }))) ∧
    (∀ seq : Nat, d.mirrorsUp = [] ∨ d.dpx.seen.contains seq = true →
      (∀ r, exec (.heartbeatRx seq r) s = .next s) ∧ (∀ r, exec (.schedRx seq r) s = .next s) ∧ (∀ b w v, exec (.lcrcRx seq b w v) s = .next s) ∧
      (∀ ws, exec (.nozRx seq ws) s = .next s) ∧ (∀ r, exec (.lampRx seq r) s = .next s) ∧ (∀ r, exec (.posRx seq r) s = .next s) ∧
      (∀ g, exec (.syncReqRx seq g) s = .next s) ∧ (∀ r, exec (.syncRx seq r) s = .next s) ∧ (∀ c w, exec (.takeoverRx seq c w) s = .next s)) ∧
    (∀ seq : Nat, up → d.dpx.seen.contains seq = false →
      (∀ r : HbRec, d.role = 2 → exec (.heartbeatRx seq r) s = .next (s.withDev ((took seq).takeHb seq r)) ∧
        ((took seq).takeHb seq r).dpx.hbAt = some d.now ∧ ((took seq).takeHb seq r).dpx.lost = false ∧
        ((took seq).takeHb seq r).get F.DPX_STATUS_PMODE = r.mode % 2 ^ F.DPX_STATUS_PMODE.w ∧
        ((took seq).takeHb seq r).get F.DPX_CLAIM_PARTNER = r.claim % 2 ^ F.DPX_CLAIM_PARTNER.w) ∧
      (∀ r : SchedRec, shadows → exec (.schedRx seq r) s = .next (s.withDev ((took seq).addSched r).findAllLines)) ∧
      (∀ ws, shadows → exec (.nozRx seq ws) s = .next (s.withDev ((took seq).loadNoz ws))) ∧
      (∀ r : LampRec, shadows → exec (.lampRx seq r) s = .next (s.withDev ((took seq).loadLamp r))) ∧
      (∀ (b : Bar) (w v : Nat), synced →
        (∀ o, (d.dpx.bars[b].own.find? fun o => o.1 = w) = some o → exec (.lcrcRx seq b w v) s = .next (s.withDev ((took seq).lcrcCompare b w o.2 v))) ∧
        ((d.dpx.bars[b].own.find? fun o => o.1 = w) = none → ∃ t, exec (.lcrcRx seq b w v) s = .next t ∧ t.dev.regs = d.regs ∧
          (w, v) ∈ t.dev.dpx.bars[b].recs)) ∧
      (∀ q g atC (ls : List (Option LineRef)), synced → exec (.setrecRx seq q g atC ls) s = .next (s.withDev (((took seq).modDpx fun x => { x with
        recs := x.recs ++ [{ seq := q, digest := g, atCapture := atC, lines := ls.map lineOf, at_ := d.now }] }).pairSets).hand)) ∧
      (∀ r : PosRec, synced →
        let own := (((d.web : Int) - d.speedI * d.sinceNs r.sec r.ns / 1000000000) % (webMod : Int)).toNat
        let diff := webDiff own r.web
        let e := ((took seq).wrPair Reg.DEN_LAST_LO Reg.DEN_LAST_HI r.denLast).wr Reg.DPX_POS_DIFF (BitVec.ofNat 32 (unsext 32 diff))
        (diff.natAbs ≤ (d.rd Reg.DPX_POS_TOL).toNat → exec (.posRx seq r) s = .next (s.withDev e)) ∧
        ((d.rd Reg.DPX_POS_TOL).toNat < diff.natAbs → d.dpx.divAt = none → exec (.posRx seq r) s = .next (s.withDev
          ((e.unguardAll.modDpx fun x => { x with divAt := some d.now }).raise Ev.DPX_POS_DIVERGE 15 none [15, unsext 32 diff])))) ∧
      (∀ g, d.role = 1 → ∃ t, exec (.syncReqRx seq g) s = .next t ∧
        t.dev.get F.DPX_STATUS_STATE = (if d.get F.DPX_STATUS_STATE = 4 then 3 else d.get F.DPX_STATUS_STATE) ∧ t.dev.sys = d.sys ∧ t.dev.raised = d.raised) ∧
      (∀ r : SyncRec, shadows → d.get F.DPX_STATUS_STATE = 1 → r.digest ≠ d.cfgDigest → exec (.syncRx seq r) s = .next (s.withDev ((took seq).syncFailed 1))) ∧
      (∀ r : SyncRec, shadows → d.get F.DPX_STATUS_STATE = 1 → r.digest = d.cfgDigest → ∃ t, exec (.syncRx seq r) s = .next t ∧
        t.dev.get F.DPX_STATUS_STATE = 2 ∧ t.dev.sys = d.sys ∧ t.dev.dpx.syncAt = none ∧
        t.dev.pair Reg.DEN_LAST_LO Reg.DEN_LAST_HI = r.pos.denLast % 2 ^ 64) ∧
      (∀ (b : Bar) (bank : Fin 2) (gs : List (BitVec 8)) (q : Nat), shadows →
        let e := (took seq).storeData (d.gainBase + (2 * b.val + bank.val) * 122880) gs
        let n := e.newSet 0 0 [(Reg.SCR_BAR_CFG b, (F.SCR_BAR_CFG_GAIN_BANK b).into (d.newestWord (Reg.SCR_BAR_CFG b)) bank)]
        let f := (n.1.set (F.DEN_BAR_LASTSET_SEQ b) q).set F.DPX_SET_SEQ q
        let x (line : Option LineRef) : SetRec :=
          { n.2 with lines := Vector.ofFn (fun y => if y = b then lineOf line else none), applied := 4095 - 2 ^ b.val }
        let g (line : Option LineRef) : Dev := { f with job := { f.job with sets := f.job.sets ++ [x line] } }
        (∀ l, exec (.gainsRx seq b bank gs none q (some l)) s = .next (s.withDev (g (some l)).showPending.hand)) ∧
        exec (.gainsRx seq b bank gs none q none) s = .next (s.withDev ((g none).applyAtOnce b (x none)).showPending.hand)) ∧
      (∀ c w : Nat, d.role = 1 → exec (.takeoverRx seq c w) s = .next (s.withDev (((took seq).set F.DPX_CLAIM_PARTNER c).depose)))) ∧
    (¬ shadows → ∀ seq : Nat, (∀ r, exec (.schedRx seq r) s = .next s) ∧ (∀ ws, exec (.nozRx seq ws) s = .next s) ∧ (∀ r, exec (.lampRx seq r) s = .next s) ∧
      (∀ r, exec (.posRx seq r) s = .next s) ∧ (∀ r, exec (.syncRx seq r) s = .next s) ∧ ∀ b w v, exec (.lcrcRx seq b w v) s = .next s)

/-- Sync, take-over and deposition (R338, R341, R342, R344, R345, R347, R348): when they are refused, which of two triggers of one cycle wins, and what a
deposition leaves; and the balls that a pair shares, which the standby does not drive (R333).
Where the spec leaves it open this rests on the model's choices of log entries 1, 40, 41 and 60. -/
def Obligations.TakeOvers : Prop :=
  ∀ s : State,
    let d := s.dev
    let block := if d.mode ≠ .shadow ∨ (∃ t, d.sys.trans = some t ∧ ¬ (t.host = true ∧ t.at_ = d.now)) ∨ ¬ (d.get F.DPX_STATUS_PMODE = 4 ∨ d.get F.DPX_STATUS_PMODE = 6) then 1
      else if 0xFFFF ≤ d.get F.DPX_CLAIM_PARTNER then 3 else 0
    (d.takeBlock = block) ∧
    (d.reaches 16 = true →
      (∀ cause, d.takeBlock = 0 → s.takeCause = some cause → exec .takeover s = .next (s.withDev (d.takeOver cause).hand)) ∧
      (d.takeBlock = 0 → s.takeCause = none → d.scheduledBars.all d.guarded = true → exec .takeover s = .next (s.withDev (d.takeOver 3).hand)) ∧
      (d.takeBlock = 0 → s.takeCause = none → d.scheduledBars.all d.guarded = false → exec .takeover s = .next (s.withDev (d.raise Ev.DPX_REFUSED 15 none [15, 2]).hand)) ∧
      (d.takeBlock ≠ 0 → exec .takeover s = .next (s.withDev (d.raise Ev.DPX_REFUSED 15 none [15, d.takeBlock]).hand)) ∧
      (∀ v : Word,
        (d.mode = .idle → ∃ t, exec (.claimSet v) s = .next t ∧ t.dev.get F.DPX_CLAIM_SET = v.toNat % 2 ^ 16 ∧ t.dev.get F.ZXL_CLAIM_CLAIM = v.toNat % 2 ^ 16 ∧
          t = s.withDev { d with regs := t.dev.regs } ∧ ∀ a, a ≠ Reg.DPX_CLAIM → a ≠ Reg.ZXL_CLAIM → t.dev.rd a = d.rd a) ∧
        (d.mode ≠ .idle → exec (.claimSet v) s = .next (s.withDev (d.raise Ev.DPX_REFUSED 15 none [15, 1]))))) ∧
    (d.live 8 = true →
      (let excess := ∃ t, d.dpx.hbAt = some t ∧ t + 310000 ≤ d.now
       let lost := (d.modDpx fun x => { x with lost := true }).addSat F.DPX_HB_MISSED 3
       (s.heartbeatWaits = true ∨ d.mode ≠ .shadow ∨ ¬ excess ∨ d.dpx.lost = true ∨ d.effBit F.DPX_CFG_HB_TAKE = false → exec .heartbeatTimeout s = .next (s.withDev d.hand)) ∧
       (s.heartbeatWaits = false → d.mode = .shadow → excess → d.dpx.lost = false → d.effBit F.DPX_CFG_HB_TAKE = true →
         (d.takeBlock = 0 → exec .heartbeatTimeout s = .next (s.withDev (lost.takeOver 1).hand)) ∧
         (d.takeBlock = 3 → exec .heartbeatTimeout s = .next (s.withDev (lost.raise Ev.DPX_CLAIM_EXHAUSTED 15 none [15]).hand)) ∧
         (d.takeBlock = 1 → exec .heartbeatTimeout s = .next (s.withDev (lost.raise Ev.DPX_PARTNER_LOST 15 none [15]).hand)))) ∧
      (∀ t, d.dpx.syncAt = some t → d.mode = .shadow → d.get F.DPX_STATUS_STATE = 1 → t + 100000000 ≤ d.now →
        exec .syncTimeout s = .next (s.withDev (d.syncFailed 2)) ∧
        (d.sys.trans = none → (d.syncFailed 2).sys = { d.sys with trans := some { dest := .idle, cause := 0, host := false, at_ := d.now } }) ∧
        (d.sys.trans.isSome = true → (d.syncFailed 2).sys = d.sys)) ∧
      (d.dpx.syncAt = none ∨ d.mode ≠ .shadow ∨ d.get F.DPX_STATUS_STATE ≠ 1 → exec .syncTimeout s = .next s) ∧
      (∀ t, d.dpx.syncAt = some t → d.now < t + 100000000 → exec .syncTimeout s = .next s) ∧
      (let tmo := max 1 (d.effGet F.DPX_CFG_SETTMO) * 1000000
       (∀ r rs, d.dpx.held = [] → d.dpx.recs = r :: rs → r.at_ + tmo ≤ d.now → exec .setPairTimeout s = .next (s.withDev
         (((((d.modDpx fun x => { x with recs := rs }).raise Ev.DPX_SET_MISMATCH 15 none [15, 3, r.seq % 2 ^ 16]).unguardAll).showHeld).hand))) ∧
       (∀ h hs, d.dpx.held = h :: hs → d.dpx.recs = [] → h.at_ + tmo ≤ d.now →
         let e := ((d.modDpx fun x => { x with held := hs }).raise Ev.DPX_SET_MISMATCH 15 none [15, 3, h.set_.seq % 2 ^ 16]).unguardAll
         let f : Dev := { e with job := { e.job with sets := e.job.sets ++ [h.set_] } }
         exec .setPairTimeout s = .next (s.withDev
           ((allBars.foldl (fun (d : Dev) (b : Fin 12) => d.applyAtOnce b h.set_) f).showPending.showHeld.hand))) ∧
       ((∀ h ∈ d.dpx.held.head?, d.now < h.at_ + tmo) → (∀ r ∈ d.dpx.recs.head?, d.now < r.at_ + tmo) →
         exec .setPairTimeout s = .next (s.withDev d.hand))) ∧
      (∀ (b : Bar) (v : Nat), s.lossWaits = false →
        (d.dpx.bars[b].mism = [] → exec (.lcrcRecompute b v) s = .next (s.withDev d.hand)) ∧
        (∀ w own x r, d.dpx.bars[b].mism = (w, own, x) :: r →
          let e := d.modDpxBar b fun y => { y with mism := r }
          let counts := d.mode = .shadow ∧ d.guarded b = true ∧ d.get (F.ZXL_BAR_WIRE_COUNT b) < w
          (¬ counts → exec (.lcrcRecompute b v) s = .next (s.withDev e.hand)) ∧
          (counts → v ≠ own → exec (.lcrcRecompute b v) s = .next (s.withDev
            (((e.addSat (F.DPX_BAR_MISM_SELF b) 1).raise Ev.DPX_SELF_FAULT b.val none [b.val]).setGuard b false).hand)) ∧
          (counts → v = own →
            let run := min 15 (d.get (F.DPX_BAR_MISM_RUN b) + 1)
            let f := ((e.addSat (F.DPX_BAR_MISM_CONFIRMED b) 1).addSat (F.DPX_BAR_MISM_RUN b) 1).raiseC Ev.DPX_LCRC_MISMATCH b b.val none [b.val, w, run] 1 []
            (run ≠ 4 ∨ d.effBit F.DPX_CFG_CRC_TAKE = false → exec (.lcrcRecompute b v) s = .next (s.withDev f.hand)) ∧
            (run = 4 → d.effBit F.DPX_CFG_CRC_TAKE = true → exec (.lcrcRecompute b v) s = .next (s.withDev (f.takeTrigger 2).hand)))))) ∧
    (d.role = 1 → 2 ≤ d.mode.code → d.mode.code ≤ 8 → d.mode ≠ .idle → devSource .safe d.mode = true → d.sys.trans = none →
      d.depose.role = 2 ∧ d.depose.get F.DPX_STATUS_STATE = 5 ∧ d.depose.raised = d.raised ∧
      d.depose.sys = { d.sys with trans := some { dest := .safe, cause := 7, host := false, at_ := d.now,
                                                  evs := [d.event Ev.DPX_DEPOSED 15 none [15]] } }) ∧
    (d.role ≠ 1 ∨ d.mode.code < 2 ∨ 8 < d.mode.code → d.depose = d) ∧
    (d.mode = .shadow → d.lampOut = false ∧
      (Nat.testBit (d.effGet F.DPX_CFG_SHARE) 0 = true → ∀ n, d.stbBall n = none) ∧
      (Nat.testBit (d.effGet F.DPX_CFG_SHARE) 1 = true → ∀ k, d.cmpBall k = none) ∧
      (Nat.testBit (d.effGet F.DPX_CFG_SHARE) 3 = true → ∀ p, d.expBall p = none)) ∧
    (d.dpx.passValid ≠ 0 →
      let e := d.modDpx fun x => { x with passValid := 0, passOther := 0 }
      d.depositionPass = if d.dpx.passValid < 2 * d.dpx.passOther then e.depose else e)

/-! ### Network time (spec/15_time.md) -/

/-- The servo and its messages (R353 to R360): messages of other ports and domains, the measurement that a Sync or its Follow_Up makes, the terms and the
state of the servo, steps made at once or held pending, the path delay, and the messages sent; a measurement changes nothing but the time block.
Where the spec leaves it open this rests on the model's choices of log entries 1, 42, 43, 44, 45, 60, 62 and 68. -/
def Obligations.TheServo : Prop :=
  ∀ s : State, s.dev.live 3 = true →
    let d := s.dev
    let dom := d.effGet F.PTP_CFG_DOMAIN
    let drop := s.withDev (d.addSat F.PTP_RXDROP_COUNT 1)
    let done (e : Dev) := s.withDev (e.idleStepNow s.syncWaits)
    (d.ptpEn = false → exec .ptpRxDiscard s = .next s ∧ exec .ptpSyncSend s = .next s ∧ exec .ptpDelayReqSend s = .next s ∧ exec .announceTimeout s = .next s ∧
      exec .syncLoss s = .next s) ∧
    (d.ptpEn = true → exec .ptpRxDiscard s = .next drop) ∧
    (∀ m : SyncMsg, d.ptpEn = false ∨ m.port.val ≠ d.ptpPort → exec (.ptpSync m) s = .next (done d)) ∧
    (∀ m : DelayMsg, d.ptpEn = false ∨ m.port.val ≠ d.ptpPort → exec (.ptpDelayResp m) s = .next s) ∧
    (∀ m : ReqMsg, d.ptpEn = false ∨ m.port.val ≠ d.ptpPort → exec (.ptpDelayReqRx m) s = .next s) ∧
    (∀ (p : Fin 2) (n src q o : Nat) (c : Int), d.ptpEn = false ∨ p.val ≠ d.ptpPort → exec (.ptpFollowUp p n src q o c) s = .next (done d)) ∧
    (∀ m : SyncMsg, d.ptpEn = true → m.port.val = d.ptpPort → m.domain ≠ dom → exec (.ptpSync m) s = .next (done drop.dev)) ∧
    (∀ m : SyncMsg, d.ptpEn = true → m.port.val = d.ptpPort → m.domain = dom →
      let t2 := d.ingressTime m.ago
      let base := (m.origin : Int) + m.corr + d.asym
      let p := { d.ptp with syncAt := d.now }
      (d.ptpMaster = true ∨ d.ptp.master ≠ some m.src → exec (.ptpSync m) s = .next (done d)) ∧
      (d.ptpMaster = false → d.ptp.master = some m.src → m.twoStep = true → exec (.ptpSync m) s = .next (done
        { d with ptp := { p with wait := some (m.seq, t2, base) } })) ∧
      (d.ptpMaster = false → d.ptp.master = some m.src → m.twoStep = false → exec (.ptpSync m) s = .next (done
        (Dev.measure { d with ptp := { p with last := some (t2, base), wait := none } } (t2 - base - d.ptp.delay))))) ∧
    (∀ (p : Fin 2) (src q o : Nat) (c t2 base : Int), d.ptpEn = true → p.val = d.ptpPort → d.ptpMaster = false → d.ptp.master = some src →
      d.ptp.wait = some (q, t2, base) → exec (.ptpFollowUp p dom src q o c) s = .next (done
        (Dev.measure { d with ptp := { d.ptp with last := some (t2, base + o + c), wait := none } } (t2 - (base + o + c) - d.ptp.delay)))) ∧
    (d.ptp.idleStep = false ∨ s.syncWaits = true → ∀ e : Dev, e.ptp.idleStep = d.ptp.idleStep → done e = s.withDev e) ∧
    (∀ e : Dev, e.ptp.idleStep = true → e.bit F.PTP_STATUS_STEP_PEND = true → s.syncWaits = false →
      (done e).dev.time = e.time.move e.ptp.step ∧ (done e).dev.bit F.PTP_STATUS_STEP_PEND = false ∧ (done e).dev.ptp.idleStep = false) ∧
    (∀ o : Int,
      let e := d.measure o
      let run := if o.natAbs ≤ d.get F.PTP_SERVO_LOCK_NS * 2 ^ 16 then d.ptp.run + 1 else 0
      let big := if d.ptp.ahead = decide (0 < o) then d.ptp.big + 1 else 1
      let conf := max 1 (d.get F.PTP_SERVO_STEP_CONF)
      e = { d with time := e.time, ptp := e.ptp, regs := e.regs, raised := e.raised } ∧
      (o.natAbs ≤ 1000 * 2 ^ 16 → d.bit F.PTP_STATUS_STEP_PEND = false → e.time = d.time ∧
        e.ptp.r = clampI (-1000000 * 2 ^ 24) (1000000 * 2 ^ 24) (d.ptp.r - o * d.get F.PTP_SERVO_KI) ∧
        e.ptp.s = clampI (-100000 * 2 ^ 24) (100000 * 2 ^ 24) (-(o * d.get F.PTP_SERVO_KP * 2 ^ 8)) ∧
        e.getI F.PTP_RATE_RATE = roundDiv (e.ptp.r + e.ptp.s) (2 ^ 16) ∧ e.ptpState = (if d.ptpState = 2 ∧ 0 < run ∨ 16 ≤ run then 2 else 1)) ∧
      (1000 * 2 ^ 16 < o.natAbs → d.bit F.PTP_STATUS_STEP_PEND = false → big < conf →
        e.time = d.time ∧ e.ptp.r = d.ptp.r ∧ e.ptp.s = d.ptp.s ∧ e.ptp.big = big ∧ e.raised = d.raised) ∧
      (1000 * 2 ^ 16 < o.natAbs → d.bit F.PTP_STATUS_STEP_PEND = false → conf ≤ big → d.modeIn [.print, .shuttle, .hold, .shadow] = false →
        e.time = d.time.move (-o) ∧ e.ptp.r = d.ptp.r ∧ e.ptp.s = d.ptp.s ∧ e.ptp.big = 0) ∧
      (1000 * 2 ^ 16 < o.natAbs → d.bit F.PTP_STATUS_STEP_PEND = false → conf ≤ big → d.modeIn [.print, .shuttle, .hold, .shadow] = true →
        e.time = d.time ∧ e.bit F.PTP_STATUS_STEP_PEND = true ∧ e.ptp.step = -o ∧
        (d.ptpMaster = false → d.ptpState = 1 ∨ d.ptpState = 2 → e.ptpState = 3 ∧ e.ptp.r = d.ptp.rLock ∧ e.ptp.s = 0))) ∧
    (∀ m : DelayMsg, d.ptpEn = true → m.port.val = d.ptpPort → m.domain = dom → m.p2p = false → d.effBit F.PTP_CFG_P2P = false → d.ptpMaster = false →
      d.ptp.master = some m.src →
      (d.ptp.req = none → exec (.ptpDelayResp m) s = .next s) ∧
      (∀ t3 t2 base, d.ptp.req = some (m.seq, t3) → d.ptp.last = some (t2, base) →
        let x := ((t2 - base) + ((m.rx : Int) - t3) - m.corr) / 2
        ∃ t, exec (.ptpDelayResp m) s = .next t ∧
          s.gives t [(Reg.PTP_PATHDLY, BitVec.ofNat 32 (unsext 32 (roundDiv x (2 ^ 12))))] fun d => { d with ptp := { d.ptp with req := none, delay := x } })) ∧
    (d.ptpEn = true → d.ptpMaster = false → d.effBit F.PTP_CFG_P2P = false →
      (d.ptp.master = none → exec .ptpDelayReqSend s = .next s) ∧
      (d.ptp.master.isSome = true → (∀ t, d.ptp.txReq = some t → t + d.dreqNs ≤ d.now) → exec .ptpDelayReqSend s = .next (s.withDev
        { d with ptp := { d.ptp with req := some (d.ptp.seqReq, d.egressTime), txReq := some d.now, seqReq := (d.ptp.seqReq + 1) % 2 ^ 16 },
                 sent := d.sent ++ [.net d.ptpPort 0x88F7 [1, d.effGet F.PTP_CFG_UDP, dom, d.ptp.seqReq]] }))) ∧
    (∀ m : ReqMsg, d.ptpEn = true → m.port.val = d.ptpPort → m.domain = dom → m.p2p = false → d.effBit F.PTP_CFG_P2P = false →
      (d.ptpMaster = false → exec (.ptpDelayReqRx m) s = .next s) ∧
      (d.ptpMaster = true → exec (.ptpDelayReqRx m) s = .next (s.withDev { d with sent := d.sent ++ [.net d.ptpPort 0x88F7
        ([9, d.effGet F.PTP_CFG_UDP, dom, m.src, m.seq] ++ timeWords (d.ingressTime m.ago) ++ [unsext 64 m.corr])] }))) ∧
    (d.ptpEn = true → d.ptpMaster = true → (∀ t, d.ptp.txSync = some t → t + d.syncNs ≤ d.now) → (∃ t, d.ptp.txAnn = some t ∧ d.now < t + d.annNs) →
      d.effBit F.PTP_CFG_TWOSTEP = false → exec .ptpSyncSend s = .next (s.withDev
        { d with ptp := { d.ptp with txSync := some d.now, seqSync := (d.ptp.seqSync + 1) % 2 ^ 16 },
                 sent := d.sent ++ [.net d.ptpPort 0x88F7 ([0, d.effGet F.PTP_CFG_UDP, dom, d.ptp.seqSync, 0] ++ timeWords d.egressTime)] }))

/-- Masters, the host's time operations and the network links (R353, R357, R358, R365, R439): the best data set heard is followed, a lost master leads
into the lightship, SET_TIME steps in master-only role alone.
Where the spec leaves it open this rests on the model's choices of log entries 1, 42, 43, 45, 60 and 62. -/
def Obligations.MastersAndTime : Prop :=
  ∀ s : State,
    let d := s.dev
    (d.live 3 = true →
      (∀ m : AnnMsg,
        (d.ptpEn = false ∨ m.port.val ≠ d.ptpPort → exec (.ptpAnnounce m) s = .next s) ∧
        (d.ptpEn = true → m.port.val = d.ptpPort → m.domain = d.effGet F.PTP_CFG_DOMAIN →
          (d.ptpMaster = true → exec (.ptpAnnounce m) s = .next s) ∧
          (d.ptpMaster = false → ∃ t best, exec (.ptpAnnounce m) s = .next t ∧ best ∈ t.dev.ptp.foreign ∧ t.dev.ptp.master = some best.src ∧
            (∀ f ∈ t.dev.ptp.foreign, best.key ≤ f.key) ∧ (∃ f ∈ t.dev.ptp.foreign, f.src = m.src ∧ f.key = annKey m) ∧
            t.dev.get F.PTP_GMID_LO_ID = best.gm % 2 ^ 32 ∧ t.dev.get F.PTP_GMID_HI_ID = best.gm / 2 ^ 32 % 2 ^ 32 ∧
            (d.ptp.master = none → t.dev.get F.PTP_STATUS_MASTER = 1 ∧ t.dev.ptpState = (if d.ptpState = 0 then 1 else d.ptpState)) ∧
            t = s.withDev { d with ptp := t.dev.ptp, regs := t.dev.regs, raised := t.dev.raised }))) ∧
      (let lost (t : State) : Prop := t.dev.ptp.master = none ∧ t.dev.get F.PTP_STATUS_MASTER = 0 ∧
         (d.ptpState = 1 ∨ d.ptpState = 2 → t.dev.ptpState = 3 ∧ t.dev.ptp.r = d.ptp.rLock ∧ t.dev.ptp.s = 0 ∧
           t.dev.raised = d.raised ++ [d.event Ev.PTP_LIGHTSHIP 15 none [0, 0, 0, 1]]) ∧
         t = s.withDev { d with ptp := t.dev.ptp, regs := t.dev.regs, raised := t.dev.raised }
       d.ptpEn = true → d.ptpMaster = false → d.ptp.master.isSome = true →
         ((∀ m, .ptpAnnounce m ∈ s.pending → d.fromMaster m = false) → d.ptp.annAt + d.annTmo ≤ d.now → ∃ t, exec .announceTimeout s = .next t ∧ lost t) ∧
         (∀ m, .ptpAnnounce m ∈ s.pending → d.fromMaster m = true → exec .announceTimeout s = .next s) ∧
         (d.now < d.ptp.annAt + d.annTmo → exec .announceTimeout s = .next s) ∧
         (d.ptp.syncAt + 4 * d.syncNs ≤ d.now → ∃ t, exec .syncLoss s = .next t ∧ lost t) ∧
         (d.now < d.ptp.syncAt + 4 * d.syncNs → exec .syncLoss s = .next s)) ∧
      (∀ p : Fin 2, (∃ t, exec (.netLinkUp p) s = .next t ∧ s.gives t [(Reg.NET_P_STATUS p, (F.NET_P_STATUS_UP p).into (d.rd (Reg.NET_P_STATUS p)) 1)]) ∧
        ∃ t, exec (.netLinkDown p) s = .next t ∧ s.gives t [(Reg.NET_P_STATUS p, (F.NET_P_STATUS_UP p).into (d.rd (Reg.NET_P_STATUS p)) 0)])) ∧
    (d.reaches 17 = true →
      (d.ptpMaster = false → exec .setTime s = .next s) ∧
      (let x : Time := { sec := d.effPair Reg.PTP_SET_SEC_LO Reg.PTP_SET_SEC_HI % 2 ^ 48, ns := d.get F.PTP_SET_NS_NS, frac := d.effGet F.PTP_SET_SEC_HI_FRAC }
       d.ptpMaster = true →
         (d.modeIn [.print, .shuttle, .hold, .shadow] = false → ∃ t, exec .setTime s = .next t ∧ t.dev.time = Time.ofUnits x.units ∧
           t = s.withDev { d with time := t.dev.time, ptp := t.dev.ptp, regs := t.dev.regs, raised := t.dev.raised }) ∧
         (d.modeIn [.print, .shuttle, .hold, .shadow] = true → ∃ t, exec .setTime s = .next t ∧ t.dev.bit F.PTP_STATUS_STEP_PEND = true ∧
           t.dev.ptp.step = (x.units : Int) - d.time.units ∧ t = s.withDev { d with ptp := t.dev.ptp, regs := t.dev.regs, raised := t.dev.raised })) ∧
      (∃ t, exec .timeCapture s = .next t ∧ s.gives t [(Reg.PTP_CAP_SEC_LO, BitVec.ofNat 32 d.time.sec),
        (Reg.PTP_CAP_SEC_HI, BitVec.ofNat 32 (d.time.frac % 2 ^ 16 * 2 ^ 16 + d.time.sec / 2 ^ 32 % 2 ^ 16)), (Reg.PTP_CAP_NS, BitVec.ofNat 32 d.time.ns)]))

/-- The action slots (R361, R362, R364): arming, cancelling, and a firing, which is a write of the slot's target mode to SYS_MODE_REQ.
Where the spec leaves it open this rests on the model's choices of log entries 1, 45, 46 and 60. -/
def Obligations.ActionSlots : Prop :=
  ∀ (s : State) (a : Fin 4),
    let d := s.dev
    let ctl := Reg.PTP_ACT_CTL a
    let late := (d.time.units - d.actTarget a) / 2 ^ 16
    (d.reaches 17 = true →
      (∀ m : Fin 16,
        let w (st : Nat) : Word := (F.PTP_ACT_CTL_STATE a).into ((F.PTP_ACT_CTL_REASON a).into ((F.PTP_ACT_CTL_TARGET a).into (d.rd ctl) m.val) 0) st
        (d.mode = .boot → exec (.actionArm a m) s = .next s) ∧
        (d.mode ≠ .boot → d.actState a = 1 → exec (.actionArm a m) s = .next (s.withDev (d.raise Ev.PTP_ACT_REFUSED 15 none [a, 0, 0, 0xFF]))) ∧
        (d.mode ≠ .boot → d.actState a ≠ 1 → d.time.units + 10000 * 2 ^ 16 ≤ d.actTarget a → ∃ t, exec (.actionArm a m) s = .next t ∧
          s.gives t [(ctl, w 1)]) ∧
        (d.mode ≠ .boot → d.actState a ≠ 1 → d.actTarget a < d.time.units + 10000 * 2 ^ 16 → ∃ t, exec (.actionArm a m) s = .next t ∧
          s.gives t [(ctl, w 5)] fun d => d.raise Ev.PTP_ACT_REFUSED 15 none [a, 0, 0, 0xFE])) ∧
      (d.actState a ≠ 1 → exec (.actionCancel a) s = .next s) ∧
      (d.actDue a = true → exec (.actionCancel a) s = .next s) ∧
      (d.actState a = 1 → d.actDue a = false → ∃ t, exec (.actionCancel a) s = .next t ∧ s.gives t [(ctl, (F.PTP_ACT_CTL_STATE a).into (d.rd ctl) 4)])) ∧
    (d.live 1 = true → d.live 3 = true → d.frz = none →
      (d.actState a ≠ 1 ∨ d.time.units < d.actTarget a ∨ d.mode = .boot → exec (.actionFire a) s = .next (s.withDev d.hand)) ∧
      (let e : Dev := { d with ptp := { d.ptp with firedAt := some d.now } }
       d.actFires a = true →
        (d.get F.SYS_MODE_REQ_RESULT = 1 → exec (.actionFire a) s = .next (s.withDev
          (((e.raise Ev.MODE_REFUSED 15 none [modeWord d.mode.code d.mode.code 2]).actRefused a late 2).hand))) ∧
        (d.get F.SYS_MODE_REQ_RESULT ≠ 1 → exec (.actionFire a) s = .next (s.withDev
          (Dev.hand (Dev.request { e with ptp := { e.ptp with act := some (a.val, late) } } (d.get (F.PTP_ACT_CTL_TARGET a)))))))) ∧
    (d.ptp.act = some (a.val, late) → d.actDone.actState a = 2 ∧ d.actDone.ptp.act = none ∧
      d.actDone.raised = d.raised ++ [d.event Ev.PTP_ACT_DONE 15 none ([a.val] ++ nsWords late)])

/-! ### Bring-up (spec/16_bring_up.md) -/

/-- Sources of SYSTEM and DEVICE reach (R368, R371 to R373, R375, R377, R379, R380): the device goes to BOOT with no transition and no image, the cause is
recorded, every powered domain from PD1 on is reset or waits for its clock to be, and the job store keeps its bytes.
Where the spec leaves it open this rests on the model's choices of log entries 4, 12, 16, 17, 60 and 69. -/
def Obligations.WideResets : Prop :=
  ∀ s : State,
    let d := s.dev
    let wide (bit : Nat) (o : Host.Outcome State Fault Refusal) : Prop := ∃ t, o = .next t ∧ t.pending = s.pending ∧ t.dev.sys = {} ∧ t.dev.frz = none ∧
      t.dev.image = none ∧ t.dev.boot.step = 0 ∧ Nat.testBit (t.dev.get F.RPC_CAUSE_SRC) bit = true ∧ t.dev.store = d.store ∧
      (∀ p : Fin 12, p ≠ 0 → d.doms[p].st ≠ .off → t.dev.doms[p].st = .reset ∨ t.dev.doms[p].st = .pending) ∧
      (d.doms[(10 : Fin 12)].st ≠ .off → t.dev.pos = {} ∧ t.dev.bars = Vector.replicate 12 {})
    (d.boot.por = true → exec .vinLow s = .next s ∧ exec .watchdogExpiry s = .next s ∧ (∀ p n, exec (.brownout p n) s = .next s) ∧
      exec .rstnAssert s = .next (s.withDev { d with boot := { d.boot with rstn := true } })) ∧
    (d.boot.por = false → exec .powerOn s = .next s ∧
      wide 4 (exec .rstnAssert s) ∧
      (let late := d.boot.dogAt + 1000000 * d.get F.RPC_WDOG_MS ≤ d.now
       (d.runs 1 = true → d.mode ≠ .frozen → late → wide 11 (exec .watchdogExpiry s)) ∧
       (¬ late → exec .watchdogExpiry s = .next s)) ∧
      (d.runs 1 = false ∨ d.mode = .frozen → exec .watchdogExpiry s = .next s) ∧
      (∀ n, d.doms[(0 : Fin 12)].st ≠ .off → wide 1 (exec (.brownout 0 n) s)) ∧
      (∀ n, d.doms[(1 : Fin 12)].st ≠ .off → wide 2 (exec (.brownout 1 n) s)) ∧
      (∀ p n, d.doms[p].st = .off → exec (.brownout p n) s = .next s) ∧
      (∃ t, exec .vinLow s = .next t ∧ t.pending = s.pending ∧ t.dev.boot.por = true ∧ t.dev.sys = {} ∧ t.dev.image = none ∧
        t.dev.store = (if d.drc.selfRef then d.store else []) ∧
        (d.frz = none → t.dev.prsFailed = d.prsFailed ∧ (∀ w : Fin 8192, t.dev.rd (Reg.PRS_WORD w) = d.rd (Reg.PRS_WORD w)) ∧
          (∀ m : Fin 16, t.dev.rd (Reg.LMP_MOD_ID m) = BitVec.ofNat 32 (d.prsWord (0x200 + 4 * m.val)) ∧
            t.dev.rd (Reg.LMP_MOD_HOURS m) = BitVec.ofNat 32 (d.prsWord (0x201 + 4 * m.val))) ∧
          (∀ i : Fin 2, t.dev.spareOf i = d.prsWord (0x90 + i) / 2 ^ 30 % 4)) ∧
        (∀ a, domAt a ≠ 0 → keepMask a = 0 → t.dev.rd a = resetWord a))) ∧
    (d.boot.por = true → ∃ t, exec .powerOn s = .next t ∧ t.dev.boot.por = false ∧ t.dev.get F.RPC_CAUSE_SRC = 1 ∧ t.dev.store = d.store ∧
      (∀ p : Fin 12, p ≠ 1 → t.dev.doms[p] = d.doms[p]) ∧
      (d.doms[(1 : Fin 12)].st = .off → d.doms[(1 : Fin 12)].src = 0 → t.dev.doms[(1 : Fin 12)].st = .releaseWait)) ∧
    (d.reaches 1 = true → ∀ (v : Master) (p : Fin 16) (b : Fin 256), wide 8 (exec (.swReset v 2 p b) s) ∧ wide 7 (exec (.swReset v 3 p b) s)) ∧
    (∀ c : Fin 4,
      let reach := d.critReach (c.val + 1)
      let covered := d.critCovered reach = true
      (d.boot.critAt = none → reach = min 2 (d.get ⟨Reg.RPC_CRIT, 2 * c.val, 2⟩) ∧ ¬ covered) ∧
      (d.mode = .sleep ∨ d.mode = .frozen → exec (.critError c) s = .next s) ∧
      (d.mode ≠ .sleep → d.mode ≠ .frozen → covered → ∃ t, exec (.critError c) s = .next t ∧
        s.gives t [(Reg.RPC_CRIT, F.RPC_CRIT_ERRORS.into (d.rd Reg.RPC_CRIT) (min 0xFFFF (d.get F.RPC_CRIT_ERRORS + 1)))]) ∧
      (d.mode ≠ .sleep → d.mode ≠ .frozen → ¬ covered → reach ≠ 0 → wide 12 (exec (.critError c) s)) ∧
      (devSource .safe d.mode = true → d.mode ≠ .idle → d.sys.trans = none → d.live 1 = true → ¬ covered → reach = 0 → ∃ t, exec (.critError c) s = .next t ∧
        s.gives t [(Reg.RPC_CRIT, F.RPC_CRIT_ERRORS.into (F.RPC_CRIT_LAST.into (d.rd Reg.RPC_CRIT) (c.val + 1)) (min 0xFFFF (d.get F.RPC_CRIT_ERRORS + 1)))]
          fun d =>
            let x : Trans := { dest := .safe, cause := 6, host := false, at_ := d.now, evs := [d.event Ev.CRIT_ERROR 15 none [0, c.val + 1]] }
            Dev.stbLow { d with sys := { d.sys with trans := some x } })) ∧
    (d.mode = .boot → d.boot.failed = true → d.boot.retryAt ≤ d.now → wide 15 (exec .bootRetry s)) ∧
    (d.mode ≠ .boot ∨ d.boot.failed = false ∨ d.now < d.boot.retryAt → exec .bootRetry s = .next s) ∧
    (∀ x, d.sys.trans = some x → d.mode ≠ .sleep → x.dest = .sleep → exec .wake s = .next (s.withDev { d with boot := { d.boot with wake := true } })) ∧
    (d.mode ≠ .sleep → d.sys.trans = none → exec .wake s = .next s) ∧
    (d.mode = .sleep → ∃ t, exec .wake s = .next t ∧ t.dev.sys = { prev := .sleep } ∧ Nat.testBit (t.dev.get F.RPC_CAUSE_SRC) 16 = true ∧
      t.dev.store = d.store ∧ t.dev.drc = d.drc ∧ t.dev.boot = { d.boot with step := 0, wake := false })

/-- Sources of DOMAIN and BLOCK reach, domains and clocks (R369 to R371, R373, R374, R376 to R378, R423, R450).
Where the spec leaves it open this rests on the model's choices of log entries 15, 16, 17, 60 and 69. -/
def Obligations.DomainsAndClocks : Prop :=
  ∀ s : State,
    let d := s.dev
    let one (p : Fin 12) (bit : Nat) (o : Host.Outcome State Fault Refusal) : Prop := ∃ t, o = .next t ∧ t.pending = s.pending ∧ t.dev.sys = d.sys ∧
      Nat.testBit (t.dev.get F.RPC_CAUSE_SRC) bit = true ∧ t.dev.doms[p].st = .reset ∧ (∀ q : Fin 12, q ≠ p → t.dev.doms[q].st = d.doms[q].st) ∧
      (∃ x ∈ t.dev.boot.srcs, x.bit = bit ∧ x.mask = 2 ^ p.val) ∧ ∀ a, domAt a ≠ p → a / 0x100000 ≠ 4 → a ≠ Reg.RPC_CAUSE → a ≠ Reg.RPC_SWRST →
        (p = 2 → domAt a ≠ 5) → (p = 9 → domAt a ≠ 8) → t.dev.rd a = d.rd a
    let held (p : Fin 12) := d.doms[p].st ≠ .off ∧ d.mode ≠ .frozen ∧ (syncDom p = true → d.clocked p = true)
    (∀ (p : Fin 12) (n : Nat), d.boot.por = false → 2 ≤ p.val → held p → one p 3 (exec (.brownout p n) s)) ∧
    (d.boot.por = true ∨ d.boot.perst = true → exec .perstAssert s = .next (s.withDev { d with boot := { d.boot with perst := true } })) ∧
    (d.boot.por = false → d.boot.perst = false → held 2 → one 2 5 (exec .perstAssert s)) ∧
    (∃ t, exec .perstRelease s = .next t ∧ t.dev.boot.perst = false ∧ t.dev.boot.srcs = d.boot.srcs.filter (fun x => x.bit ≠ 5) ∧ t.dev.regs = d.regs) ∧
    (∃ t, exec .rstnRelease s = .next t ∧ t.dev.boot.rstn = false ∧ t.dev.boot.srcs = d.boot.srcs.filter (fun x => x.bit ≠ 4) ∧ t.dev.regs = d.regs ∧
      ∀ p : Fin 12, d.doms[p].st = .reset → (∀ x ∈ d.boot.srcs, x.bit = 4 ∨ Nat.testBit x.mask p = false) → t.dev.doms[p].st = .releaseWait) ∧
    (d.runs 2 = false → exec .pcieLinkDown s = .next s) ∧
    (d.runs 2 = true → d.mode ≠ .frozen → one 2 6 (exec .pcieLinkDown s)) ∧
    (d.reaches 1 = true → ∀ (v : Master) (x : Fin 16) (b : Fin 256),
      (∀ p : Fin 12, p.val = x.val → d.domReason v x.val false = 0 → held p → one p 9 (exec (.swReset v 1 x b) s)) ∧
      (let e := (((d.set F.RPC_SWRST_REACH 1).set F.RPC_SWRST_DOM x.val).set F.RPC_SWRST_BLOCK b.val).set F.RPC_SWRST_REASON 0
       ∀ r, e.domReason v x.val false = r → r ≠ 0 → exec (.swReset v 1 x b) s = .next (s.withDev
         (((e.set F.RPC_SWRST_RESULT 3).set F.RPC_SWRST_REASON r).raise Ev.RST_REFUSED 15 none [x.val, r, 0]))) ∧
      (let e := (((d.set F.RPC_SWRST_REACH 0).set F.RPC_SWRST_DOM x.val).set F.RPC_SWRST_BLOCK b.val).set F.RPC_SWRST_REASON 0
       (∀ y, blockTarget b.val = some y → e.blockReason b.val = 0 → ∃ t, exec (.swReset v 0 x b) s = .next t ∧ t.dev.get F.RPC_SWRST_RESULT = 1 ∧
         t.dev.doms = d.doms ∧ t.dev.sys = d.sys ∧ t.dev.boot.srcs = d.boot.srcs ++ [{ bit := 10, mask := 0, block := some b.val, until_ := some (d.now + 10000) }]) ∧
       (∀ r, e.blockReason b.val = r → r ≠ 0 → exec (.swReset v 0 x b) s = .next (s.withDev
         (((e.set F.RPC_SWRST_RESULT 3).set F.RPC_SWRST_REASON r).raise Ev.RST_REFUSED 15 none [0, r, 0])))) ∧
      (∀ p : Fin 12, p.val = x.val →
        let e (o : Nat) := ((d.set F.RPC_PWR_OFF o).set F.RPC_PWR_DOM x.val).set F.RPC_PWR_REASON 0
        (d.domReason v x.val true = 0 → (∃ t, exec (.domainPowerDown v x) s = .next t ∧ t.dev.doms[p].st = .off ∧ t.dev.get F.RPC_PWR_RESULT = 2 ∧
          ((∀ n : Fin 8, d.crcRun n = false) → t.dev.raised = d.raised ++ [t.dev.event Ev.RST_DONE 15 none [x.val, 0]]) ∧ ∀ q : Fin 12, q ≠ p → t.dev.doms[q] = d.doms[q]) ∧
          (d.doms[p].st = .off → d.doms[p].src = 0 → ∃ t, exec (.domainPowerUp v x) s = .next t ∧ t.dev.doms[p].st = .releaseWait ∧
            t.dev.get F.RPC_PWR_RESULT = 1 ∧ ∀ q : Fin 12, q ≠ p → t.dev.doms[q] = d.doms[q]) ∧
          (d.doms[p].st ≠ .off → exec (.domainPowerUp v x) s = .next (s.withDev ((e 0).set F.RPC_PWR_RESULT 2)))) ∧
        (∀ r, d.domReason v x.val true = r → r ≠ 0 → exec (.domainPowerDown v x) s = .next (s.withDev
          ((((e 1).set F.RPC_PWR_RESULT 3).set F.RPC_PWR_REASON r).raise Ev.RST_REFUSED 15 none [x.val, r, 1]))))) ∧
    (∀ p : Fin 12,
      (d.doms[p].st ≠ .pending ∨ d.clocked p = false → exec (.resetTakeHold p) s = .next s) ∧
      (d.doms[p].st = .pending → d.clocked p = true → ∃ t, exec (.resetTakeHold p) s = .next t ∧
        t.dev.doms[p].st = (if d.doms[p].src = 0 then .releaseWait else .reset) ∧ (∀ q : Fin 12, q ≠ p → t.dev.doms[q] = d.doms[q]) ∧ t.dev.sys = d.sys) ∧
      ((∀ x ∈ d.boot.srcs, ∀ t, x.until_ = some t → d.now < t) →
        (d.releasable p = false → exec (.resetRelease p) s = .next s) ∧
        (d.releasable p = true → d.boot.step ≠ 0 → d.boot.step ≠ 11 → exec (.resetRelease p) s = .next (s.withDev
          ((Dev.loadImage { d with doms := d.doms.set p { d.doms[p] with st := .run, seen := 0 } } p).gridStart p))))) ∧
    (∀ p : Fin 12, d.releasable p = true ↔ d.doms[p].st = .releaseWait ∧ d.clocked p = true ∧ d.gate p = true ∧ d.doms[p].waitAt + releaseNs p ≤ d.now) ∧
    (∀ k : Fin 12,
      (k = 0 ∨ k = 8 ∨ 10 ≤ k.val ∨ d.clkGood k = false → exec (.clockLoss k) s = .next s) ∧
      (k ≠ 0 → k ≠ 1 → k ≠ 8 → k.val < 10 → d.clkGood k = true → d.live 1 = true → ∃ t, exec (.clockLoss k) s = .next t ∧
        s.gives t [(Reg.RPC_CLK, (⟨Reg.RPC_CLK, 16 + k.val, 1⟩ : Fld).into ((⟨Reg.RPC_CLK, k.val, 1⟩ : Fld).into (d.rd Reg.RPC_CLK) 0) 1)] fun d =>
          { d with raised := d.raised ++ [d.event Ev.CLK_LOST 15 none [0, k.val]] }) ∧
      (k = 0 ∨ k = 8 ∨ 10 ≤ k.val → exec (.clockGood k) s = .next s) ∧
      (d.clkGood k = true → exec (.clockGood k) s = .next s) ∧
      (k ≠ 0 → k ≠ 8 → k.val < 10 → d.clkGood k = false → ∃ t, exec (.clockGood k) s = .next t ∧
        s.gives t [(Reg.RPC_CLK, (⟨Reg.RPC_CLK, k.val, 1⟩ : Fld).into (d.rd Reg.RPC_CLK) 1)] fun d =>
          { d with doms := Vector.ofFn fun p => if (clocksOf p).contains k.val then { d.doms[p] with waitAt := d.now } else d.doms[p] })) ∧
    (d.reaches 1 = true → ∀ m : Word, ∃ t, exec (.causeClear m) s = .next t ∧ s.gives t [(Reg.RPC_CAUSE, d.rd Reg.RPC_CAUSE &&& ~~~(d.clears Reg.RPC_CAUSE m))]) ∧
    (∀ b : Fin 3,
      (d.boot.released = false → ∃ t, exec (.vioLoss b) s = .next t ∧
        s.gives t [(Reg.RPC_STATUS, (⟨Reg.RPC_STATUS, 20 + b.val, 1⟩ : Fld).into (d.rd Reg.RPC_STATUS) 0)] fun d => { d with sent := d.sent ++ [.pin 100 b.val false], stb := if b = 1 then d.stb.map (fun x => { x with high := false }) else d.stb }) ∧
      (d.live 1 = true → d.boot.released = true → ∃ t, exec (.vioLoss b) s = .next t ∧ t.dev.sent = d.sent ++ [.pin 100 b.val false] ∧
        Nat.testBit (t.dev.get F.RPC_STATUS_VIO) b.val = false ∧
        t.dev.raised = d.raised ++ [d.event Ev.BOOT_VIO_MISSING 15 none [0, 7 - t.dev.get F.RPC_STATUS_VIO]]) ∧
      (∃ t, exec (.vioRecover b) s = .next t ∧
        s.gives t [(Reg.RPC_STATUS, (⟨Reg.RPC_STATUS, 20 + b.val, 1⟩ : Fld).into (d.rd Reg.RPC_STATUS) 1)] fun d => { d with sent := d.sent ++ [.pin 100 b.val true] }))

/-- The boot steps (R384 to R386, R388): what a step that completes, fails or takes too long leads to under its policy, and the flash.
Where the spec leaves it open this rests on the model's choices of log entries 1, 18, 19 and 69. -/
def Obligations.BootSteps : Prop :=
  ∀ s : State,
    let d := s.dev
    let n := d.boot.step
    (d.booting = false → exec .bootStepTimeout s = .next s ∧ ∀ r, exec (.bootStepComplete r) s = .next s) ∧
    (d.booting = true →
      (d.now < d.boot.at_ + stepLimit n → exec .bootStepTimeout s = .next s) ∧
      (let fails (code : Nat) (t : State) : Prop :=
         t.dev.boot.failed = true ∧ t.dev.boot.retryAt = d.now + 10000000 ∧ t.dev.boot.step = n ∧ t.dev.sys = d.sys ∧
         t.dev.get F.RPC_BOOT_FAIL_STEP = n ∧ t.dev.get F.RPC_BOOT_FAIL_CODE = code ∧ t.dev.get F.RPC_BOOT_COUNT = min 3 (d.failCount n + 1) ∧
         t.dev.raised = d.raised ++ [d.event Ev.BOOT_STEP_FAILED 15 none [n * 2 ^ 8, code]]
       let halts (code : Nat) (t : State) : Prop :=
         t.dev.sys.halt = true ∧ t.dev.sys.mode = .boot ∧ t.dev.sys.cause = 0x0A ∧ t.dev.get F.RPC_BOOT_FAIL_STEP = n ∧ t.dev.get F.RPC_BOOT_FAIL_CODE = code
       (n = 1 ∨ n = 2 ∨ n = 3 ∨ n = 5 ∨ n = 8 → ∀ (c : Fin 256) (x : Nat), ∃ t, exec (.bootStepComplete (.fail c x)) s = .next t ∧ fails c.val t) ∧
       (n = 1 ∨ n = 2 ∨ n = 3 ∨ n = 5 ∨ n = 8 → d.boot.at_ + stepLimit n ≤ d.now → ∃ t, exec .bootStepTimeout s = .next t ∧ fails 0xFF t) ∧
       (n = 4 → d.sys.trans = none → ∀ (c : Fin 256) (x : Nat), ∃ t, exec (.bootStepComplete (.fail c x)) s = .next t ∧ halts c.val t) ∧
       (n = 4 → d.sys.trans = none → d.boot.at_ + stepLimit n ≤ d.now → ∃ t, exec .bootStepTimeout s = .next t ∧ halts 0xFF t) ∧
       (n = 9 → ∀ (c : Fin 256) (x : Nat), exec (.bootStepComplete (.fail c x)) s = .next s) ∧
       (n = 10 → d.sys.trans = none → ∀ (c : Fin 256) (x : Nat), ∃ t, exec (.bootStepComplete (.fail c x)) s = .next t ∧ t.dev.sys.mode = .idle ∧ t.dev.boot.step = 11 ∧
         Nat.testBit (t.dev.get F.RPC_BOOT_SKIPPED) 9 = true ∧ t.dev.doms[(11 : Fin 12)].st = .off) ∧
       (n = 4 → d.failCount 4 = 0 → d.failCount 5 < 3 → d.img.pcie = true → ∃ t, exec (.bootStepComplete .done) s = .next t ∧ t.dev.boot.step = 5 ∧
         t.dev.boot.last = 4 ∧ t.dev.boot.at_ = d.now ∧ t.dev.sys = d.sys ∧ t.dev.get F.RPC_STATUS_STEP = 5 ∧
         (d.doms[(2 : Fin 12)].st = .off → d.doms[(2 : Fin 12)].src = 0 → t.dev.doms[(2 : Fin 12)].st = .releaseWait)) ∧
       (n = 10 → d.sys.trans = none → ∃ t, exec (.bootStepComplete .done) s = .next t ∧ t.dev.sys.mode = .idle ∧ t.dev.sys.prev = .boot ∧ t.dev.boot.step = 11 ∧
         t.dev.boot.released = true ∧ t.dev.get F.RPC_STATUS_STEP = 11) ∧
       (n = 2 → ∀ (i : Image) (c x y : Bool),
         let vio := d.get F.RPC_STATUS_VIO % 2 = 1
         let refused := d.bit F.RPC_FUSE_SECURE = true ∧ y = false
         (¬ vio → ∃ t, exec (.bootStepComplete (.image i c y x)) s = .next t ∧ fails 0x26 t) ∧
         (vio → refused → ∃ t, exec (.bootStepComplete (.image i c y x)) s = .next t ∧ fails 0x24 t) ∧
         (vio → ¬ refused → exclOk i = false ∨ populationOk i = false → ∃ t, exec (.bootStepComplete (.image i c y x)) s = .next t ∧ fails 0x25 t)) ∧
       (n = 7 → d.lanesOpen ≠ [] → exec (.bootStepComplete .done) s = .next s))) ∧
    (d.reaches 1 = true →
      (d.get F.RPC_SPI_CTL_RESULT = 1 → (∀ v, exec (.spiRead v) s = .next s) ∧ ∀ v, exec (.spiWrite v) s = .next s) ∧
      (d.get F.RPC_SPI_CTL_RESULT ≠ 1 → ∀ v : Word,
        let len := F.RPC_SPI_CTL_LEN.of v
        let w (rd res why : Nat) : Word := F.RPC_SPI_CTL_REASON.into (F.RPC_SPI_CTL_RESULT.into (F.RPC_SPI_CTL_LEN.into (F.RPC_SPI_CTL_READ.into
          (F.RPC_SPI_CTL_X4.into (d.rd Reg.RPC_SPI_CTL) (F.RPC_SPI_CTL_X4.of v)) rd) len) res) why
        (d.mode ≠ .idle → d.sys.halt = false →
          (∃ t, exec (.spiRead v) s = .next t ∧ s.gives t [(Reg.RPC_SPI_CTL, w 1 3 2)]) ∧ ∃ t, exec (.spiWrite v) s = .next t ∧ s.gives t [(Reg.RPC_SPI_CTL, w 0 3 2)]) ∧
        (d.mode = .idle ∨ d.sys.halt = true →
          let go (rd : Bool) (bs : List (BitVec 8)) (e : Dev) : Dev :=
            { e with boot := { e.boot with spi := some (rd, min 256 len) },
                     sent := e.sent ++ [.spi rd (d.get F.RPC_SPI_ADDR_OPCODE) (d.get F.RPC_SPI_ADDR_ADDR) (bs.map (·.toNat))] }
          (∃ t, exec (.spiRead v) s = .next t ∧ s.gives t [(Reg.RPC_SPI_CTL, w 1 1 0)] (go true [])) ∧
          ∃ t, exec (.spiWrite v) s = .next t ∧ s.gives t [(Reg.RPC_SPI_CTL, w 0 1 0)] (go false
            ((List.range (min 256 len)).map fun i => BitVec.ofNat 8 ((d.rd (Reg.RPC_SPI_BUF (i / 4))).toNat / 2 ^ (8 * (i % 4)))))))) ∧
    (d.live 1 = true →
      (d.boot.spi = none → ∀ bs, exec (.spiDone bs) s = .next s) ∧
      (∀ len bs, d.boot.spi = some (false, len) → ∃ t, exec (.spiDone bs) s = .next t ∧
        s.gives t [(Reg.RPC_SPI_CTL, F.RPC_SPI_CTL_RESULT.into (d.rd Reg.RPC_SPI_CTL) 2)] fun d => { d with boot := { d.boot with spi := none } }) ∧
      (∀ (len : Nat) (b0 b1 b2 b3 : BitVec 8), d.boot.spi = some (true, len) → 4 ≤ len → ∃ t, exec (.spiDone [b0, b1, b2, b3]) s = .next t ∧
        s.gives t [(Reg.RPC_SPI_CTL, F.RPC_SPI_CTL_RESULT.into (d.rd Reg.RPC_SPI_CTL) 2), (Reg.RPC_SPI_BUF 0, b3 ++ b2 ++ b1 ++ b0)] fun d =>
          { d with boot := { d.boot with spi := none } }))

/-! ### Temperature, check values, persistent words, freeze and the TAP (spec/17_temperature.md, spec/18_integrity_and_debug.md) -/

/-- Temperature (R391 to R400): the reading of a count, broken sensors, when samples are taken, the limits with their hysteresis, and the trip, which the
hottest sensor that takes part brings about; and the first phase of the orderly stop, once the lines issued have fired.
Where the spec leaves it open this rests on the model's choices of log entries 1, 22, 47 and 70. -/
def Obligations.Temperature : Prop :=
  (∀ c c30 c110 : Nat, c30 < c110 →
    let den : Int := (c110 : Int) - c30
    (2 * (480 * den + 1280 * ((c : Int) - c30) - reading c c30 c110 * den)).natAbs ≤ den.natAbs) ∧
  (∀ c c30 : Nat, brokenCount c c30 = true ↔ 2 * c < c30 ∨ 2 * c30 < c) ∧
  (∀ (d : Dev) (n : Nat) (t : Int),
    let e := d.limits n t
    (1600 ≤ t → e.bit F.THM_STATUS_WARN = true) ∧ (t < 1568 → e.bit F.THM_STATUS_WARN = false) ∧
    (1568 ≤ t → t < 1600 → e.bit F.THM_STATUS_WARN = d.bit F.THM_STATUS_WARN) ∧
    (1680 ≤ t → e.bit F.THM_STATUS_THROT = true) ∧ (t < 1648 → e.bit F.THM_STATUS_THROT = false) ∧
    (1648 ≤ t → t < 1680 → e.bit F.THM_STATUS_THROT = d.bit F.THM_STATUS_THROT) ∧
    (t < 1840 → e.sys = d.sys ∧ e.bit F.THM_STATUS_STOP = d.bit F.THM_STATUS_STOP) ∧
    (1840 ≤ t → d.bit F.THM_STATUS_WARN = true → d.bit F.THM_STATUS_THROT = true → d.modeIn [.shutdown, .sleep, .frozen, .idle] = false →
      d.live 1 = true → d.sys.trans = none → e.bit F.THM_STATUS_STOP = true ∧ e.raised = d.raised ++ [d.event Ev.THM_STOP 15 none [n, unsext 16 t]] ∧
        e.sys = { d.sys with trans := some { dest := .shutdown, cause := 5, host := false, at_ := d.now } } ∧
        e.get F.LMP_HRC_STATUS_CODE = d.get F.LMP_HRC_SAFE_CODE)) ∧
  (∀ (d : Dev) (x : Trans), d.sys.trans = some x → x.dest = .shutdown → x.stop = 0 → x.stopAt ≤ d.now →
    (d.firesOver x = false → d.stopTick = d) ∧
    (d.firesOver x = true → d.stopTick.sys.trans = some { x with stop := 1, stopAt := d.now + 20000 } ∧ d.stopTick.job.sets = [] ∧
      (∀ n : Fin 8, d.stopTick.stb[n].high = false) ∧ ∀ n : Fin 32, d.stopTick.cmp[n].pulse = none)) ∧
  ∀ (s : State) (counts : List Nat),
    let d := s.dev
    let e := (List.finRange 16).foldl (fun (x : Dev) (n : Fin 16) => x.takeCount n (counts.getD n.val 0)) { d with thm := { d.thm with at_ := some d.now } }
    (∀ n : Fin 16,
      let broken := d.bit (F.THM_TS_TEMP_BROKEN n) || brokenCount (counts.getD n.val 0) (d.get (F.THM_TS_TRIM_C30 n))
      e.get (F.THM_TS_COUNT_COUNT n) = counts.getD n.val 0 % 2 ^ 16 ∧ e.bit (F.THM_TS_TEMP_BROKEN n) = broken ∧
      e.get (F.THM_TS_TEMP_TEMP n) = unsext 16 (if broken then 2400 else reading (counts.getD n.val 0) (d.get (F.THM_TS_TRIM_C30 n)) (d.get (F.THM_TS_TRIM_C110 n)))) ∧
    (∀ h, d.hottest = some h → h ∈ d.included ∧ ∀ n ∈ d.included, d.tsTemp n ≤ d.tsTemp h) ∧
    (d.live 0 = true →
      (d.now < d.thm.nextAt → exec (.thermalSample counts) s = .next s) ∧
      (d.thm.nextAt ≤ d.now →
        (e.hottest = none → exec (.thermalSample counts) s = .next (s.withDev { e with thm := { e.thm with nextAt := d.now + 10000000 } })) ∧
        (∀ h, e.hottest = some h → d.thm.tripped = false → 2000 ≤ e.tsTemp h → ∃ t, exec (.thermalSample counts) s = .next t ∧ t.dev.sys = {} ∧
          t.dev.thm.tripped = true ∧ t.dev.thm.report = true ∧ Nat.testBit (t.dev.get F.RPC_CAUSE_SRC) 13 = true ∧ t.dev.get F.THM_LAST_TRIP_SENSOR = h.val ∧
          t.dev.get F.THM_TRIPS_TRIPS = min 0xFFFF (d.get F.THM_TRIPS_TRIPS + 1) ∧ t.dev.store = d.store) ∧
        (∀ h, e.hottest = some h → d.thm.tripped = false → e.tsTemp h < 1488 → d.bit F.THM_STATUS_FAST = false → d.bit F.THM_STATUS_WARN = false →
          d.bit F.THM_STATUS_THROT = false → ∃ t, exec (.thermalSample counts) s = .next t ∧ t.dev.thm.nextAt = d.now + 10000000 ∧ t.dev.sys = d.sys ∧
            t.dev.raised = e.raised ∧ t.dev.bit F.THM_STATUS_FAST = false ∧ t.dev.getI F.THM_STATUS_TMAX = e.tsTemp h))) ∧
    (d.reaches 2 = true →
      let own := d.thm.at_ = some d.now ∨ (d.thm.nextAt ≤ d.now ∧ ∃ cs, .thermalSample cs ∈ s.pending)
      (own → exec (.thmSample counts) s = .next s) ∧
      (¬ own → ∃ t, exec (.thmSample counts) s = .next t ∧ t.dev.thm.nextAt = d.thm.nextAt ∧ t.dev.thm.fast = d.thm.fast ∧ t.dev.thm.at_ = some d.now ∧
        t.dev.bit F.THM_STATUS_FAST = d.bit F.THM_STATUS_FAST ∧ ∀ n : Fin 16, t.dev.get (F.THM_TS_COUNT_COUNT n) = counts.getD n.val 0 % 2 ^ 16)) ∧
    (d.live 1 = true →
      (d.mode ≠ .shutdown → exec .orderlyStopDone s = .next s) ∧
      (d.mode = .shutdown → ∃ t, exec .orderlyStopDone s = .next t ∧ t.dev.doms[(1 : Fin 12)].st = .off ∧ t.dev.prsQ = [] ∧ t.dev.sys = d.sys ∧ t.dev.store = d.store))

/-- Check-value units (R404 to R407): the polynomial arithmetic bit by bit, the width, the bits of POLY, INIT, XOROUT and EXPECT that count, VALUE and
RESULT; starting, feeding, ending, aborting; and a stream that is aborted and resumed ends with the result of one that is not.
R404 is stated whole and rests on no choice; of the clauses beside it, those of CTL pulses and of a DMA source's end rest on the model's choices
of log entries 69 and 71. -/
def Obligations.CheckValues : Prop :=
  ∀ (s : State) (n : Fin 8),
    let d := s.dev
    let w := d.get (F.CRC_U_CFG_WIDTH n) + 1
    let low (lo hi : Nat) : Nat := d.effPair lo hi % 2 ^ w
    let value (x : Dev) : Nat := x.pair (Reg.CRC_U_VALUE_LO n) (Reg.CRC_U_VALUE_HI n) % 2 ^ w
    let take (r : Nat) (bit : Bool) : Nat :=
      let x := 2 * r % 2 ^ w
      if (r.testBit (w - 1) != bit) = true then Nat.xor x (low (Reg.CRC_U_POLY_LO n) (Reg.CRC_U_POLY_HI n)) else x
    let feed (r : Nat) (bs : List (BitVec 8)) : Nat := bs.foldl (fun r b =>
      (List.range 8).foldl (fun r i => take r (b.getLsbD (if d.bit (F.CRC_U_CFG_REFIN n) then i else 7 - i))) r) r
    let turned (r : Nat) : Nat := (List.range w).foldl (fun a k => 2 * a + (r.testBit k).toNat) 0
    let fed (bs : List (BitVec 8)) (t : State) : Prop := value t.dev = feed (value d) bs ∧
      t.dev.get (F.CRC_U_COUNT_BYTES n) = (d.get (F.CRC_U_COUNT_BYTES n) + bs.length) % 2 ^ 32 ∧ t = s.withDev { d with regs := t.dev.regs }
    let result (r : Nat) : Nat := Nat.xor (if d.bit (F.CRC_U_CFG_REFOUT n) then turned r else r) (low (Reg.CRC_U_XOROUT_LO n) (Reg.CRC_U_XOROUT_HI n))
    let ended (r : Nat) (t : State) : Prop := t.dev.pair (Reg.CRC_U_RESULT_LO n) (Reg.CRC_U_RESULT_HI n) = result r ∧ t.dev.bit (F.CRC_U_STATUS_DONE n) = true ∧
      t.dev.crcRun n = false ∧ Nat.testBit (t.dev.get F.CRC_STATUS_RUN) n = false ∧
      (d.bit (F.CRC_U_CFG_CMP_EN n) = true → result r = low (Reg.CRC_U_EXPECT_LO n) (Reg.CRC_U_EXPECT_HI n) →
        t.dev.bit (F.CRC_U_STATUS_MATCH n) = true ∧ t.dev.raised = d.raised) ∧
      (d.bit (F.CRC_U_CFG_CMP_EN n) = true → result r ≠ low (Reg.CRC_U_EXPECT_LO n) (Reg.CRC_U_EXPECT_HI n) →
        t.dev.bit (F.CRC_U_STATUS_MISMATCH n) = true ∧
        t.dev.raised = d.raised ++ [d.event Ev.CRC_MISMATCH 15 none [n.val, result r % 2 ^ 32, result r / 2 ^ 32]])
    let start (fresh : Bool) (t : State) : Prop := t.dev.crcRun n = true ∧ Nat.testBit (t.dev.get F.CRC_STATUS_RUN) n = true ∧
      t.dev.get (F.CRC_U_COUNT_BYTES n) = 0 ∧ t.dev.get (F.CRC_U_STATUS_DONE n) = 0 ∧ t.dev.get (F.CRC_U_STATUS_MATCH n) = 0 ∧
      t.dev.get (F.CRC_U_STATUS_MISMATCH n) = 0 ∧ t.dev.get (F.CRC_U_STATUS_ABORTED n) = 0 ∧ t.dev.get (F.CRC_U_STATUS_ERR n) = 0 ∧
      value t.dev = (if fresh then low (Reg.CRC_U_INIT_LO n) (Reg.CRC_U_INIT_HI n) else value d) ∧
      t = s.withDev { d with regs := t.dev.regs, crcAt := d.crcAt.set n d.now }
    let open_ := 2 ≤ d.mode.code ∧ d.mode.code ≤ 9 ∧ d.unitHeld (0x10 + n.val) = false
    (d.reaches 4 = true →
      (d.crcRun n = true → (∃ t, exec (.crcGo n) s = .next t ∧ s.gives t [(Reg.CRC_U_STATUS n, (F.CRC_U_STATUS_WERR n).into (d.rd (Reg.CRC_U_STATUS n)) 1)]) ∧
        ∃ t, exec (.crcResume n) s = .next t ∧ s.gives t [(Reg.CRC_U_STATUS n, (F.CRC_U_STATUS_WERR n).into (d.rd (Reg.CRC_U_STATUS n)) 1)]) ∧
      (d.crcRun n = false → ¬ open_ → exec (.crcGo n) s = .next s ∧ exec (.crcResume n) s = .next s) ∧
      (d.crcRun n = false → open_ → d.crcSrc n = 0 → (∃ t, exec (.crcGo n) s = .next t ∧ start true t) ∧ ∃ t, exec (.crcResume n) s = .next t ∧ start false t) ∧
      (d.crcRun n = false → open_ → d.crcSrc n = 1 → d.cap < d.crcAddr n + d.crcLen n → ∃ t, exec (.crcGo n) s = .next t ∧ t.dev.crcRun n = false ∧
        t.dev.get (F.CRC_U_STATUS_ERR n) = 1 ∧ t.dev.raised = d.raised ++ [d.event Ev.CRC_ERROR 15 none [n.val, 1]]) ∧
      (d.crcRun n = false ∨ d.crcSrc n ≠ 0 → (∀ v, ∃ t, exec (.crcData n v) s = .next t ∧
          s.gives t [(Reg.CRC_U_STATUS n, (F.CRC_U_STATUS_DROP n).into (d.rd (Reg.CRC_U_STATUS n)) 1)]) ∧
        (∀ v, ∃ t, exec (.crcDataB n v) s = .next t ∧ s.gives t [(Reg.CRC_U_STATUS n, (F.CRC_U_STATUS_DROP n).into (d.rd (Reg.CRC_U_STATUS n)) 1)]) ∧
        exec (.crcFinish n) s = .next s) ∧
      (d.crcRun n = true → d.crcSrc n = 0 →
        (∀ v : Word, ∃ t, exec (.crcData n v) s = .next t ∧ fed [v.extractLsb' 0 8, v.extractLsb' 8 8, v.extractLsb' 16 8, v.extractLsb' 24 8] t) ∧
        (∀ v : BitVec 8, ∃ t, exec (.crcDataB n v) s = .next t ∧ fed [v] t) ∧
        (∃ t, exec (.crcFinish n) s = .next t ∧ ended (value d) t) ∧
        ∀ k bs, ∃ t, exec (.crcAbort n k bs) s = .next t ∧ t.dev.crcRun n = false ∧ t.dev.bit (F.CRC_U_STATUS_ABORTED n) = true ∧
          value t.dev = value d ∧ t = s.withDev { d with regs := t.dev.regs }) ∧
      (d.crcRun n = false → ∀ k bs, exec (.crcAbort n k bs) s = .next s) ∧
      (d.crcRun n = true → open_ → d.crcSrc n = 0 → ∀ (v : Word) (k : Nat) (bs : List (BitVec 8)) (t1 t2 t3 t4 u1 u2 : State),
        exec (.crcAbort n k bs) s = .next t1 → exec (.crcResume n) t1 = .next t2 → exec (.crcData n v) t2 = .next t3 → exec (.crcFinish n) t3 = .next t4 →
        exec (.crcData n v) s = .next u1 → exec (.crcFinish n) u1 = .next u2 →
          t4.dev.rd (Reg.CRC_U_RESULT_LO n) = u2.dev.rd (Reg.CRC_U_RESULT_LO n) ∧ t4.dev.rd (Reg.CRC_U_RESULT_HI n) = u2.dev.rd (Reg.CRC_U_RESULT_HI n))) ∧
    (d.live 1 = true →
      (d.crcRun n = false ∨ d.crcSrc n = 0 → ∀ bs x, exec (.crcDmaEnd n bs x) s = .next s) ∧
      (d.crcRun n = true → d.crcSrc n = 1 → d.live 4 = false → ∀ bs x, ∃ t, exec (.crcDmaEnd n bs x) s = .next t ∧ t.dev.crcRun n = false ∧
        t.dev.get (F.CRC_U_STATUS_ERR n) = 2) ∧
      (d.crcRun n = true → d.crcSrc n = 1 → d.live 4 = true → d.crcFed n < d.crcLen n → ∀ bs x, exec (.crcDmaEnd n bs x) s = .next s) ∧
      (d.crcRun n = true → d.crcSrc n = 1 → d.live 4 = true → d.crcLen n ≤ d.crcFed n → d.poison = [] → ∀ bs x, ∃ t, exec (.crcDmaEnd n bs x) s = .next t ∧
        ended (feed (value d) (d.bytes (d.crcAddr n) (d.crcLen n))) t))

/-- Persistent words (R408 to R413): who writes which, what a write that differs costs, spares and failed words, and reads with errors.
Where the spec leaves it open this rests on the model's choices of log entries 5, 8, 60 and 71. -/
def Obligations.PersistentWords : Prop :=
  ∀ s : State,
    let d := s.dev
    (d.reaches 3 = true → ∀ w : Fin 8192,
      (∀ v bad, w.val < 0x1800 → exec (.prsWrite w v bad) s = .next (s.withDev (d.raise Ev.PRS_REFUSED 15 none [w.val]))) ∧
      (∀ bad, 0x1800 ≤ w.val → d.prsFailed.contains w.val = false → exec (.prsWrite w (d.rd (Reg.PRS_WORD w)) bad) s = .next s) ∧
      (∀ v, 0x1800 ≤ w.val → v ≠ d.rd (Reg.PRS_WORD w) → d.get (F.PRS_WEAR_WRITES w) < 500000 → ∃ t, exec (.prsWrite w v false) s = .next t ∧
        t.dev.prsWord w = v.toNat ∧ t.dev.get (F.PRS_WEAR_WRITES w) = d.get (F.PRS_WEAR_WRITES w) + 1 ∧ t.dev.raised = d.raised ∧
        ∀ u : Fin 8192, u ≠ w → t.dev.prsWord u = d.prsWord u) ∧
      (∀ v bad, 0x1800 ≤ w.val → v ≠ d.rd (Reg.PRS_WORD w) → bad = true ∨ 500000 ≤ d.get (F.PRS_WEAR_WRITES w) → 0 < d.get F.PRS_STATUS_SPARES →
        ∃ t, exec (.prsWrite w v bad) s = .next t ∧ t.dev.prsWord w = v.toNat ∧ t.dev.get (F.PRS_WEAR_WRITES w) = 1 ∧ t.dev.bit (F.PRS_WEAR_REMAPPED w) = true ∧
          t.dev.get F.PRS_STATUS_SPARES = d.get F.PRS_STATUS_SPARES - 1 ∧
          t.dev.raised = d.raised ++ [d.event Ev.PRS_REMAP 15 none [w.val, if 500000 ≤ d.get (F.PRS_WEAR_WRITES w) then 1 else 2]]) ∧
      (∀ v, 0x1800 ≤ w.val → v ≠ d.rd (Reg.PRS_WORD w) → d.get (F.PRS_WEAR_WRITES w) < 500000 → d.get F.PRS_STATUS_SPARES = 0 →
        ∃ t, exec (.prsWrite w v true) s = .next t ∧ t.dev.prsWord w = 0 ∧ t.dev.get F.PRS_ERR_KIND = 3 ∧ t.dev.get F.PRS_ERR_WORD = w.val ∧
          t.dev.raised = d.raised ++ [d.event Ev.PRS_WRITE_FAIL 15 none [w.val]]) ∧
      (d.prsFailed.contains w.val = false →
        exec (.prsRead w .clean) s = .next s ∧
        exec (.prsRead w .corrected) s = .next (s.withDev ((((d.addSat F.PRS_CNT_CE 1).set F.PRS_ERR_KIND 1).set F.PRS_ERR_WORD w.val).raiseC Ev.PRS_CE 0 15 none
          [w.val, 1] 1 [(1, 1)]))) ∧
      (∀ e : Ecc, e = .bad ∨ d.prsFailed.contains w.val = true → exec (.prsRead w e) s = .next (s.withDev
        ((((d.addSat F.PRS_CNT_UE 1).set F.PRS_ERR_KIND 2).set F.PRS_ERR_WORD w.val).raise Ev.PRS_UE 15 none [w.val])))) ∧
    (d.live 0 = true →
      (d.prsQ = [] ∨ s.pending.any Instr.writesPrs = true → ∀ bad, exec (.prsDeviceWrite bad) s = .next s) ∧
      (∀ (w : Fin 8192) (v : Word) q, d.prsQ = (w.val, v) :: q → s.pending.any Instr.writesPrs = false →
        let e := Dev.lifeWrite { d with prsQ := q } w.val v
        (e.2 = d.rd (Reg.PRS_WORD w) → d.prsFailed.contains w.val = false → ∀ bad, exec (.prsDeviceWrite bad) s = .next (s.withDev e.1)) ∧
        (e.2 ≠ d.rd (Reg.PRS_WORD w) → d.get (F.PRS_WEAR_WRITES w) < 500000 → ∃ t, exec (.prsDeviceWrite false) s = .next t ∧ t.dev.prsQ = q ∧
          t.dev.prsWord w = e.2.toNat ∧ t.dev.get (F.PRS_WEAR_WRITES w) = d.get (F.PRS_WEAR_WRITES w) + 1 ∧ ∀ u : Fin 8192, u ≠ w → t.dev.prsWord u = d.prsWord u) ∧
        (w.val < 0x0800 → e = ({ d with prsQ := q }, v))))

/-- Freeze and the TAP (R371, R414 to R419): a freeze begins once and only where the device runs, ends in FROZEN when the strobes are low, and writes its record;
each instruction of the TAP selects its data register, EXTEST, CLAMP, HIGHZ and the readouts acting in FROZEN alone; RSTREQ acts at the next instruction.
Where the spec leaves it open this rests on the model's choices of log entries 8, 49, 50 and 60. -/
def Obligations.FreezeAndTap : Prop :=
  ∀ s : State,
    let d := s.dev
    let begun (src : Nat) : State :=
      let f : Frz := { web := d.web, mode := d.mode.code, src := src, raw := d.bit F.DBG_FREEZE_RAW_RAW }
      let e := if f.raw then d else d.selfRefresh
      s.withDev { e with frz := some f, sys := { d.sys with trans := some { dest := .frozen, cause := 0, host := false, at_ := d.now } } }
    let off := d.mode = .sleep ∨ d.mode = .shutdown ∧ d.runs 1 = false
    (d.boot.por = true ∨ d.mode = .frozen ∨ d.frz.isSome = true → exec .freezenFall s = .next s) ∧
    (d.boot.por = false → d.mode ≠ .frozen → d.frz = none → d.wideNow = false → ¬ off → d.sys.trans = none → exec .freezenFall s = .next (begun 0)) ∧
    (d.boot.por = false → d.frz = none → off → ∃ t, exec .freezenFall s = .next t ∧ t.dev.mode = .frozen ∧ t.dev.sys.prev = d.mode ∧ t.dev.frz = none ∧
      t.dev.regs = d.regs ∧ t.dev.store = d.store) ∧
    (∀ f up, d.boot.por = false → d.frz = none → d.mode = .boot → d.boot.wideAt = some (d.now, f, up) → ∃ t, exec .freezenFall s = .next t ∧
      t.dev.prsNow 0xA1 = f.web % 2 ^ 32 ∧ t.dev.drc.selfRef = (d.drc.selfRef || (up && !f.raw)) ∧ t.dev.sys = d.sys ∧ t.dev.regs = d.regs ∧
      t.dev.boot = { d.boot with wideAt := none }) ∧
    (d.reaches 20 = true → ∀ v : Word,
      (F.DBG_FREEZE_KEY.of v ≠ 0xF0E5 → exec (.dbgFreeze v) s = .next (s.withDev (d.addSat F.DBG_STATUS_BADKEY 1))) ∧
      (F.DBG_FREEZE_KEY.of v = 0xF0E5 → F.DBG_FREEZE_GO.of v = 0 → exec (.dbgFreeze v) s = .next s) ∧
      (F.DBG_FREEZE_KEY.of v = 0xF0E5 → F.DBG_FREEZE_GO.of v = 1 → d.boot.por = false → d.wideNow = false → ¬ off → d.sys.trans = none →
        exec (.dbgFreeze v) s = .next (begun 1))) ∧
    (d.frz = none → exec .freezeStrobesDone s = .next s) ∧
    (∀ f, d.frz = some f →
      ((∃ n : Fin 8, d.stb[n].high = true) → exec .freezeStrobesDone s = .next s) ∧
      ((∀ n : Fin 8, d.stb[n].high = false) → ∃ t, exec .freezeStrobesDone s = .next t ∧
        t.dev.sys = { d.sys with mode := .frozen, prev := d.mode, trans := none, held := [] } ∧ t.dev.prsNow 0xA1 = f.web % 2 ^ 32 ∧
        t.dev.prsNow 0xA2 = (2 ^ 31 + f.raw.toNat * 2 ^ 30 + f.src * 2 ^ 29 + f.mode * 2 ^ 20 + f.web / 2 ^ 32 % 2 ^ 16) % 2 ^ 32 ∧
        (d.sys.trans = none → t.dev.raised = d.raised) ∧ (∀ x, d.sys.trans = some x → t.dev.raised = d.raised ++ x.evs) ∧
        t = s.withDev { d with sys := t.dev.sys, frz := none, prsQ := t.dev.prsQ, raised := t.dev.raised, lmp := { d.lmp with cols := 0 } })) ∧
    (d.jtag.rstReq = none →
      let ir (o : Host.Outcome State Fault Refusal) (j : Jtag) : Prop := ∃ t, o = .next t ∧ t.pending = s.pending ∧ t.dev.regs = d.regs ∧ t.dev.sys = d.sys ∧
        t.dev.store = d.store ∧ t.dev.boot.srcs = d.boot.srcs.filter (fun x => x.bit ≠ 14) ∧ t.dev.jtag = j
      let j (c : Nat) (r : JtagDr) (cap : Nat) : Jtag := { d.jtag with ir := c, dr := r, cap := cap, drives := 0 }
      ir (exec .jtagIdcode s) (j 0x01 .idcode 0x112805EB) ∧ ir (exec .jtagSamplePreload s) (j 0x02 .boundary (Config.freeValue d.fresh % 2 ^ 64)) ∧
      ir (exec .jtagBypass s) (j 0xFF .bypass 0) ∧
      (∀ k : Fin 16, ir (exec (.jtagScansel k) s) { j 0x10 .scanSel 0 with scanSel := k.val }) ∧
      (∀ (m : Fin 16) (a : BitVec 32), ir (exec (.jtagSramaddr m a) s) { j 0x20 .sramAddr 0 with sramMem := m.val, sramAddr := a.toNat }) ∧
      (∀ x, ir (exec (.jtagRstreq x) s) { j 0x40 .rstReq 0 with rstReq := some x }) ∧
      (d.mode ≠ .frozen → ir (exec .jtagExtest s) (j 0x03 .bypass 0) ∧ ir (exec .jtagClamp s) (j 0x04 .bypass 0) ∧ ir (exec .jtagHighz s) (j 0x05 .bypass 0) ∧
        ir (exec .jtagScanrd s) (j 0x11 (.scan d.jtag.scanSel) 0) ∧ ∀ x c, ir (exec (.jtagSramrd x c) s) (j 0x21 .sram 0)) ∧
      (d.mode = .frozen → ir (exec .jtagExtest s) { j 0x03 .boundary 0 with drives := 1 } ∧ ir (exec .jtagClamp s) { j 0x04 .bypass 0 with drives := 2 } ∧
        ir (exec .jtagHighz s) { j 0x05 .bypass 0 with drives := 3 } ∧
        ir (exec .jtagScanrd s) (j 0x11 (.scan d.jtag.scanSel) (Config.freeValue d.fresh % 2 ^ 64)) ∧
        (∀ (x : BitVec 64) (c : BitVec 8),
          let next (cap : Nat) : Jtag := { j 0x21 .sram cap with sramAddr := (d.jtag.sramAddr + 1) % 2 ^ 32 }
          (d.jtag.sramMem < 4 → ir (exec (.jtagSramrd x c) s) (next (c.toNat * 2 ^ 64 + x.toNat))) ∧
          (5 ≤ d.jtag.sramMem → ir (exec (.jtagSramrd x c) s) (next 0)) ∧
          (d.jtag.sramMem = 4 → d.jtag.sramAddr < 8192 → ir (exec (.jtagSramrd x c) s) (next (c.toNat * 2 ^ 64 +
            d.get (F.PRS_WEAR_WRITES d.jtag.sramAddr) * 2 ^ 32 + d.prsWord d.jtag.sramAddr)))))) ∧
    (∀ x, d.jtag.rstReq = some x → d.boot.por = false → ∃ t, exec .jtagBypass s = .next t ∧ t.dev.sys = {} ∧ Nat.testBit (t.dev.get F.RPC_CAUSE_SRC) 14 = true ∧
      t.dev.jtag.rstReq = none ∧ t.dev.store = d.store) ∧
    exec .testLogicReset s = .next (s.withDev { d with jtag := { d.jtag with ir := 0x01, dr := .idcode, cap := 0x112805EB, drives := 0 } })

/-! ### The host interface and the register transport (spec/19_host.md) -/

/-- The PCIe function (R422 to R428, R431): link and power state, interrupts signalled, held and released, egress records and the BAR2 window.
Where the spec leaves it open this rests on the model's choices of log entries 1, 51, 53, 60 and 72. -/
def Obligations.HostInterface : Prop :=
  ∀ s : State,
    let d := s.dev
    (d.live 2 = true →
      (∀ (sp : Fin 5) (wd : Fin 9), ∃ t, exec (.hstLinkUp sp wd) s = .next t ∧ s.gives t [(Reg.HST_STATUS, F.HST_STATUS_L0.into (F.HST_STATUS_WIDTH.into
        (F.HST_STATUS_SPEED.into (d.rd Reg.HST_STATUS) sp.val) wd.val) 1)] fun d => d.raise Ev.HST_LINK_UP 15 none [0, sp.val, wd.val]) ∧
      (∀ d3 bme msix fm : Bool, ∃ t, exec (.pciePowerState d3 bme msix fm) s = .next t ∧ s.gives t [(Reg.HST_STATUS, F.HST_STATUS_MSIX.into
        (F.HST_STATUS_BME.into (F.HST_STATUS_D3.into (d.rd Reg.HST_STATUS) d3.toNat) bme.toNat) msix.toNat)] fun d => { d with hst := { d.hst with fmask := fm } }) ∧
      (∃ t, exec .msixRelease s = .next t ∧ t.dev.hst.held = d.hst.held.filter (fun v => !d.vecOpen v) ∧
        t.dev.sent = d.sent ++ ((d.hst.held.filter d.vecOpen).filter fun v => d.bit (vecFld Reg.HST_INT_PEND_LO v)).map Sent.msix ∧
        t = s.withDev { d with regs := t.dev.regs, hst := t.dev.hst, sent := t.dev.sent } ∧ ∀ a, a ≠ Reg.HST_PBA 0 → a ≠ Reg.HST_PBA 1 → t.dev.rd a = d.rd a)) ∧
    (d.live 1 = true →
      (d.sigs = [] → exec .interruptSignal s = .next s) ∧
      (∀ v r, d.sigs = v :: r →
        (d.live 2 = false → exec .interruptSignal s = .next (s.withDev { d with sigs := r })) ∧
        (d.live 2 = true → v < 64 → ∃ t, exec .interruptSignal s = .next t ∧ t.dev.sigs = r ∧ t.dev.bit (vecFld Reg.HST_INT_PEND_LO v) = true ∧
          (d.bit F.HST_STATUS_MSIX = true → d.vecOpen v = true → t.dev.sent = d.sent ++ [.msix v] ∧ t.dev.hst.held = d.hst.held) ∧
          (d.bit F.HST_STATUS_MSIX = true → d.vecOpen v = false → t.dev.sent = d.sent ∧ v ∈ t.dev.hst.held ∧
            (d.hst.held.contains v = false → t.dev.hst.held = d.hst.held ++ [v])) ∧
          (d.bit F.HST_STATUS_MSIX = false → t.dev.sent = d.sent ∧ t.dev.hst.held = d.hst.held) ∧
          (d.bit (vecFld Reg.HST_INT_PEND_LO v) = false → d.effBit (vecFld Reg.HST_RT_NOTIFY_LO v) = true → t.dev.rt.fresh = true))) ∧
      (∀ (e : Fin 2) v ds, s.lastWrite (Reg.HST_EGR_TAIL e) = some v → exec (.egressRecord e ds) s = .next (s.withDev
        ((d.set (F.HST_EGR_TAIL_INDEX e) v.toNat).egressRecord e ds none))) ∧
      (∀ (e : Fin 2), s.lastWrite (Reg.HST_EGR_TAIL e) = none →
        let off := d.live 2 = true ∧ d.hostOpen = false
        let shut := d.live 2 = false ∨ d.bit (F.HST_EGR_CTL_EN e) = false ∨ d.bit (F.HST_EGR_STATUS_STOPPED e) = true
        (off → ∀ ds, exec (.egressRecord e ds) s = .next s) ∧
        (d.egress[e] = [] → ∀ ds, exec (.egressRecord e ds) s = .next s) ∧
        (∀ r rest ds, d.egress[e] = r :: rest → r.src ≠ 0x10 → ¬ off → shut → exec (.egressRecord e ds) s = .next (s.withDev
          ((((if d.live 2 then ({ d with egress := d.egress.set e rest } : Dev).addSat (F.HST_EGR_DROP_RECORDS e) 1 else { d with egress := d.egress.set e rest }).addSat
            (F.VIS_VS_STATUS_DROP r.src) 1).raiseC Ev.VIS_STREAM_DROP r.src 15 none [r.src] 1 [])))) ∧
        (∀ r rest w ds, d.egress[e] = r :: rest → ¬ off → ¬ shut → 1 ≤ d.egrFree e → descGood w = true → r.bytes.length ≤ descSize w → Nat.testBit (w.getD 2 0) 31 = false →
          let ring := d.effPair (Reg.HST_EGR_BASE_LO e) (Reg.HST_EGR_BASE_HI e) / 64 * 64 + 32 * d.egrHead e
          ∃ t, exec (.egressRecord e (w :: ds)) s = .next t ∧
            s.gives t [(Reg.HST_EGR_HEAD e, (F.HST_EGR_HEAD_INDEX e).into (d.rd (Reg.HST_EGR_HEAD e)) ((d.egrHead e + 1) % d.egrSize e))] fun d =>
              { d with egress := d.egress.set e rest, egr := d.egr.set e { rseq := (d.egr[e].rseq + 1) % 2 ^ 32 },
                       sent := d.sent ++ [.host (descAddr w) r.bytes, .host (ring + 0x10) ([2 ^ 31 + r.src * 2 ^ 16, r.bytes.length, d.egr[e].rseq].flatMap (bytesLE 4))] }) ∧
        (∀ r rest w ds, d.egress[e] = r :: rest → ¬ off → ¬ shut → 1 ≤ d.egrFree e → descGood w = false → ∃ t, exec (.egressRecord e (w :: ds)) s = .next t ∧
          t.dev.bit (F.HST_EGR_STATUS_STOPPED e) = true ∧ t.dev.egrHead e = (d.egrHead e + 1) % d.egrSize e ∧ t.dev.get (F.HST_EGR_STATUS_ERR e) = 1 ∧ t.dev.egress = d.egress ∧
          t.dev.raised = d.raised ++ [d.event Ev.HST_EGR_ERROR 15 none [e.val]]))) ∧
    (d.reaches 18 = true →
      (∀ (hi : Bool) (m : Word),
        let a := if hi then Reg.HST_INT_PEND_HI else Reg.HST_INT_PEND_LO
        let k := d.clears a m &&& ~~~d.sigBits hi
        ∃ t, exec (.intPendClear hi m) s = .next t ∧ t.dev.rd a = d.rd a &&& ~~~k ∧ t = s.withDev { d with regs := t.dev.regs, hst := t.dev.hst } ∧
          (∀ v, v ∈ t.dev.hst.held ↔ v ∈ d.hst.held ∧ ¬ (v / 32 = hi.toNat ∧ k.getLsbD (v % 32) = true)) ∧
          ∀ x, x ≠ a → x ≠ Reg.HST_PBA 0 → x ≠ Reg.HST_PBA 1 → t.dev.rd x = d.rd x) ∧
      (∀ (e : Fin 2) (v : Word), ∃ t, exec (.egressRestart e v) s = .next t ∧
        s.gives t [(Reg.HST_EGR_CTL e, (F.HST_EGR_CTL_EN e).into ((F.HST_EGR_CTL_VEC e).into (d.rd (Reg.HST_EGR_CTL e)) ((F.HST_EGR_CTL_VEC e).of v)) 1),
          (Reg.HST_EGR_STATUS e, (F.HST_EGR_STATUS_RUN e).into ((F.HST_EGR_STATUS_ERR e).into ((F.HST_EGR_STATUS_STOPPED e).into
            (d.rd (Reg.HST_EGR_STATUS e)) 0) 0) 1)])) ∧
    (∀ (off : Fin 0x10000000) (n : Nat) (bs : List (BitVec 8)),
      let a := d.winAddr off.val
      let far (x : Dev) : Dev := (x.addSat F.HST_ERR_RANGE 1).raiseC Ev.HST_WIN_RANGE 0 15 none [0, a % 2 ^ 32, a / 2 ^ 32] 1 []
      let zeros (x : Dev) : Dev := { x with sent := x.sent ++ [.read off.val (List.replicate n 0)] }
      let there := d.live 1 = true ∧ d.live 2 = true ∧ d.frz = none ∧ d.bit F.HST_STATUS_D3 = false
      (¬ there → exec (.bar2Read off n) s = .next s ∧ exec (.bar2Write off bs) s = .next s) ∧
      (there → d.live 4 = false ∨ d.memTakes = false →
        exec (.bar2Read off n) s = .next (s.withDev (zeros (d.domainOff 15))) ∧ exec (.bar2Write off bs) s = .next (s.withDev (d.domainOff 15))) ∧
      (there → d.live 4 = true → d.memTakes = true →
        (d.cap < a + n → exec (.bar2Read off n) s = .next (s.withDev (zeros (far d)))) ∧
        (d.cap < a + bs.length → exec (.bar2Write off bs) s = .next (s.withDev (far d))) ∧
        (a + n ≤ d.cap → d.poison = [] → exec (.bar2Read off n) s = .next (s.withDev { d with sent := d.sent ++ [.read off.val (d.bytes a n)] })) ∧
        (a + bs.length ≤ d.cap → ∃ t, exec (.bar2Write off bs) s = .next t ∧ t = s.withDev { d with store := t.dev.store, poison := t.dev.poison } ∧
          (∀ i : Nat, (h : i < bs.length) → t.dev.byte (a + i) = bs[i]) ∧ ∀ x, x < a ∨ a + bs.length ≤ x → t.dev.byte x = d.byte x)))

/-- The register transport (R432 to R434): what a port takes, what it drops, repeats, the order of the operations and where they stop, and NOTIFY.
Where the spec leaves it open this rests on the model's choices of log entries 52, 53 and 72. -/
def Obligations.RegisterTransport : Prop :=
  ∀ s : State,
    let d := s.dev
    let on := d.rtEn = true ∧ d.live 1 = true ∧ d.frz = none
    (¬ on → (∀ a, exec (.rtReadRegister a) s = .next s) ∧ (∀ a v, exec (.rtWriteRegister a v) s = .next s) ∧ (∀ a n, exec (.rtReadJobStore a n) s = .next s) ∧
      (∀ a bs, exec (.rtWriteJobStore a bs) s = .next s) ∧ (∀ p ip, exec (.rtArp p ip) s = .next s) ∧ (∀ p ip bs, exec (.rtIcmpEcho p ip bs) s = .next s) ∧
      ∀ m, exec (.rtDatagram m) s = .next s) ∧
    (on →
      (∀ a, (∀ i ∈ s.pending, i ≠ .snapCapture) → a < 0x1500000 → d.on (blkOf a) = true → exec (.rtReadRegister a) s = .next (s.withDev
        { d with sent := d.sent ++ [.read a (bytesLE 4 (d.readWord a).toNat)] })) ∧
      (∀ a, (∀ i ∈ s.pending, i ≠ .snapCapture) → a < 0x1500000 → d.on (blkOf a) = false → ∃ t, exec (.rtReadRegister a) s = .next t ∧ t.dev.sent = d.sent ++ [.read a [0, 0, 0, 0]] ∧
        t.dev.coal = (d.domainOff (blkOf a)).coal) ∧
      (∀ a v, exec (.rtWriteRegister a v) s = .next (s.withDev (d.hostWrite .net a v 15))) ∧
      (∀ a n bs, lenOk n = false → lenOk bs.length = false → exec (.rtReadJobStore a n) s = .next s ∧ exec (.rtWriteJobStore a bs) s = .next s) ∧
      (d.live 4 = true → d.memTakes = true →
        (∀ a n, lenOk n = true → a + n ≤ d.cap → d.poison = [] → exec (.rtReadJobStore a n) s = .next (s.withDev
          { d with sent := d.sent ++ [.read a (d.bytes a n)] })) ∧
        (∀ a bs, lenOk bs.length = true → a + bs.length ≤ d.cap → ∃ t, exec (.rtWriteJobStore a bs) s = .next t ∧
          t = s.withDev { d with store := t.dev.store, poison := t.dev.poison } ∧ (∀ i : Nat, (h : i < bs.length) → t.dev.byte (a + i) = bs[i]) ∧
          ∀ x, x < a ∨ a + bs.length ≤ x → t.dev.byte x = d.byte x)) ∧
      (∀ (p : Fin 2) (ip : Nat),
        let drop := if d.live 2 then d.addSat F.HST_RT_STAT_DROP 1 else d
        (d.bit (F.NET_P_STATUS_UP p) = false → exec (.rtArp p ip) s = .next s ∧ ∀ bs, exec (.rtIcmpEcho p ip bs) s = .next s) ∧
        (d.bit (F.NET_P_STATUS_UP p) = true →
          (ip ≠ d.get (F.NET_P_IP_IP p) → exec (.rtArp p ip) s = .next (s.withDev drop) ∧ ∀ bs, exec (.rtIcmpEcho p ip bs) s = .next (s.withDev drop)) ∧
          (ip = d.get (F.NET_P_IP_IP p) →
            exec (.rtArp p ip) s = .next (s.withDev { d with sent := d.sent ++ [.net p 0x11 [ip, d.get (F.NET_P_MAC_LO_MAC p), d.get (F.NET_P_MAC_HI_MAC p)]] }) ∧
            ∀ bs, exec (.rtIcmpEcho p ip bs) s = .next (s.withDev { d with sent := d.sent ++ [.net p 0x12 (ip :: bs.map (·.toNat))] })))) ∧
      (∀ m : RtMsg, (∀ i ∈ s.pending, i ≠ .snapCapture) → d.bit (F.NET_P_STATUS_UP m.port) = true →
        let mine := m.ip = d.get (F.NET_P_IP_IP m.port) ∧ m.udp = d.effGet F.HST_RT_CFG_UDP ∧ m.header = true ∧ m.ops ≠ [] ∧ m.ops.length ≤ 100 ∧
          d.rt.queue.length < 8
        let idle := d.rt.queue = [] ∧ d.rt.busy ≤ d.now
        let fits := ipBytes m.ops reqBytes ≤ 9000 ∧ ipBytes m.ops respBytes ≤ 9000
        let seen := d.rt.srcs.find? fun y => y.port = m.port.val && y.src = m.src && y.seq = m.seq
        (¬ mine → exec (.rtDatagram m) s = .next (s.withDev (if d.live 2 then d.addSat F.HST_RT_STAT_DROP 1 else d))) ∧
        (mine → d.now < d.rt.busy → exec (.rtDatagram m) s = .next (s.withDev { d with rt := { d.rt with queue := d.rt.queue ++ [m] } })) ∧
        (∀ y, mine → idle → seen = some y → d.live 2 = true → ∃ t, exec (.rtDatagram m) s = .next t ∧ t.dev.sent = d.sent ++ [.net m.port 0x10 y.resp] ∧
          s.gives t [(Reg.HST_RT_STAT, F.HST_RT_STAT_DUP.into (d.rd Reg.HST_RT_STAT) (min 0xFFFF (d.get F.HST_RT_STAT_DUP + 1)))] fun d =>
            { d with sent := t.dev.sent, rt := t.dev.rt }) ∧
        (mine → idle → seen = none → ¬ fits → ∃ t, exec (.rtDatagram m) s = .next t ∧ t = s.withDev { d with sent := t.dev.sent, rt := t.dev.rt } ∧
          t.dev.sent = d.sent ++ [.net m.port 0x10 (rtHeader m.ops.length m.seq 1 ++ m.ops.flatMap fun o => skipWords o 3)]) ∧
        (∀ (a : Nat) (v : Word), mine → idle → seen = none → m.ops = [.wr a v] → a < 0x1500000 → d.on (blkOf a) = true →
          (d.hostWrite .net a v 15).live 3 = true → ∃ t, exec (.rtDatagram m) s = .next t ∧
            t.dev.sent = (d.hostWrite .net a v 15).sent ++ [.net m.port 0x10 (rtHeader 1 m.seq 1 ++ [2 ^ 29, a, v.toNat])] ∧
            t.dev.regs = (d.hostWrite .net a v 15).regs ∧ t.dev.rt.last = some (m.port.val, m.src)) ∧
        (∀ (w : Word) r, mine → idle → seen = none → fits → m.ops = .bad w :: r → d.live 3 = true → ∃ t, exec (.rtDatagram m) s = .next t ∧
          t = s.withDev { d with sent := t.dev.sent, rt := t.dev.rt } ∧ t.dev.rt.busy = d.now + (m.ops.map moved).foldl (· + ·) 0 * 20 / 23))) ∧
    (d.rt.last = none → exec .rtNotify s = .next s) ∧
    (∀ p src, d.rt.last = some (p, src) →
      (d.rtEn = false ∨ d.rt.fresh = false ∨ d.live 2 = false ∨ (∃ t, d.rt.notifyAt = some t ∧ d.now < t + 100000) → exec .rtNotify s = .next s) ∧
      (d.rtEn = true → d.rt.fresh = true → d.live 2 = true → (∀ t, d.rt.notifyAt = some t → t + 100000 ≤ d.now) → exec .rtNotify s = .next (s.withDev
        { d with rt := { d.rt with fresh := false, notifyAt := some d.now },
                 sent := d.sent ++ [.net p 0x13 (rtHeader 0 0 2 ++ [(d.rd Reg.HST_INT_PEND_LO).toNat, (d.rd Reg.HST_INT_PEND_HI).toNat, src])] })))

/-! ### What every step keeps -/

/-- While the device stands still, in FROZEN or in SLEEP, every step but a command that may end it keeps it so, and keeps all that the stopped domains hold:
their registers, the web coordinate, the bars, the job store, the queues of the blocks and the device time (R18, R376, R388, R415 to R417); the
engine of the persistent words, in PD0, goes on, and marks the heads whose counts it has written (R410).
Where the spec leaves it open this rests on the model's choices of log entries 1, 2 and 56. -/
def Obligations.StandingStillKeepsTheMachine : Prop :=
  ∀ s t : State, s.dev.still → (∀ c ∈ s.pending.head?, leaves c = false) → step s = .next t →
    let e := t.dev
    e.still ∧ e = { s.dev with now := e.now, was := e.was, shown := e.shown, regs := e.regs, shadow := e.shadow, eff := e.eff, doms := e.doms, boot := e.boot,
                               thm := e.thm, prsQ := e.prsQ, prsFailed := e.prsFailed, sent := e.sent, fresh := e.fresh, jtag := e.jtag, raised := e.raised,
                               noz := { s.dev.noz with heads := e.noz.heads } } ∧
      e.noz.heads.map (fun h => { h with saved := 0, savedAt := none }) = s.dev.noz.heads.map (fun h => { h with saved := 0, savedAt := none }) ∧
      ∀ a, domAt a ≠ 0 → e.rd a = s.dev.rd a


end Obligations
end

