-- ==== Sys2Proof/Laws/Sparse.lean ====
section
/-!
SUPPORT. What the operations over sparse files do: a read after a write, and that every operation keeps the canonical form; then the same
of registers, values in effect and the bytes of the job store.
-/
namespace Sys2Proof.Machine

variable {α : Type} {dflt : Nat → α}

/-! ### Reads -/

theorem Sparse.get_insert_same (l : List (Nat × α)) (a : Nat) (v : α) : Sparse.get dflt (Sparse.insert l a v) a = v := by
  induction l with
  | nil => simp [Sparse.insert, Sparse.get]
  | cons p r ih =>
    obtain ⟨k, w⟩ := p
    unfold Sparse.insert
    split
    · simp [Sparse.get]
    · split
      · simp [Sparse.get]
      · rename_i h1 h2
        have : k ≠ a := fun h => h2 h.symm
        simp [Sparse.get, this, ih]

theorem Sparse.get_insert_ne (l : List (Nat × α)) (a b : Nat) (v : α) (h : b ≠ a) :
    Sparse.get dflt (Sparse.insert l a v) b = Sparse.get dflt l b := by
  induction l with
  | nil => simp [Sparse.insert, Sparse.get, h.symm]
  | cons p r ih =>
    obtain ⟨k, w⟩ := p
    unfold Sparse.insert
    split
    · simp [Sparse.get, h.symm]
    · split
      · rename_i h1 h2
        subst h2
        simp [Sparse.get, h.symm]
      · simp only [Sparse.get, ih]

theorem Sparse.get_erase_same (l : List (Nat × α)) (a : Nat) : Sparse.get dflt (Sparse.erase l a) a = dflt a := by
  induction l with
  | nil => rfl
  | cons p r ih =>
    obtain ⟨k, w⟩ := p
    by_cases h : k = a
    · simpa [Sparse.erase, h] using ih
    · simpa [Sparse.erase, h, Sparse.get] using ih

theorem Sparse.get_erase_ne (l : List (Nat × α)) (a b : Nat) (h : b ≠ a) :
    Sparse.get dflt (Sparse.erase l a) b = Sparse.get dflt l b := by
  induction l with
  | nil => rfl
  | cons p r ih =>
    obtain ⟨k, w⟩ := p
    have ih' : Sparse.get dflt (r.filter fun p => p.1 ≠ a) b = Sparse.get dflt r b := ih
    by_cases hk : k = a
    · subst hk
      simpa [Sparse.erase, Sparse.get, h.symm] using ih'
    · by_cases hb : k = b <;> simp_all [Sparse.erase, Sparse.get]

/-- A write, whatever is listed. -/
theorem Sparse.put_eq [DecidableEq α] (l : List (Nat × α)) (a : Nat) (v : α) :
    Sparse.put dflt l a v = if v = dflt a then Sparse.erase l a else Sparse.insert l a v := by
  cases l <;> rfl

/-- A read after a write to the same key gives the value written. -/
@[simp] theorem Sparse.get_put_same [DecidableEq α] (l : List (Nat × α)) (a : Nat) (v : α) :
    Sparse.get dflt (Sparse.put dflt l a v) a = v := by
  rw [Sparse.put_eq]
  split
  · rename_i h
    rw [Sparse.get_erase_same, h]
  · exact Sparse.get_insert_same l a v

/-- A write leaves every other key alone. -/
theorem Sparse.get_put_ne [DecidableEq α] (l : List (Nat × α)) (a b : Nat) (v : α) (h : b ≠ a) :
    Sparse.get dflt (Sparse.put dflt l a v) b = Sparse.get dflt l b := by
  rw [Sparse.put_eq]
  split
  · exact Sparse.get_erase_ne l a b h
  · exact Sparse.get_insert_ne l a b v h

/-! ### The canonical form -/

/-- The form, by parts: rising keys, and no entry equal to its default. -/
theorem Sparse.wf_iff [DecidableEq α] (l : List (Nat × α)) :
    Sparse.wf dflt l = true ↔ l.Pairwise (fun p q => p.1 < q.1) ∧ ∀ p ∈ l, p.2 ≠ dflt p.1 := by
  induction l with
  | nil => simp [Sparse.wf]
  | cons p r ih =>
    obtain ⟨k, v⟩ := p
    cases r with
    | nil => simp [Sparse.wf]
    | cons q r =>
      obtain ⟨k', v'⟩ := q
      rw [Sparse.wf, Bool.and_eq_true, Bool.and_eq_true, decide_eq_true_eq, decide_eq_true_eq, ih]
      constructor
      · rintro ⟨⟨hv, hk⟩, hp, hall⟩
        refine ⟨List.pairwise_cons.mpr ⟨?_, hp⟩, ?_⟩
        · intro x hx
          rcases List.mem_cons.mp hx with rfl | hx
          · exact hk
          · exact Nat.lt_trans hk ((List.pairwise_cons.mp hp).1 x hx)
        · intro x hx
          rcases List.mem_cons.mp hx with rfl | hx
          · exact hv
          · exact hall x hx
      · rintro ⟨hp, hall⟩
        obtain ⟨h1, h2⟩ := List.pairwise_cons.mp hp
        exact ⟨⟨hall (k, v) (by simp), h1 (k', v') (by simp)⟩, h2, fun x hx => hall x (List.mem_cons_of_mem _ hx)⟩

theorem Sparse.mem_insert (l : List (Nat × α)) (a : Nat) (v : α) (p : Nat × α) (h : p ∈ Sparse.insert l a v) : p = (a, v) ∨ p ∈ l := by
  induction l with
  | nil => simpa [Sparse.insert] using h
  | cons q r ih =>
    obtain ⟨k, w⟩ := q
    unfold Sparse.insert at h
    split at h
    · simpa using h
    · split at h
      · rcases List.mem_cons.mp h with h | h
        · exact Or.inl h
        · exact Or.inr (List.mem_cons_of_mem _ h)
      · rcases List.mem_cons.mp h with h | h
        · exact Or.inr (by simp [h])
        · exact (ih h).imp id (List.mem_cons_of_mem _)

theorem Sparse.pairwise_insert (l : List (Nat × α)) (a : Nat) (v : α) (h : l.Pairwise fun p q => p.1 < q.1) :
    (Sparse.insert l a v).Pairwise fun p q => p.1 < q.1 := by
  induction l with
  | nil => simp [Sparse.insert]
  | cons q r ih =>
    obtain ⟨k, w⟩ := q
    obtain ⟨h1, h2⟩ := List.pairwise_cons.mp h
    unfold Sparse.insert
    split
    · rename_i hak
      refine List.pairwise_cons.mpr ⟨?_, h⟩
      intro x hx
      rcases List.mem_cons.mp hx with rfl | hx
      · exact hak
      · exact Nat.lt_trans hak (h1 x hx)
    · split
      · rename_i hak
        subst hak
        exact List.pairwise_cons.mpr ⟨h1, h2⟩
      · rename_i h3 h4
        refine List.pairwise_cons.mpr ⟨?_, ih h2⟩
        intro x hx
        rcases Sparse.mem_insert r a v x hx with rfl | hx
        · show k < a
          omega
        · exact h1 x hx

/-- A write keeps the canonical form. -/
theorem Sparse.wf_put [DecidableEq α] (l : List (Nat × α)) (a : Nat) (v : α) (h : Sparse.wf dflt l = true) :
    Sparse.wf dflt (Sparse.put dflt l a v) = true := by
  obtain ⟨h1, h2⟩ := (Sparse.wf_iff l).mp h
  rw [Sparse.put_eq]
  split
  · exact (Sparse.wf_iff _).mpr ⟨h1.filter _, fun p hp => h2 p (List.mem_filter.mp hp).1⟩
  · rename_i hv
    refine (Sparse.wf_iff _).mpr ⟨Sparse.pairwise_insert l a v h1, fun p hp => ?_⟩
    rcases Sparse.mem_insert l a v p hp with rfl | hp
    · exact hv
    · exact h2 p hp

/-- Taking entries away keeps the canonical form. -/
theorem Sparse.wf_filter [DecidableEq α] (l : List (Nat × α)) (f : Nat × α → Bool) (h : Sparse.wf dflt l = true) :
    Sparse.wf dflt (l.filter f) = true := by
  obtain ⟨h1, h2⟩ := (Sparse.wf_iff l).mp h
  exact (Sparse.wf_iff _).mpr ⟨h1.filter _, fun p hp => h2 p (List.mem_filter.mp hp).1⟩

/-! ### Registers -/

@[simp] theorem Dev.rd_wr_same (d : Dev) (a : Nat) (v : Word) : (d.wr a v).rd a = v := Sparse.get_put_same _ _ _

theorem Dev.rd_wr_ne (d : Dev) (a b : Nat) (v : Word) (h : b ≠ a) : (d.wr a v).rd b = d.rd b := Sparse.get_put_ne _ _ _ _ h

@[simp] theorem Dev.effRd_effWr_same (d : Dev) (a : Nat) (v : Word) : (d.effWr a v).effRd a = v := Sparse.get_put_same _ _ _

theorem Dev.effRd_effWr_ne (d : Dev) (a b : Nat) (v : Word) (h : b ≠ a) : (d.effWr a v).effRd b = d.effRd b :=
  Sparse.get_put_ne _ _ _ _ h

@[simp] theorem Dev.rd_effWr (d : Dev) (a b : Nat) (v : Word) : (d.effWr a v).rd b = d.rd b := rfl

@[simp] theorem Dev.effRd_wr (d : Dev) (a b : Nat) (v : Word) : (d.wr a v).effRd b = d.effRd b := rfl

/-- A field write leaves every other register alone. -/
theorem Dev.rd_set_ne (d : Dev) (f : Fld) (v b : Nat) (h : b ≠ f.reg) : (d.set f v).rd b = d.rd b := Dev.rd_wr_ne _ _ _ _ h

@[simp] theorem Dev.rd_set_same (d : Dev) (f : Fld) (v : Nat) : (d.set f v).rd f.reg = f.into (d.rd f.reg) v := Dev.rd_wr_same _ _ _

theorem Dev.wf_wr (d : Dev) (a : Nat) (v : Word) (h : Sparse.wf resetWord d.regs = true) : Sparse.wf resetWord (d.wr a v).regs = true :=
  Sparse.wf_put _ _ _ h

/-! ### The job store -/

@[simp] theorem Dev.byte_putByte_same (d : Dev) (a : Nat) (b : BitVec 8) : (d.putByte a b).byte a = b := Sparse.get_put_same _ _ _

theorem Dev.byte_putByte_ne (d : Dev) (a x : Nat) (b : BitVec 8) (h : x ≠ a) : (d.putByte a b).byte x = d.byte x :=
  Sparse.get_put_ne _ _ _ _ h

theorem Dev.wf_putByte (d : Dev) (a : Nat) (b : BitVec 8) (h : Memory.wf d.store = true) : Memory.wf (d.putByte a b).store = true :=
  Sparse.wf_put _ _ _ h

/-- Bytes outside a written range read as before. -/
theorem Dev.byte_putBytes_out (bs : List (BitVec 8)) : ∀ (d : Dev) (a x : Nat), x < a ∨ a + bs.length ≤ x → (d.putBytes a bs).byte x = d.byte x := by
  induction bs with
  | nil => intro d a x _; rfl
  | cons b r ih =>
    intro d a x h
    simp only [List.length_cons] at h
    rw [Dev.putBytes, ih _ _ _ (by omega), Dev.byte_putByte_ne _ _ _ _ (by omega)]

/-- Bytes of a written range read as written. -/
theorem Dev.byte_putBytes_in (bs : List (BitVec 8)) :
    ∀ (d : Dev) (a i : Nat) (h : i < bs.length), (d.putBytes a bs).byte (a + i) = bs[i] := by
  induction bs with
  | nil => intro d a i h; simp at h
  | cons b r ih =>
    intro d a i h
    cases i with
    | zero => rw [Dev.putBytes, Nat.add_zero, Dev.byte_putBytes_out _ _ _ _ (by omega)]; simp
    | succ i =>
      have := ih (d.putByte a b) (a + 1) i (by simpa using h)
      rw [Dev.putBytes, show a + (i + 1) = a + 1 + i by omega, this]
      rfl

theorem Dev.wf_putBytes (bs : List (BitVec 8)) :
    ∀ (d : Dev) (a : Nat), Memory.wf d.store = true → Memory.wf (d.putBytes a bs).store = true := by
  induction bs with
  | nil => intro d a h; exact h
  | cons b r ih => intro d a h; exact ih _ _ (Dev.wf_putByte d a b h)

/-- Storing data keeps the canonical form, changes the bytes of its range alone, and makes them what it stores. -/
theorem Dev.wf_storeData (d : Dev) (a : Nat) (bs : List (BitVec 8)) (h : Memory.wf d.store = true) :
    Memory.wf (d.storeData a bs).store = true := Dev.wf_putBytes bs d a h

theorem Dev.byte_storeData_out (d : Dev) (a x : Nat) (bs : List (BitVec 8)) (h : x < a ∨ a + bs.length ≤ x) :
    (d.storeData a bs).byte x = d.byte x := Dev.byte_putBytes_out bs d a x h

theorem Dev.byte_storeData_in (d : Dev) (a i : Nat) (bs : List (BitVec 8)) (h : i < bs.length) :
    (d.storeData a bs).byte (a + i) = bs[i] := Dev.byte_putBytes_in bs d a i h

/-- The memory of the machine after reset has the form. -/
theorem Memory.wf_reset : Memory.wf State.reset.dev.store = true := rfl

end Sys2Proof.Machine
end

