-- ==== Sys2Proof/Laws/Ops.lean ====
section
/-!
SUPPORT. What the shared operations do, once: a step, the domains and blocks a command needs, fields of a word, registers after a write,
and how `State.gives` is shown.
-/
namespace Sys2Proof.Machine

/-! ### A step -/

theorem step_cons (s : State) (c : Instr) (r : List Instr) (h : s.pending = c :: r) : step s = exec c { s with pending := r } := by
  simp [step, h]

theorem step_nil (s : State) (h : s.pending = []) : step s = .next { s with dev := s.dev.tick } := by simp [step, h]

theorem State.to_eq (s : State) (d : Dev) : s.dest d = .next (s.withDev d) := rfl

@[simp] theorem State.withDev_dev (s : State) (d : Dev) : (s.withDev d).dev = d := rfl

@[simp] theorem State.withDev_pending (s : State) (d : Dev) : (s.withDev d).pending = s.pending := rfl

@[simp] theorem State.withDev_self (s : State) : s.withDev s.dev = s := rfl

/-! ### Domains and blocks -/

theorem Dev.hw_live (d : Dev) (p : Fin 12) (f : Dev → Dev) (h : d.live p = true) : d.hw p f = f d := by simp [Dev.hw, h]

theorem Dev.hw_dead (d : Dev) (p : Fin 12) (f : Dev → Dev) (h : d.live p = false) : d.hw p f = d := by simp [Dev.hw, h]

theorem Dev.hwAll_live (d : Dev) (ps : List (Fin 12)) (f : Dev → Dev) (h : ps.all d.live = true) : d.hwAll ps f = f d := by
  simp only [Dev.hwAll, h, if_true]

theorem Dev.host_reaches (d : Dev) (b : Nat) (f : Dev → Dev) (h : d.reaches b = true) : d.host b f = f d := by
  simp only [Dev.reaches, Bool.and_eq_true, Option.isNone_iff_eq_none] at h
  simp [Dev.host, h.1.1, h.1.2, h.2]

theorem Dev.reaches_live (d : Dev) (b : Nat) (h : d.reaches b = true) : d.live (domOf b) = true := by
  simp only [Dev.reaches, Dev.on, Bool.and_eq_true] at h
  exact h.2.1

theorem Dev.reaches_live1 (d : Dev) (b : Nat) (h : d.reaches b = true) : d.live 1 = true := by
  simp only [Dev.reaches, Bool.and_eq_true] at h
  exact h.1.1

theorem Dev.reaches_frz (d : Dev) (b : Nat) (h : d.reaches b = true) : d.frz = none := by
  simp only [Dev.reaches, Bool.and_eq_true, Option.isNone_iff_eq_none] at h
  exact h.1.2

theorem Dev.host_off (d : Dev) (b : Nat) (f : Dev → Dev) (h1 : d.live 1 = true) (h2 : d.frz = none) (h3 : d.on b = false) :
    d.host b f = d.domainOff b := by simp [Dev.host, h1, h2, h3]

/-! ### Registers after writes -/

/-- Registers read alike where the register files are alike. -/
theorem Dev.rd_congr {d e : Dev} (h : d.regs = e.regs) (a : Nat) : d.rd a = e.rd a := by simp only [Dev.rd, h]

theorem Dev.rd_wr (d : Dev) (a b : Nat) (v : Word) : (d.wr a v).rd b = if b = a then v else d.rd b := by
  split
  · subst_vars; simp
  · exact Dev.rd_wr_ne _ _ _ _ ‹_›

theorem Dev.effRd_effWr (d : Dev) (a b : Nat) (v : Word) : (d.effWr a v).effRd b = if b = a then v else d.effRd b := by
  split
  · subst_vars; simp
  · exact Dev.effRd_effWr_ne _ _ _ _ ‹_›

@[simp] theorem Dev.wordAfter_nil (d : Dev) (a : Nat) : d.wordAfter [] a = d.rd a := rfl

theorem Dev.wordAfter_cons (d : Dev) (p : Nat × Word) (r : List (Nat × Word)) (a : Nat) :
    d.wordAfter (p :: r) a = if a = p.1 then p.2 else d.wordAfter r a := by
  unfold Dev.wordAfter
  by_cases h : p.1 = a
  · simp [h]
  · simp [h, Ne.symm h]

/-- How `State.gives` is shown for a meaning that changes the block alone. -/
theorem State.gives_withDev (s : State) (e : Dev) (rs : List (Nat × Word)) (f : Dev → Dev) (h1 : e = { f s.dev with regs := e.regs })
    (h2 : ∀ a, e.rd a = s.dev.wordAfter rs a) : s.gives (s.withDev e) rs f := by
  refine ⟨?_, h2⟩
  show s.withDev e = s.withDev { f s.dev with regs := e.regs }
  rw [← h1]

/-! ### Fields -/

/-- A field of a word that has just taken a value. -/
theorem Fld.of_into (f : Fld) (w : Word) (v : Nat) (h : f.lo + f.w ≤ 32) : f.of (f.into w v) = v % 2 ^ f.w := by
  obtain ⟨r, lo, n⟩ := f
  simp only at h
  unfold Fld.of Fld.into
  simp only [BitVec.toNat_ofNat]
  have hp : 0 < 2 ^ lo := Nat.two_pow_pos _
  have hn : 0 < 2 ^ n := Nat.two_pow_pos _
  have h32 : 2 ^ 32 = 2 ^ lo * (2 ^ n * 2 ^ (32 - lo - n)) := by
    rw [← Nat.pow_add, ← Nat.pow_add]
    congr 1
    omega
  have hs : w.toNat = 2 ^ lo * (w.toNat / 2 ^ lo) + w.toNat % 2 ^ lo := (Nat.div_add_mod _ _).symm
  generalize hq : w.toNat / 2 ^ lo = q at *
  generalize w.toNat % 2 ^ lo = r at *
  have hr : w.toNat % 2 ^ lo = r ∨ True := Or.inr trivial
  have hrlt : w.toNat - 2 ^ lo * q < 2 ^ lo := by
    have := Nat.mod_lt w.toNat hp
    have h2 := Nat.div_add_mod w.toNat (2 ^ lo)
    rw [hq] at h2
    omega
  have hval : w.toNat - q % 2 ^ n * 2 ^ lo + v % 2 ^ n * 2 ^ lo
      = 2 ^ lo * (2 ^ n * (q / 2 ^ n) + v % 2 ^ n) + (w.toNat - 2 ^ lo * q) := by
    have hd := Nat.div_add_mod q (2 ^ n)
    have e1 : 2 ^ lo * q = 2 ^ lo * (2 ^ n * (q / 2 ^ n)) + q % 2 ^ n * 2 ^ lo := by
      rw [← Nat.mul_comm (2 ^ lo) (q % 2 ^ n), ← Nat.mul_add, hd]
    have e2 : 2 ^ lo * (2 ^ n * (q / 2 ^ n) + v % 2 ^ n) = 2 ^ lo * (2 ^ n * (q / 2 ^ n)) + v % 2 ^ n * 2 ^ lo := by
      rw [Nat.mul_add, Nat.mul_comm (2 ^ lo) (v % 2 ^ n)]
    have : 2 ^ lo * q ≤ w.toNat := by rw [← hq]; exact Nat.mul_div_le _ _
    omega
  rw [hval]
  rw [h32, Nat.mod_mul_right_div_self, Nat.mod_mul_right_mod]
  rw [Nat.mul_add_div hp, Nat.div_eq_of_lt hrlt, Nat.add_zero, Nat.mul_add_mod, Nat.mod_mod]

/-- A field that has just been set reads as set. -/
theorem Dev.get_set_same (d : Dev) (f : Fld) (v : Nat) (h : f.lo + f.w ≤ 32) : (d.set f v).get f = v % 2 ^ f.w := by
  simp [Dev.get, Fld.of_into f _ v h]

/-- A field of another register keeps its value. -/
theorem Dev.get_set_ne (d : Dev) (f g : Fld) (v : Nat) (h : g.reg ≠ f.reg) : (d.set f v).get g = d.get g := by
  simp [Dev.get, Dev.rd_set_ne _ _ _ _ h]

theorem Dev.rd_set (d : Dev) (f : Fld) (v b : Nat) : (d.set f v).rd b = if b = f.reg then f.into (d.rd f.reg) v else d.rd b :=
  Dev.rd_wr _ _ _ _

/-- A field of a word in which another, disjoint field has taken a value. -/
theorem Fld.of_into_disj (f g : Fld) (w : Word) (v : Nat) (hg : g.lo + g.w ≤ 32)
    (hd : f.lo + f.w ≤ g.lo ∨ g.lo + g.w ≤ f.lo) : g.of (f.into w v) = g.of w := by
  have bit : ∀ i, i < 32 → (i < f.lo ∨ f.lo + f.w ≤ i) → (f.into w v).toNat.testBit i = w.toNat.testBit i := by
    intro i hi hout
    have key : ∀ x : Nat, x < 2 ^ 32 → ∀ y : Nat, y < 2 ^ f.w → ∀ j, (j < f.lo ∨ f.lo + f.w ≤ j) →
        (x - x / 2 ^ f.lo % 2 ^ f.w * 2 ^ f.lo + y * 2 ^ f.lo).testBit j = x.testBit j := by
      intro x _ y hy j hj
      have e1 : x = 2 ^ f.lo * (2 ^ f.w * (x / 2 ^ f.lo / 2 ^ f.w) + x / 2 ^ f.lo % 2 ^ f.w) + x % 2 ^ f.lo := by
        rw [Nat.div_add_mod, Nat.div_add_mod]
      have e2 : x - x / 2 ^ f.lo % 2 ^ f.w * 2 ^ f.lo + y * 2 ^ f.lo
          = 2 ^ f.lo * (2 ^ f.w * (x / 2 ^ f.lo / 2 ^ f.w) + y) + x % 2 ^ f.lo := by
        have a1 := Nat.mul_add (2 ^ f.lo) (2 ^ f.w * (x / 2 ^ f.lo / 2 ^ f.w)) (x / 2 ^ f.lo % 2 ^ f.w)
        have a2 := Nat.mul_add (2 ^ f.lo) (2 ^ f.w * (x / 2 ^ f.lo / 2 ^ f.w)) y
        have a3 := Nat.mul_comm (2 ^ f.lo) (x / 2 ^ f.lo % 2 ^ f.w)
        have a4 := Nat.mul_comm (2 ^ f.lo) y
        omega
      have hr := Nat.mod_lt x (Nat.two_pow_pos f.lo)
      have hm := Nat.mod_lt (x / 2 ^ f.lo) (Nat.two_pow_pos f.w)
      have e3 : x.testBit j = _ := congrArg (fun z => Nat.testBit z j) e1
      rw [e2, e3]
      rw [Nat.testBit_two_pow_mul_add _ hr, Nat.testBit_two_pow_mul_add _ hr]
      by_cases hlt : j < f.lo
      · simp [hlt]
      · rw [if_neg hlt, if_neg hlt, Nat.testBit_two_pow_mul_add _ hy, Nat.testBit_two_pow_mul_add _ hm]
        have h1 : ¬ j - f.lo < f.w := by omega
        rw [if_neg h1, if_neg h1]
    unfold Fld.into
    rw [BitVec.toNat_ofNat, Nat.testBit_mod_two_pow]
    rw [key w.toNat w.isLt (v % 2 ^ f.w) (Nat.mod_lt _ (Nat.two_pow_pos _)) i hout]
    simp [hi]
  apply Nat.eq_of_testBit_eq
  intro i
  unfold Fld.of
  rw [Nat.testBit_mod_two_pow, Nat.testBit_mod_two_pow, Nat.testBit_div_two_pow, Nat.testBit_div_two_pow]
  by_cases hi : i < g.w
  · rw [bit (i + g.lo) (by omega) (by omega)]
  · simp [hi]

/-- A disjoint field of the same register keeps its value. -/
theorem Dev.get_set_disj (d : Dev) (f g : Fld) (v : Nat) (hr : g.reg = f.reg) (hg : g.lo + g.w ≤ 32)
    (hd : f.lo + f.w ≤ g.lo ∨ g.lo + g.w ≤ f.lo) : (d.set f v).get g = d.get g := by
  simp only [Dev.get, hr, Dev.rd_set_same]
  exact Fld.of_into_disj f g _ v hg hd

end Sys2Proof.Machine
end

