-- ==== Sys2Proof/Laws/State.lean ====
section
/-!
SUPPORT. Each named update of the block changes its own part of the state alone: one lemma for every other field.
-/
namespace Sys2Proof.Machine

@[simp] theorem Dev.wr_shadow (d : Dev) (a : Nat) (v : Word) : (d.wr a v).shadow = d.shadow := rfl
@[simp] theorem Dev.wr_eff (d : Dev) (a : Nat) (v : Word) : (d.wr a v).eff = d.eff := rfl
@[simp] theorem Dev.wr_now (d : Dev) (a : Nat) (v : Word) : (d.wr a v).now = d.now := rfl
@[simp] theorem Dev.wr_fresh (d : Dev) (a : Nat) (v : Word) : (d.wr a v).fresh = d.fresh := rfl
@[simp] theorem Dev.wr_sys (d : Dev) (a : Nat) (v : Word) : (d.wr a v).sys = d.sys := rfl
@[simp] theorem Dev.wr_raised (d : Dev) (a : Nat) (v : Word) : (d.wr a v).raised = d.raised := rfl
@[simp] theorem Dev.wr_coal (d : Dev) (a : Nat) (v : Word) : (d.wr a v).coal = d.coal := rfl
@[simp] theorem Dev.wr_time (d : Dev) (a : Nat) (v : Word) : (d.wr a v).time = d.time := rfl
@[simp] theorem Dev.wr_timeSub (d : Dev) (a : Nat) (v : Word) : (d.wr a v).timeSub = d.timeSub := rfl
@[simp] theorem Dev.wr_prsQ (d : Dev) (a : Nat) (v : Word) : (d.wr a v).prsQ = d.prsQ := rfl
@[simp] theorem Dev.wr_doms (d : Dev) (a : Nat) (v : Word) : (d.wr a v).doms = d.doms := rfl
@[simp] theorem Dev.wr_pos (d : Dev) (a : Nat) (v : Word) : (d.wr a v).pos = d.pos := rfl
@[simp] theorem Dev.wr_image (d : Dev) (a : Nat) (v : Word) : (d.wr a v).image = d.image := rfl
@[simp] theorem Dev.wr_job (d : Dev) (a : Nat) (v : Word) : (d.wr a v).job = d.job := rfl
@[simp] theorem Dev.wr_bars (d : Dev) (a : Nat) (v : Word) : (d.wr a v).bars = d.bars := rfl
@[simp] theorem Dev.wr_stb (d : Dev) (a : Nat) (v : Word) : (d.wr a v).stb = d.stb := rfl
@[simp] theorem Dev.wr_cmp (d : Dev) (a : Nat) (v : Word) : (d.wr a v).cmp = d.cmp := rfl
@[simp] theorem Dev.wr_noz (d : Dev) (a : Nat) (v : Word) : (d.wr a v).noz = d.noz := rfl
@[simp] theorem Dev.wr_zxl (d : Dev) (a : Nat) (v : Word) : (d.wr a v).zxl = d.zxl := rfl
@[simp] theorem Dev.wr_sent (d : Dev) (a : Nat) (v : Word) : (d.wr a v).sent = d.sent := rfl
@[simp] theorem Dev.wr_vis (d : Dev) (a : Nat) (v : Word) : (d.wr a v).vis = d.vis := rfl
@[simp] theorem Dev.wr_egress (d : Dev) (a : Nat) (v : Word) : (d.wr a v).egress = d.egress := rfl
@[simp] theorem Dev.wr_den (d : Dev) (a : Nat) (v : Word) : (d.wr a v).den = d.den := rfl
@[simp] theorem Dev.wr_lmp (d : Dev) (a : Nat) (v : Word) : (d.wr a v).lmp = d.lmp := rfl
@[simp] theorem Dev.wr_store (d : Dev) (a : Nat) (v : Word) : (d.wr a v).store = d.store := rfl
@[simp] theorem Dev.wr_poison (d : Dev) (a : Nat) (v : Word) : (d.wr a v).poison = d.poison := rfl
@[simp] theorem Dev.wr_drc (d : Dev) (a : Nat) (v : Word) : (d.wr a v).drc = d.drc := rfl
@[simp] theorem Dev.wr_dpx (d : Dev) (a : Nat) (v : Word) : (d.wr a v).dpx = d.dpx := rfl
@[simp] theorem Dev.wr_ptp (d : Dev) (a : Nat) (v : Word) : (d.wr a v).ptp = d.ptp := rfl
@[simp] theorem Dev.wr_boot (d : Dev) (a : Nat) (v : Word) : (d.wr a v).boot = d.boot := rfl
@[simp] theorem Dev.wr_thm (d : Dev) (a : Nat) (v : Word) : (d.wr a v).thm = d.thm := rfl
@[simp] theorem Dev.wr_frz (d : Dev) (a : Nat) (v : Word) : (d.wr a v).frz = d.frz := rfl
@[simp] theorem Dev.wr_jtag (d : Dev) (a : Nat) (v : Word) : (d.wr a v).jtag = d.jtag := rfl
@[simp] theorem Dev.wr_prsFailed (d : Dev) (a : Nat) (v : Word) : (d.wr a v).prsFailed = d.prsFailed := rfl
@[simp] theorem Dev.wr_sigs (d : Dev) (a : Nat) (v : Word) : (d.wr a v).sigs = d.sigs := rfl
@[simp] theorem Dev.wr_evq (d : Dev) (a : Nat) (v : Word) : (d.wr a v).evq = d.evq := rfl
@[simp] theorem Dev.wr_snap (d : Dev) (a : Nat) (v : Word) : (d.wr a v).snap = d.snap := rfl
@[simp] theorem Dev.wr_egr (d : Dev) (a : Nat) (v : Word) : (d.wr a v).egr = d.egr := rfl
@[simp] theorem Dev.wr_hst (d : Dev) (a : Nat) (v : Word) : (d.wr a v).hst = d.hst := rfl
@[simp] theorem Dev.wr_rt (d : Dev) (a : Nat) (v : Word) : (d.wr a v).rt = d.rt := rfl
@[simp] theorem Dev.wr_was (d : Dev) (a : Nat) (v : Word) : (d.wr a v).was = d.was := rfl
@[simp] theorem Dev.wr_shown (d : Dev) (a : Nat) (v : Word) : (d.wr a v).shown = d.shown := rfl
@[simp] theorem Dev.wr_crcAt (d : Dev) (a : Nat) (v : Word) : (d.wr a v).crcAt = d.crcAt := rfl

@[simp] theorem Dev.set_shadow (d : Dev) (f : Fld) (v : Nat) : (d.set f v).shadow = d.shadow := rfl
@[simp] theorem Dev.set_eff (d : Dev) (f : Fld) (v : Nat) : (d.set f v).eff = d.eff := rfl
@[simp] theorem Dev.set_now (d : Dev) (f : Fld) (v : Nat) : (d.set f v).now = d.now := rfl
@[simp] theorem Dev.set_fresh (d : Dev) (f : Fld) (v : Nat) : (d.set f v).fresh = d.fresh := rfl
@[simp] theorem Dev.set_sys (d : Dev) (f : Fld) (v : Nat) : (d.set f v).sys = d.sys := rfl
@[simp] theorem Dev.set_raised (d : Dev) (f : Fld) (v : Nat) : (d.set f v).raised = d.raised := rfl
@[simp] theorem Dev.set_coal (d : Dev) (f : Fld) (v : Nat) : (d.set f v).coal = d.coal := rfl
@[simp] theorem Dev.set_time (d : Dev) (f : Fld) (v : Nat) : (d.set f v).time = d.time := rfl
@[simp] theorem Dev.set_timeSub (d : Dev) (f : Fld) (v : Nat) : (d.set f v).timeSub = d.timeSub := rfl
@[simp] theorem Dev.set_prsQ (d : Dev) (f : Fld) (v : Nat) : (d.set f v).prsQ = d.prsQ := rfl
@[simp] theorem Dev.set_doms (d : Dev) (f : Fld) (v : Nat) : (d.set f v).doms = d.doms := rfl
@[simp] theorem Dev.set_pos (d : Dev) (f : Fld) (v : Nat) : (d.set f v).pos = d.pos := rfl
@[simp] theorem Dev.set_image (d : Dev) (f : Fld) (v : Nat) : (d.set f v).image = d.image := rfl
@[simp] theorem Dev.set_job (d : Dev) (f : Fld) (v : Nat) : (d.set f v).job = d.job := rfl
@[simp] theorem Dev.set_bars (d : Dev) (f : Fld) (v : Nat) : (d.set f v).bars = d.bars := rfl
@[simp] theorem Dev.set_stb (d : Dev) (f : Fld) (v : Nat) : (d.set f v).stb = d.stb := rfl
@[simp] theorem Dev.set_cmp (d : Dev) (f : Fld) (v : Nat) : (d.set f v).cmp = d.cmp := rfl
@[simp] theorem Dev.set_noz (d : Dev) (f : Fld) (v : Nat) : (d.set f v).noz = d.noz := rfl
@[simp] theorem Dev.set_zxl (d : Dev) (f : Fld) (v : Nat) : (d.set f v).zxl = d.zxl := rfl
@[simp] theorem Dev.set_sent (d : Dev) (f : Fld) (v : Nat) : (d.set f v).sent = d.sent := rfl
@[simp] theorem Dev.set_vis (d : Dev) (f : Fld) (v : Nat) : (d.set f v).vis = d.vis := rfl
@[simp] theorem Dev.set_egress (d : Dev) (f : Fld) (v : Nat) : (d.set f v).egress = d.egress := rfl
@[simp] theorem Dev.set_den (d : Dev) (f : Fld) (v : Nat) : (d.set f v).den = d.den := rfl
@[simp] theorem Dev.set_lmp (d : Dev) (f : Fld) (v : Nat) : (d.set f v).lmp = d.lmp := rfl
@[simp] theorem Dev.set_store (d : Dev) (f : Fld) (v : Nat) : (d.set f v).store = d.store := rfl
@[simp] theorem Dev.set_poison (d : Dev) (f : Fld) (v : Nat) : (d.set f v).poison = d.poison := rfl
@[simp] theorem Dev.set_drc (d : Dev) (f : Fld) (v : Nat) : (d.set f v).drc = d.drc := rfl
@[simp] theorem Dev.set_dpx (d : Dev) (f : Fld) (v : Nat) : (d.set f v).dpx = d.dpx := rfl
@[simp] theorem Dev.set_ptp (d : Dev) (f : Fld) (v : Nat) : (d.set f v).ptp = d.ptp := rfl
@[simp] theorem Dev.set_boot (d : Dev) (f : Fld) (v : Nat) : (d.set f v).boot = d.boot := rfl
@[simp] theorem Dev.set_thm (d : Dev) (f : Fld) (v : Nat) : (d.set f v).thm = d.thm := rfl
@[simp] theorem Dev.set_frz (d : Dev) (f : Fld) (v : Nat) : (d.set f v).frz = d.frz := rfl
@[simp] theorem Dev.set_jtag (d : Dev) (f : Fld) (v : Nat) : (d.set f v).jtag = d.jtag := rfl
@[simp] theorem Dev.set_prsFailed (d : Dev) (f : Fld) (v : Nat) : (d.set f v).prsFailed = d.prsFailed := rfl
@[simp] theorem Dev.set_sigs (d : Dev) (f : Fld) (v : Nat) : (d.set f v).sigs = d.sigs := rfl
@[simp] theorem Dev.set_evq (d : Dev) (f : Fld) (v : Nat) : (d.set f v).evq = d.evq := rfl
@[simp] theorem Dev.set_snap (d : Dev) (f : Fld) (v : Nat) : (d.set f v).snap = d.snap := rfl
@[simp] theorem Dev.set_egr (d : Dev) (f : Fld) (v : Nat) : (d.set f v).egr = d.egr := rfl
@[simp] theorem Dev.set_hst (d : Dev) (f : Fld) (v : Nat) : (d.set f v).hst = d.hst := rfl
@[simp] theorem Dev.set_rt (d : Dev) (f : Fld) (v : Nat) : (d.set f v).rt = d.rt := rfl
@[simp] theorem Dev.set_was (d : Dev) (f : Fld) (v : Nat) : (d.set f v).was = d.was := rfl
@[simp] theorem Dev.set_shown (d : Dev) (f : Fld) (v : Nat) : (d.set f v).shown = d.shown := rfl
@[simp] theorem Dev.set_crcAt (d : Dev) (f : Fld) (v : Nat) : (d.set f v).crcAt = d.crcAt := rfl

@[simp] theorem Dev.setB_shadow (d : Dev) (f : Fld) (b : Bool) : (d.setB f b).shadow = d.shadow := rfl
@[simp] theorem Dev.setB_eff (d : Dev) (f : Fld) (b : Bool) : (d.setB f b).eff = d.eff := rfl
@[simp] theorem Dev.setB_now (d : Dev) (f : Fld) (b : Bool) : (d.setB f b).now = d.now := rfl
@[simp] theorem Dev.setB_fresh (d : Dev) (f : Fld) (b : Bool) : (d.setB f b).fresh = d.fresh := rfl
@[simp] theorem Dev.setB_sys (d : Dev) (f : Fld) (b : Bool) : (d.setB f b).sys = d.sys := rfl
@[simp] theorem Dev.setB_raised (d : Dev) (f : Fld) (b : Bool) : (d.setB f b).raised = d.raised := rfl
@[simp] theorem Dev.setB_coal (d : Dev) (f : Fld) (b : Bool) : (d.setB f b).coal = d.coal := rfl
@[simp] theorem Dev.setB_time (d : Dev) (f : Fld) (b : Bool) : (d.setB f b).time = d.time := rfl
@[simp] theorem Dev.setB_timeSub (d : Dev) (f : Fld) (b : Bool) : (d.setB f b).timeSub = d.timeSub := rfl
@[simp] theorem Dev.setB_prsQ (d : Dev) (f : Fld) (b : Bool) : (d.setB f b).prsQ = d.prsQ := rfl
@[simp] theorem Dev.setB_doms (d : Dev) (f : Fld) (b : Bool) : (d.setB f b).doms = d.doms := rfl
@[simp] theorem Dev.setB_pos (d : Dev) (f : Fld) (b : Bool) : (d.setB f b).pos = d.pos := rfl
@[simp] theorem Dev.setB_image (d : Dev) (f : Fld) (b : Bool) : (d.setB f b).image = d.image := rfl
@[simp] theorem Dev.setB_job (d : Dev) (f : Fld) (b : Bool) : (d.setB f b).job = d.job := rfl
@[simp] theorem Dev.setB_bars (d : Dev) (f : Fld) (b : Bool) : (d.setB f b).bars = d.bars := rfl
@[simp] theorem Dev.setB_stb (d : Dev) (f : Fld) (b : Bool) : (d.setB f b).stb = d.stb := rfl
@[simp] theorem Dev.setB_cmp (d : Dev) (f : Fld) (b : Bool) : (d.setB f b).cmp = d.cmp := rfl
@[simp] theorem Dev.setB_noz (d : Dev) (f : Fld) (b : Bool) : (d.setB f b).noz = d.noz := rfl
@[simp] theorem Dev.setB_zxl (d : Dev) (f : Fld) (b : Bool) : (d.setB f b).zxl = d.zxl := rfl
@[simp] theorem Dev.setB_sent (d : Dev) (f : Fld) (b : Bool) : (d.setB f b).sent = d.sent := rfl
@[simp] theorem Dev.setB_vis (d : Dev) (f : Fld) (b : Bool) : (d.setB f b).vis = d.vis := rfl
@[simp] theorem Dev.setB_egress (d : Dev) (f : Fld) (b : Bool) : (d.setB f b).egress = d.egress := rfl
@[simp] theorem Dev.setB_den (d : Dev) (f : Fld) (b : Bool) : (d.setB f b).den = d.den := rfl
@[simp] theorem Dev.setB_lmp (d : Dev) (f : Fld) (b : Bool) : (d.setB f b).lmp = d.lmp := rfl
@[simp] theorem Dev.setB_store (d : Dev) (f : Fld) (b : Bool) : (d.setB f b).store = d.store := rfl
@[simp] theorem Dev.setB_poison (d : Dev) (f : Fld) (b : Bool) : (d.setB f b).poison = d.poison := rfl
@[simp] theorem Dev.setB_drc (d : Dev) (f : Fld) (b : Bool) : (d.setB f b).drc = d.drc := rfl
@[simp] theorem Dev.setB_dpx (d : Dev) (f : Fld) (b : Bool) : (d.setB f b).dpx = d.dpx := rfl
@[simp] theorem Dev.setB_ptp (d : Dev) (f : Fld) (b : Bool) : (d.setB f b).ptp = d.ptp := rfl
@[simp] theorem Dev.setB_boot (d : Dev) (f : Fld) (b : Bool) : (d.setB f b).boot = d.boot := rfl
@[simp] theorem Dev.setB_thm (d : Dev) (f : Fld) (b : Bool) : (d.setB f b).thm = d.thm := rfl
@[simp] theorem Dev.setB_frz (d : Dev) (f : Fld) (b : Bool) : (d.setB f b).frz = d.frz := rfl
@[simp] theorem Dev.setB_jtag (d : Dev) (f : Fld) (b : Bool) : (d.setB f b).jtag = d.jtag := rfl
@[simp] theorem Dev.setB_prsFailed (d : Dev) (f : Fld) (b : Bool) : (d.setB f b).prsFailed = d.prsFailed := rfl
@[simp] theorem Dev.setB_sigs (d : Dev) (f : Fld) (b : Bool) : (d.setB f b).sigs = d.sigs := rfl
@[simp] theorem Dev.setB_evq (d : Dev) (f : Fld) (b : Bool) : (d.setB f b).evq = d.evq := rfl
@[simp] theorem Dev.setB_snap (d : Dev) (f : Fld) (b : Bool) : (d.setB f b).snap = d.snap := rfl
@[simp] theorem Dev.setB_egr (d : Dev) (f : Fld) (b : Bool) : (d.setB f b).egr = d.egr := rfl
@[simp] theorem Dev.setB_hst (d : Dev) (f : Fld) (b : Bool) : (d.setB f b).hst = d.hst := rfl
@[simp] theorem Dev.setB_rt (d : Dev) (f : Fld) (b : Bool) : (d.setB f b).rt = d.rt := rfl
@[simp] theorem Dev.setB_was (d : Dev) (f : Fld) (b : Bool) : (d.setB f b).was = d.was := rfl
@[simp] theorem Dev.setB_shown (d : Dev) (f : Fld) (b : Bool) : (d.setB f b).shown = d.shown := rfl
@[simp] theorem Dev.setB_crcAt (d : Dev) (f : Fld) (b : Bool) : (d.setB f b).crcAt = d.crcAt := rfl

@[simp] theorem Dev.setI_shadow (d : Dev) (f : Fld) (i : Int) : (d.setI f i).shadow = d.shadow := rfl
@[simp] theorem Dev.setI_eff (d : Dev) (f : Fld) (i : Int) : (d.setI f i).eff = d.eff := rfl
@[simp] theorem Dev.setI_now (d : Dev) (f : Fld) (i : Int) : (d.setI f i).now = d.now := rfl
@[simp] theorem Dev.setI_fresh (d : Dev) (f : Fld) (i : Int) : (d.setI f i).fresh = d.fresh := rfl
@[simp] theorem Dev.setI_sys (d : Dev) (f : Fld) (i : Int) : (d.setI f i).sys = d.sys := rfl
@[simp] theorem Dev.setI_raised (d : Dev) (f : Fld) (i : Int) : (d.setI f i).raised = d.raised := rfl
@[simp] theorem Dev.setI_coal (d : Dev) (f : Fld) (i : Int) : (d.setI f i).coal = d.coal := rfl
@[simp] theorem Dev.setI_time (d : Dev) (f : Fld) (i : Int) : (d.setI f i).time = d.time := rfl
@[simp] theorem Dev.setI_timeSub (d : Dev) (f : Fld) (i : Int) : (d.setI f i).timeSub = d.timeSub := rfl
@[simp] theorem Dev.setI_prsQ (d : Dev) (f : Fld) (i : Int) : (d.setI f i).prsQ = d.prsQ := rfl
@[simp] theorem Dev.setI_doms (d : Dev) (f : Fld) (i : Int) : (d.setI f i).doms = d.doms := rfl
@[simp] theorem Dev.setI_pos (d : Dev) (f : Fld) (i : Int) : (d.setI f i).pos = d.pos := rfl
@[simp] theorem Dev.setI_image (d : Dev) (f : Fld) (i : Int) : (d.setI f i).image = d.image := rfl
@[simp] theorem Dev.setI_job (d : Dev) (f : Fld) (i : Int) : (d.setI f i).job = d.job := rfl
@[simp] theorem Dev.setI_bars (d : Dev) (f : Fld) (i : Int) : (d.setI f i).bars = d.bars := rfl
@[simp] theorem Dev.setI_stb (d : Dev) (f : Fld) (i : Int) : (d.setI f i).stb = d.stb := rfl
@[simp] theorem Dev.setI_cmp (d : Dev) (f : Fld) (i : Int) : (d.setI f i).cmp = d.cmp := rfl
@[simp] theorem Dev.setI_noz (d : Dev) (f : Fld) (i : Int) : (d.setI f i).noz = d.noz := rfl
@[simp] theorem Dev.setI_zxl (d : Dev) (f : Fld) (i : Int) : (d.setI f i).zxl = d.zxl := rfl
@[simp] theorem Dev.setI_sent (d : Dev) (f : Fld) (i : Int) : (d.setI f i).sent = d.sent := rfl
@[simp] theorem Dev.setI_vis (d : Dev) (f : Fld) (i : Int) : (d.setI f i).vis = d.vis := rfl
@[simp] theorem Dev.setI_egress (d : Dev) (f : Fld) (i : Int) : (d.setI f i).egress = d.egress := rfl
@[simp] theorem Dev.setI_den (d : Dev) (f : Fld) (i : Int) : (d.setI f i).den = d.den := rfl
@[simp] theorem Dev.setI_lmp (d : Dev) (f : Fld) (i : Int) : (d.setI f i).lmp = d.lmp := rfl
@[simp] theorem Dev.setI_store (d : Dev) (f : Fld) (i : Int) : (d.setI f i).store = d.store := rfl
@[simp] theorem Dev.setI_poison (d : Dev) (f : Fld) (i : Int) : (d.setI f i).poison = d.poison := rfl
@[simp] theorem Dev.setI_drc (d : Dev) (f : Fld) (i : Int) : (d.setI f i).drc = d.drc := rfl
@[simp] theorem Dev.setI_dpx (d : Dev) (f : Fld) (i : Int) : (d.setI f i).dpx = d.dpx := rfl
@[simp] theorem Dev.setI_ptp (d : Dev) (f : Fld) (i : Int) : (d.setI f i).ptp = d.ptp := rfl
@[simp] theorem Dev.setI_boot (d : Dev) (f : Fld) (i : Int) : (d.setI f i).boot = d.boot := rfl
@[simp] theorem Dev.setI_thm (d : Dev) (f : Fld) (i : Int) : (d.setI f i).thm = d.thm := rfl
@[simp] theorem Dev.setI_frz (d : Dev) (f : Fld) (i : Int) : (d.setI f i).frz = d.frz := rfl
@[simp] theorem Dev.setI_jtag (d : Dev) (f : Fld) (i : Int) : (d.setI f i).jtag = d.jtag := rfl
@[simp] theorem Dev.setI_prsFailed (d : Dev) (f : Fld) (i : Int) : (d.setI f i).prsFailed = d.prsFailed := rfl
@[simp] theorem Dev.setI_sigs (d : Dev) (f : Fld) (i : Int) : (d.setI f i).sigs = d.sigs := rfl
@[simp] theorem Dev.setI_evq (d : Dev) (f : Fld) (i : Int) : (d.setI f i).evq = d.evq := rfl
@[simp] theorem Dev.setI_snap (d : Dev) (f : Fld) (i : Int) : (d.setI f i).snap = d.snap := rfl
@[simp] theorem Dev.setI_egr (d : Dev) (f : Fld) (i : Int) : (d.setI f i).egr = d.egr := rfl
@[simp] theorem Dev.setI_hst (d : Dev) (f : Fld) (i : Int) : (d.setI f i).hst = d.hst := rfl
@[simp] theorem Dev.setI_rt (d : Dev) (f : Fld) (i : Int) : (d.setI f i).rt = d.rt := rfl
@[simp] theorem Dev.setI_was (d : Dev) (f : Fld) (i : Int) : (d.setI f i).was = d.was := rfl
@[simp] theorem Dev.setI_shown (d : Dev) (f : Fld) (i : Int) : (d.setI f i).shown = d.shown := rfl
@[simp] theorem Dev.setI_crcAt (d : Dev) (f : Fld) (i : Int) : (d.setI f i).crcAt = d.crcAt := rfl

@[simp] theorem Dev.add_shadow (d : Dev) (f : Fld) (n : Nat) : (d.add f n).shadow = d.shadow := rfl
@[simp] theorem Dev.add_eff (d : Dev) (f : Fld) (n : Nat) : (d.add f n).eff = d.eff := rfl
@[simp] theorem Dev.add_now (d : Dev) (f : Fld) (n : Nat) : (d.add f n).now = d.now := rfl
@[simp] theorem Dev.add_fresh (d : Dev) (f : Fld) (n : Nat) : (d.add f n).fresh = d.fresh := rfl
@[simp] theorem Dev.add_sys (d : Dev) (f : Fld) (n : Nat) : (d.add f n).sys = d.sys := rfl
@[simp] theorem Dev.add_raised (d : Dev) (f : Fld) (n : Nat) : (d.add f n).raised = d.raised := rfl
@[simp] theorem Dev.add_coal (d : Dev) (f : Fld) (n : Nat) : (d.add f n).coal = d.coal := rfl
@[simp] theorem Dev.add_time (d : Dev) (f : Fld) (n : Nat) : (d.add f n).time = d.time := rfl
@[simp] theorem Dev.add_timeSub (d : Dev) (f : Fld) (n : Nat) : (d.add f n).timeSub = d.timeSub := rfl
@[simp] theorem Dev.add_prsQ (d : Dev) (f : Fld) (n : Nat) : (d.add f n).prsQ = d.prsQ := rfl
@[simp] theorem Dev.add_doms (d : Dev) (f : Fld) (n : Nat) : (d.add f n).doms = d.doms := rfl
@[simp] theorem Dev.add_pos (d : Dev) (f : Fld) (n : Nat) : (d.add f n).pos = d.pos := rfl
@[simp] theorem Dev.add_image (d : Dev) (f : Fld) (n : Nat) : (d.add f n).image = d.image := rfl
@[simp] theorem Dev.add_job (d : Dev) (f : Fld) (n : Nat) : (d.add f n).job = d.job := rfl
@[simp] theorem Dev.add_bars (d : Dev) (f : Fld) (n : Nat) : (d.add f n).bars = d.bars := rfl
@[simp] theorem Dev.add_stb (d : Dev) (f : Fld) (n : Nat) : (d.add f n).stb = d.stb := rfl
@[simp] theorem Dev.add_cmp (d : Dev) (f : Fld) (n : Nat) : (d.add f n).cmp = d.cmp := rfl
@[simp] theorem Dev.add_noz (d : Dev) (f : Fld) (n : Nat) : (d.add f n).noz = d.noz := rfl
@[simp] theorem Dev.add_zxl (d : Dev) (f : Fld) (n : Nat) : (d.add f n).zxl = d.zxl := rfl
@[simp] theorem Dev.add_sent (d : Dev) (f : Fld) (n : Nat) : (d.add f n).sent = d.sent := rfl
@[simp] theorem Dev.add_vis (d : Dev) (f : Fld) (n : Nat) : (d.add f n).vis = d.vis := rfl
@[simp] theorem Dev.add_egress (d : Dev) (f : Fld) (n : Nat) : (d.add f n).egress = d.egress := rfl
@[simp] theorem Dev.add_den (d : Dev) (f : Fld) (n : Nat) : (d.add f n).den = d.den := rfl
@[simp] theorem Dev.add_lmp (d : Dev) (f : Fld) (n : Nat) : (d.add f n).lmp = d.lmp := rfl
@[simp] theorem Dev.add_store (d : Dev) (f : Fld) (n : Nat) : (d.add f n).store = d.store := rfl
@[simp] theorem Dev.add_poison (d : Dev) (f : Fld) (n : Nat) : (d.add f n).poison = d.poison := rfl
@[simp] theorem Dev.add_drc (d : Dev) (f : Fld) (n : Nat) : (d.add f n).drc = d.drc := rfl
@[simp] theorem Dev.add_dpx (d : Dev) (f : Fld) (n : Nat) : (d.add f n).dpx = d.dpx := rfl
@[simp] theorem Dev.add_ptp (d : Dev) (f : Fld) (n : Nat) : (d.add f n).ptp = d.ptp := rfl
@[simp] theorem Dev.add_boot (d : Dev) (f : Fld) (n : Nat) : (d.add f n).boot = d.boot := rfl
@[simp] theorem Dev.add_thm (d : Dev) (f : Fld) (n : Nat) : (d.add f n).thm = d.thm := rfl
@[simp] theorem Dev.add_frz (d : Dev) (f : Fld) (n : Nat) : (d.add f n).frz = d.frz := rfl
@[simp] theorem Dev.add_jtag (d : Dev) (f : Fld) (n : Nat) : (d.add f n).jtag = d.jtag := rfl
@[simp] theorem Dev.add_prsFailed (d : Dev) (f : Fld) (n : Nat) : (d.add f n).prsFailed = d.prsFailed := rfl
@[simp] theorem Dev.add_sigs (d : Dev) (f : Fld) (n : Nat) : (d.add f n).sigs = d.sigs := rfl
@[simp] theorem Dev.add_evq (d : Dev) (f : Fld) (n : Nat) : (d.add f n).evq = d.evq := rfl
@[simp] theorem Dev.add_snap (d : Dev) (f : Fld) (n : Nat) : (d.add f n).snap = d.snap := rfl
@[simp] theorem Dev.add_egr (d : Dev) (f : Fld) (n : Nat) : (d.add f n).egr = d.egr := rfl
@[simp] theorem Dev.add_hst (d : Dev) (f : Fld) (n : Nat) : (d.add f n).hst = d.hst := rfl
@[simp] theorem Dev.add_rt (d : Dev) (f : Fld) (n : Nat) : (d.add f n).rt = d.rt := rfl
@[simp] theorem Dev.add_was (d : Dev) (f : Fld) (n : Nat) : (d.add f n).was = d.was := rfl
@[simp] theorem Dev.add_shown (d : Dev) (f : Fld) (n : Nat) : (d.add f n).shown = d.shown := rfl
@[simp] theorem Dev.add_crcAt (d : Dev) (f : Fld) (n : Nat) : (d.add f n).crcAt = d.crcAt := rfl

@[simp] theorem Dev.addSat_shadow (d : Dev) (f : Fld) (n : Nat) : (d.addSat f n).shadow = d.shadow := rfl
@[simp] theorem Dev.addSat_eff (d : Dev) (f : Fld) (n : Nat) : (d.addSat f n).eff = d.eff := rfl
@[simp] theorem Dev.addSat_now (d : Dev) (f : Fld) (n : Nat) : (d.addSat f n).now = d.now := rfl
@[simp] theorem Dev.addSat_fresh (d : Dev) (f : Fld) (n : Nat) : (d.addSat f n).fresh = d.fresh := rfl
@[simp] theorem Dev.addSat_sys (d : Dev) (f : Fld) (n : Nat) : (d.addSat f n).sys = d.sys := rfl
@[simp] theorem Dev.addSat_raised (d : Dev) (f : Fld) (n : Nat) : (d.addSat f n).raised = d.raised := rfl
@[simp] theorem Dev.addSat_coal (d : Dev) (f : Fld) (n : Nat) : (d.addSat f n).coal = d.coal := rfl
@[simp] theorem Dev.addSat_time (d : Dev) (f : Fld) (n : Nat) : (d.addSat f n).time = d.time := rfl
@[simp] theorem Dev.addSat_timeSub (d : Dev) (f : Fld) (n : Nat) : (d.addSat f n).timeSub = d.timeSub := rfl
@[simp] theorem Dev.addSat_prsQ (d : Dev) (f : Fld) (n : Nat) : (d.addSat f n).prsQ = d.prsQ := rfl
@[simp] theorem Dev.addSat_doms (d : Dev) (f : Fld) (n : Nat) : (d.addSat f n).doms = d.doms := rfl
@[simp] theorem Dev.addSat_pos (d : Dev) (f : Fld) (n : Nat) : (d.addSat f n).pos = d.pos := rfl
@[simp] theorem Dev.addSat_image (d : Dev) (f : Fld) (n : Nat) : (d.addSat f n).image = d.image := rfl
@[simp] theorem Dev.addSat_job (d : Dev) (f : Fld) (n : Nat) : (d.addSat f n).job = d.job := rfl
@[simp] theorem Dev.addSat_bars (d : Dev) (f : Fld) (n : Nat) : (d.addSat f n).bars = d.bars := rfl
@[simp] theorem Dev.addSat_stb (d : Dev) (f : Fld) (n : Nat) : (d.addSat f n).stb = d.stb := rfl
@[simp] theorem Dev.addSat_cmp (d : Dev) (f : Fld) (n : Nat) : (d.addSat f n).cmp = d.cmp := rfl
@[simp] theorem Dev.addSat_noz (d : Dev) (f : Fld) (n : Nat) : (d.addSat f n).noz = d.noz := rfl
@[simp] theorem Dev.addSat_zxl (d : Dev) (f : Fld) (n : Nat) : (d.addSat f n).zxl = d.zxl := rfl
@[simp] theorem Dev.addSat_sent (d : Dev) (f : Fld) (n : Nat) : (d.addSat f n).sent = d.sent := rfl
@[simp] theorem Dev.addSat_vis (d : Dev) (f : Fld) (n : Nat) : (d.addSat f n).vis = d.vis := rfl
@[simp] theorem Dev.addSat_egress (d : Dev) (f : Fld) (n : Nat) : (d.addSat f n).egress = d.egress := rfl
@[simp] theorem Dev.addSat_den (d : Dev) (f : Fld) (n : Nat) : (d.addSat f n).den = d.den := rfl
@[simp] theorem Dev.addSat_lmp (d : Dev) (f : Fld) (n : Nat) : (d.addSat f n).lmp = d.lmp := rfl
@[simp] theorem Dev.addSat_store (d : Dev) (f : Fld) (n : Nat) : (d.addSat f n).store = d.store := rfl
@[simp] theorem Dev.addSat_poison (d : Dev) (f : Fld) (n : Nat) : (d.addSat f n).poison = d.poison := rfl
@[simp] theorem Dev.addSat_drc (d : Dev) (f : Fld) (n : Nat) : (d.addSat f n).drc = d.drc := rfl
@[simp] theorem Dev.addSat_dpx (d : Dev) (f : Fld) (n : Nat) : (d.addSat f n).dpx = d.dpx := rfl
@[simp] theorem Dev.addSat_ptp (d : Dev) (f : Fld) (n : Nat) : (d.addSat f n).ptp = d.ptp := rfl
@[simp] theorem Dev.addSat_boot (d : Dev) (f : Fld) (n : Nat) : (d.addSat f n).boot = d.boot := rfl
@[simp] theorem Dev.addSat_thm (d : Dev) (f : Fld) (n : Nat) : (d.addSat f n).thm = d.thm := rfl
@[simp] theorem Dev.addSat_frz (d : Dev) (f : Fld) (n : Nat) : (d.addSat f n).frz = d.frz := rfl
@[simp] theorem Dev.addSat_jtag (d : Dev) (f : Fld) (n : Nat) : (d.addSat f n).jtag = d.jtag := rfl
@[simp] theorem Dev.addSat_prsFailed (d : Dev) (f : Fld) (n : Nat) : (d.addSat f n).prsFailed = d.prsFailed := rfl
@[simp] theorem Dev.addSat_sigs (d : Dev) (f : Fld) (n : Nat) : (d.addSat f n).sigs = d.sigs := rfl
@[simp] theorem Dev.addSat_evq (d : Dev) (f : Fld) (n : Nat) : (d.addSat f n).evq = d.evq := rfl
@[simp] theorem Dev.addSat_snap (d : Dev) (f : Fld) (n : Nat) : (d.addSat f n).snap = d.snap := rfl
@[simp] theorem Dev.addSat_egr (d : Dev) (f : Fld) (n : Nat) : (d.addSat f n).egr = d.egr := rfl
@[simp] theorem Dev.addSat_hst (d : Dev) (f : Fld) (n : Nat) : (d.addSat f n).hst = d.hst := rfl
@[simp] theorem Dev.addSat_rt (d : Dev) (f : Fld) (n : Nat) : (d.addSat f n).rt = d.rt := rfl
@[simp] theorem Dev.addSat_was (d : Dev) (f : Fld) (n : Nat) : (d.addSat f n).was = d.was := rfl
@[simp] theorem Dev.addSat_shown (d : Dev) (f : Fld) (n : Nat) : (d.addSat f n).shown = d.shown := rfl
@[simp] theorem Dev.addSat_crcAt (d : Dev) (f : Fld) (n : Nat) : (d.addSat f n).crcAt = d.crcAt := rfl

@[simp] theorem Dev.wrPair_shadow (d : Dev) (lo hi v : Nat) : (d.wrPair lo hi v).shadow = d.shadow := rfl
@[simp] theorem Dev.wrPair_eff (d : Dev) (lo hi v : Nat) : (d.wrPair lo hi v).eff = d.eff := rfl
@[simp] theorem Dev.wrPair_now (d : Dev) (lo hi v : Nat) : (d.wrPair lo hi v).now = d.now := rfl
@[simp] theorem Dev.wrPair_fresh (d : Dev) (lo hi v : Nat) : (d.wrPair lo hi v).fresh = d.fresh := rfl
@[simp] theorem Dev.wrPair_sys (d : Dev) (lo hi v : Nat) : (d.wrPair lo hi v).sys = d.sys := rfl
@[simp] theorem Dev.wrPair_raised (d : Dev) (lo hi v : Nat) : (d.wrPair lo hi v).raised = d.raised := rfl
@[simp] theorem Dev.wrPair_coal (d : Dev) (lo hi v : Nat) : (d.wrPair lo hi v).coal = d.coal := rfl
@[simp] theorem Dev.wrPair_time (d : Dev) (lo hi v : Nat) : (d.wrPair lo hi v).time = d.time := rfl
@[simp] theorem Dev.wrPair_timeSub (d : Dev) (lo hi v : Nat) : (d.wrPair lo hi v).timeSub = d.timeSub := rfl
@[simp] theorem Dev.wrPair_prsQ (d : Dev) (lo hi v : Nat) : (d.wrPair lo hi v).prsQ = d.prsQ := rfl
@[simp] theorem Dev.wrPair_doms (d : Dev) (lo hi v : Nat) : (d.wrPair lo hi v).doms = d.doms := rfl
@[simp] theorem Dev.wrPair_pos (d : Dev) (lo hi v : Nat) : (d.wrPair lo hi v).pos = d.pos := rfl
@[simp] theorem Dev.wrPair_image (d : Dev) (lo hi v : Nat) : (d.wrPair lo hi v).image = d.image := rfl
@[simp] theorem Dev.wrPair_job (d : Dev) (lo hi v : Nat) : (d.wrPair lo hi v).job = d.job := rfl
@[simp] theorem Dev.wrPair_bars (d : Dev) (lo hi v : Nat) : (d.wrPair lo hi v).bars = d.bars := rfl
@[simp] theorem Dev.wrPair_stb (d : Dev) (lo hi v : Nat) : (d.wrPair lo hi v).stb = d.stb := rfl
@[simp] theorem Dev.wrPair_cmp (d : Dev) (lo hi v : Nat) : (d.wrPair lo hi v).cmp = d.cmp := rfl
@[simp] theorem Dev.wrPair_noz (d : Dev) (lo hi v : Nat) : (d.wrPair lo hi v).noz = d.noz := rfl
@[simp] theorem Dev.wrPair_zxl (d : Dev) (lo hi v : Nat) : (d.wrPair lo hi v).zxl = d.zxl := rfl
@[simp] theorem Dev.wrPair_sent (d : Dev) (lo hi v : Nat) : (d.wrPair lo hi v).sent = d.sent := rfl
@[simp] theorem Dev.wrPair_vis (d : Dev) (lo hi v : Nat) : (d.wrPair lo hi v).vis = d.vis := rfl
@[simp] theorem Dev.wrPair_egress (d : Dev) (lo hi v : Nat) : (d.wrPair lo hi v).egress = d.egress := rfl
@[simp] theorem Dev.wrPair_den (d : Dev) (lo hi v : Nat) : (d.wrPair lo hi v).den = d.den := rfl
@[simp] theorem Dev.wrPair_lmp (d : Dev) (lo hi v : Nat) : (d.wrPair lo hi v).lmp = d.lmp := rfl
@[simp] theorem Dev.wrPair_store (d : Dev) (lo hi v : Nat) : (d.wrPair lo hi v).store = d.store := rfl
@[simp] theorem Dev.wrPair_poison (d : Dev) (lo hi v : Nat) : (d.wrPair lo hi v).poison = d.poison := rfl
@[simp] theorem Dev.wrPair_drc (d : Dev) (lo hi v : Nat) : (d.wrPair lo hi v).drc = d.drc := rfl
@[simp] theorem Dev.wrPair_dpx (d : Dev) (lo hi v : Nat) : (d.wrPair lo hi v).dpx = d.dpx := rfl
@[simp] theorem Dev.wrPair_ptp (d : Dev) (lo hi v : Nat) : (d.wrPair lo hi v).ptp = d.ptp := rfl
@[simp] theorem Dev.wrPair_boot (d : Dev) (lo hi v : Nat) : (d.wrPair lo hi v).boot = d.boot := rfl
@[simp] theorem Dev.wrPair_thm (d : Dev) (lo hi v : Nat) : (d.wrPair lo hi v).thm = d.thm := rfl
@[simp] theorem Dev.wrPair_frz (d : Dev) (lo hi v : Nat) : (d.wrPair lo hi v).frz = d.frz := rfl
@[simp] theorem Dev.wrPair_jtag (d : Dev) (lo hi v : Nat) : (d.wrPair lo hi v).jtag = d.jtag := rfl
@[simp] theorem Dev.wrPair_prsFailed (d : Dev) (lo hi v : Nat) : (d.wrPair lo hi v).prsFailed = d.prsFailed := rfl
@[simp] theorem Dev.wrPair_sigs (d : Dev) (lo hi v : Nat) : (d.wrPair lo hi v).sigs = d.sigs := rfl
@[simp] theorem Dev.wrPair_evq (d : Dev) (lo hi v : Nat) : (d.wrPair lo hi v).evq = d.evq := rfl
@[simp] theorem Dev.wrPair_snap (d : Dev) (lo hi v : Nat) : (d.wrPair lo hi v).snap = d.snap := rfl
@[simp] theorem Dev.wrPair_egr (d : Dev) (lo hi v : Nat) : (d.wrPair lo hi v).egr = d.egr := rfl
@[simp] theorem Dev.wrPair_hst (d : Dev) (lo hi v : Nat) : (d.wrPair lo hi v).hst = d.hst := rfl
@[simp] theorem Dev.wrPair_rt (d : Dev) (lo hi v : Nat) : (d.wrPair lo hi v).rt = d.rt := rfl
@[simp] theorem Dev.wrPair_was (d : Dev) (lo hi v : Nat) : (d.wrPair lo hi v).was = d.was := rfl
@[simp] theorem Dev.wrPair_shown (d : Dev) (lo hi v : Nat) : (d.wrPair lo hi v).shown = d.shown := rfl
@[simp] theorem Dev.wrPair_crcAt (d : Dev) (lo hi v : Nat) : (d.wrPair lo hi v).crcAt = d.crcAt := rfl

@[simp] theorem Dev.effWr_regs (d : Dev) (a : Nat) (v : Word) : (d.effWr a v).regs = d.regs := rfl
@[simp] theorem Dev.effWr_shadow (d : Dev) (a : Nat) (v : Word) : (d.effWr a v).shadow = d.shadow := rfl
@[simp] theorem Dev.effWr_now (d : Dev) (a : Nat) (v : Word) : (d.effWr a v).now = d.now := rfl
@[simp] theorem Dev.effWr_fresh (d : Dev) (a : Nat) (v : Word) : (d.effWr a v).fresh = d.fresh := rfl
@[simp] theorem Dev.effWr_sys (d : Dev) (a : Nat) (v : Word) : (d.effWr a v).sys = d.sys := rfl
@[simp] theorem Dev.effWr_raised (d : Dev) (a : Nat) (v : Word) : (d.effWr a v).raised = d.raised := rfl
@[simp] theorem Dev.effWr_coal (d : Dev) (a : Nat) (v : Word) : (d.effWr a v).coal = d.coal := rfl
@[simp] theorem Dev.effWr_time (d : Dev) (a : Nat) (v : Word) : (d.effWr a v).time = d.time := rfl
@[simp] theorem Dev.effWr_timeSub (d : Dev) (a : Nat) (v : Word) : (d.effWr a v).timeSub = d.timeSub := rfl
@[simp] theorem Dev.effWr_prsQ (d : Dev) (a : Nat) (v : Word) : (d.effWr a v).prsQ = d.prsQ := rfl
@[simp] theorem Dev.effWr_doms (d : Dev) (a : Nat) (v : Word) : (d.effWr a v).doms = d.doms := rfl
@[simp] theorem Dev.effWr_pos (d : Dev) (a : Nat) (v : Word) : (d.effWr a v).pos = d.pos := rfl
@[simp] theorem Dev.effWr_image (d : Dev) (a : Nat) (v : Word) : (d.effWr a v).image = d.image := rfl
@[simp] theorem Dev.effWr_job (d : Dev) (a : Nat) (v : Word) : (d.effWr a v).job = d.job := rfl
@[simp] theorem Dev.effWr_bars (d : Dev) (a : Nat) (v : Word) : (d.effWr a v).bars = d.bars := rfl
@[simp] theorem Dev.effWr_stb (d : Dev) (a : Nat) (v : Word) : (d.effWr a v).stb = d.stb := rfl
@[simp] theorem Dev.effWr_cmp (d : Dev) (a : Nat) (v : Word) : (d.effWr a v).cmp = d.cmp := rfl
@[simp] theorem Dev.effWr_noz (d : Dev) (a : Nat) (v : Word) : (d.effWr a v).noz = d.noz := rfl
@[simp] theorem Dev.effWr_zxl (d : Dev) (a : Nat) (v : Word) : (d.effWr a v).zxl = d.zxl := rfl
@[simp] theorem Dev.effWr_sent (d : Dev) (a : Nat) (v : Word) : (d.effWr a v).sent = d.sent := rfl
@[simp] theorem Dev.effWr_vis (d : Dev) (a : Nat) (v : Word) : (d.effWr a v).vis = d.vis := rfl
@[simp] theorem Dev.effWr_egress (d : Dev) (a : Nat) (v : Word) : (d.effWr a v).egress = d.egress := rfl
@[simp] theorem Dev.effWr_den (d : Dev) (a : Nat) (v : Word) : (d.effWr a v).den = d.den := rfl
@[simp] theorem Dev.effWr_lmp (d : Dev) (a : Nat) (v : Word) : (d.effWr a v).lmp = d.lmp := rfl
@[simp] theorem Dev.effWr_store (d : Dev) (a : Nat) (v : Word) : (d.effWr a v).store = d.store := rfl
@[simp] theorem Dev.effWr_poison (d : Dev) (a : Nat) (v : Word) : (d.effWr a v).poison = d.poison := rfl
@[simp] theorem Dev.effWr_drc (d : Dev) (a : Nat) (v : Word) : (d.effWr a v).drc = d.drc := rfl
@[simp] theorem Dev.effWr_dpx (d : Dev) (a : Nat) (v : Word) : (d.effWr a v).dpx = d.dpx := rfl
@[simp] theorem Dev.effWr_ptp (d : Dev) (a : Nat) (v : Word) : (d.effWr a v).ptp = d.ptp := rfl
@[simp] theorem Dev.effWr_boot (d : Dev) (a : Nat) (v : Word) : (d.effWr a v).boot = d.boot := rfl
@[simp] theorem Dev.effWr_thm (d : Dev) (a : Nat) (v : Word) : (d.effWr a v).thm = d.thm := rfl
@[simp] theorem Dev.effWr_frz (d : Dev) (a : Nat) (v : Word) : (d.effWr a v).frz = d.frz := rfl
@[simp] theorem Dev.effWr_jtag (d : Dev) (a : Nat) (v : Word) : (d.effWr a v).jtag = d.jtag := rfl
@[simp] theorem Dev.effWr_prsFailed (d : Dev) (a : Nat) (v : Word) : (d.effWr a v).prsFailed = d.prsFailed := rfl
@[simp] theorem Dev.effWr_sigs (d : Dev) (a : Nat) (v : Word) : (d.effWr a v).sigs = d.sigs := rfl
@[simp] theorem Dev.effWr_evq (d : Dev) (a : Nat) (v : Word) : (d.effWr a v).evq = d.evq := rfl
@[simp] theorem Dev.effWr_snap (d : Dev) (a : Nat) (v : Word) : (d.effWr a v).snap = d.snap := rfl
@[simp] theorem Dev.effWr_egr (d : Dev) (a : Nat) (v : Word) : (d.effWr a v).egr = d.egr := rfl
@[simp] theorem Dev.effWr_hst (d : Dev) (a : Nat) (v : Word) : (d.effWr a v).hst = d.hst := rfl
@[simp] theorem Dev.effWr_rt (d : Dev) (a : Nat) (v : Word) : (d.effWr a v).rt = d.rt := rfl
@[simp] theorem Dev.effWr_was (d : Dev) (a : Nat) (v : Word) : (d.effWr a v).was = d.was := rfl
@[simp] theorem Dev.effWr_shown (d : Dev) (a : Nat) (v : Word) : (d.effWr a v).shown = d.shown := rfl
@[simp] theorem Dev.effWr_crcAt (d : Dev) (a : Nat) (v : Word) : (d.effWr a v).crcAt = d.crcAt := rfl

@[simp] theorem Dev.raise_regs (d : Dev) (k : EvKind) (bar : Nat) (ep : Option Nat) (l : List Nat) : (d.raise k bar ep l).regs = d.regs := rfl
@[simp] theorem Dev.raise_shadow (d : Dev) (k : EvKind) (bar : Nat) (ep : Option Nat) (l : List Nat) : (d.raise k bar ep l).shadow = d.shadow := rfl
@[simp] theorem Dev.raise_eff (d : Dev) (k : EvKind) (bar : Nat) (ep : Option Nat) (l : List Nat) : (d.raise k bar ep l).eff = d.eff := rfl
@[simp] theorem Dev.raise_now (d : Dev) (k : EvKind) (bar : Nat) (ep : Option Nat) (l : List Nat) : (d.raise k bar ep l).now = d.now := rfl
@[simp] theorem Dev.raise_fresh (d : Dev) (k : EvKind) (bar : Nat) (ep : Option Nat) (l : List Nat) : (d.raise k bar ep l).fresh = d.fresh := rfl
@[simp] theorem Dev.raise_sys (d : Dev) (k : EvKind) (bar : Nat) (ep : Option Nat) (l : List Nat) : (d.raise k bar ep l).sys = d.sys := rfl
@[simp] theorem Dev.raise_coal (d : Dev) (k : EvKind) (bar : Nat) (ep : Option Nat) (l : List Nat) : (d.raise k bar ep l).coal = d.coal := rfl
@[simp] theorem Dev.raise_time (d : Dev) (k : EvKind) (bar : Nat) (ep : Option Nat) (l : List Nat) : (d.raise k bar ep l).time = d.time := rfl
@[simp] theorem Dev.raise_timeSub (d : Dev) (k : EvKind) (bar : Nat) (ep : Option Nat) (l : List Nat) : (d.raise k bar ep l).timeSub = d.timeSub := rfl
@[simp] theorem Dev.raise_prsQ (d : Dev) (k : EvKind) (bar : Nat) (ep : Option Nat) (l : List Nat) : (d.raise k bar ep l).prsQ = d.prsQ := rfl
@[simp] theorem Dev.raise_doms (d : Dev) (k : EvKind) (bar : Nat) (ep : Option Nat) (l : List Nat) : (d.raise k bar ep l).doms = d.doms := rfl
@[simp] theorem Dev.raise_pos (d : Dev) (k : EvKind) (bar : Nat) (ep : Option Nat) (l : List Nat) : (d.raise k bar ep l).pos = d.pos := rfl
@[simp] theorem Dev.raise_image (d : Dev) (k : EvKind) (bar : Nat) (ep : Option Nat) (l : List Nat) : (d.raise k bar ep l).image = d.image := rfl
@[simp] theorem Dev.raise_job (d : Dev) (k : EvKind) (bar : Nat) (ep : Option Nat) (l : List Nat) : (d.raise k bar ep l).job = d.job := rfl
@[simp] theorem Dev.raise_bars (d : Dev) (k : EvKind) (bar : Nat) (ep : Option Nat) (l : List Nat) : (d.raise k bar ep l).bars = d.bars := rfl
@[simp] theorem Dev.raise_stb (d : Dev) (k : EvKind) (bar : Nat) (ep : Option Nat) (l : List Nat) : (d.raise k bar ep l).stb = d.stb := rfl
@[simp] theorem Dev.raise_cmp (d : Dev) (k : EvKind) (bar : Nat) (ep : Option Nat) (l : List Nat) : (d.raise k bar ep l).cmp = d.cmp := rfl
@[simp] theorem Dev.raise_noz (d : Dev) (k : EvKind) (bar : Nat) (ep : Option Nat) (l : List Nat) : (d.raise k bar ep l).noz = d.noz := rfl
@[simp] theorem Dev.raise_zxl (d : Dev) (k : EvKind) (bar : Nat) (ep : Option Nat) (l : List Nat) : (d.raise k bar ep l).zxl = d.zxl := rfl
@[simp] theorem Dev.raise_sent (d : Dev) (k : EvKind) (bar : Nat) (ep : Option Nat) (l : List Nat) : (d.raise k bar ep l).sent = d.sent := rfl
@[simp] theorem Dev.raise_vis (d : Dev) (k : EvKind) (bar : Nat) (ep : Option Nat) (l : List Nat) : (d.raise k bar ep l).vis = d.vis := rfl
@[simp] theorem Dev.raise_egress (d : Dev) (k : EvKind) (bar : Nat) (ep : Option Nat) (l : List Nat) : (d.raise k bar ep l).egress = d.egress := rfl
@[simp] theorem Dev.raise_den (d : Dev) (k : EvKind) (bar : Nat) (ep : Option Nat) (l : List Nat) : (d.raise k bar ep l).den = d.den := rfl
@[simp] theorem Dev.raise_lmp (d : Dev) (k : EvKind) (bar : Nat) (ep : Option Nat) (l : List Nat) : (d.raise k bar ep l).lmp = d.lmp := rfl
@[simp] theorem Dev.raise_store (d : Dev) (k : EvKind) (bar : Nat) (ep : Option Nat) (l : List Nat) : (d.raise k bar ep l).store = d.store := rfl
@[simp] theorem Dev.raise_poison (d : Dev) (k : EvKind) (bar : Nat) (ep : Option Nat) (l : List Nat) : (d.raise k bar ep l).poison = d.poison := rfl
@[simp] theorem Dev.raise_drc (d : Dev) (k : EvKind) (bar : Nat) (ep : Option Nat) (l : List Nat) : (d.raise k bar ep l).drc = d.drc := rfl
@[simp] theorem Dev.raise_dpx (d : Dev) (k : EvKind) (bar : Nat) (ep : Option Nat) (l : List Nat) : (d.raise k bar ep l).dpx = d.dpx := rfl
@[simp] theorem Dev.raise_ptp (d : Dev) (k : EvKind) (bar : Nat) (ep : Option Nat) (l : List Nat) : (d.raise k bar ep l).ptp = d.ptp := rfl
@[simp] theorem Dev.raise_boot (d : Dev) (k : EvKind) (bar : Nat) (ep : Option Nat) (l : List Nat) : (d.raise k bar ep l).boot = d.boot := rfl
@[simp] theorem Dev.raise_thm (d : Dev) (k : EvKind) (bar : Nat) (ep : Option Nat) (l : List Nat) : (d.raise k bar ep l).thm = d.thm := rfl
@[simp] theorem Dev.raise_frz (d : Dev) (k : EvKind) (bar : Nat) (ep : Option Nat) (l : List Nat) : (d.raise k bar ep l).frz = d.frz := rfl
@[simp] theorem Dev.raise_jtag (d : Dev) (k : EvKind) (bar : Nat) (ep : Option Nat) (l : List Nat) : (d.raise k bar ep l).jtag = d.jtag := rfl
@[simp] theorem Dev.raise_prsFailed (d : Dev) (k : EvKind) (bar : Nat) (ep : Option Nat) (l : List Nat) : (d.raise k bar ep l).prsFailed = d.prsFailed := rfl
@[simp] theorem Dev.raise_sigs (d : Dev) (k : EvKind) (bar : Nat) (ep : Option Nat) (l : List Nat) : (d.raise k bar ep l).sigs = d.sigs := rfl
@[simp] theorem Dev.raise_evq (d : Dev) (k : EvKind) (bar : Nat) (ep : Option Nat) (l : List Nat) : (d.raise k bar ep l).evq = d.evq := rfl
@[simp] theorem Dev.raise_snap (d : Dev) (k : EvKind) (bar : Nat) (ep : Option Nat) (l : List Nat) : (d.raise k bar ep l).snap = d.snap := rfl
@[simp] theorem Dev.raise_egr (d : Dev) (k : EvKind) (bar : Nat) (ep : Option Nat) (l : List Nat) : (d.raise k bar ep l).egr = d.egr := rfl
@[simp] theorem Dev.raise_hst (d : Dev) (k : EvKind) (bar : Nat) (ep : Option Nat) (l : List Nat) : (d.raise k bar ep l).hst = d.hst := rfl
@[simp] theorem Dev.raise_rt (d : Dev) (k : EvKind) (bar : Nat) (ep : Option Nat) (l : List Nat) : (d.raise k bar ep l).rt = d.rt := rfl
@[simp] theorem Dev.raise_was (d : Dev) (k : EvKind) (bar : Nat) (ep : Option Nat) (l : List Nat) : (d.raise k bar ep l).was = d.was := rfl
@[simp] theorem Dev.raise_shown (d : Dev) (k : EvKind) (bar : Nat) (ep : Option Nat) (l : List Nat) : (d.raise k bar ep l).shown = d.shown := rfl
@[simp] theorem Dev.raise_crcAt (d : Dev) (k : EvKind) (bar : Nat) (ep : Option Nat) (l : List Nat) : (d.raise k bar ep l).crcAt = d.crcAt := rfl

@[simp] theorem Dev.raiseC_regs (d : Dev) (k : EvKind) (key bar : Nat) (ep : Option Nat) (l : List Nat) (n : Nat) (sums : List (Nat × Nat)) : (d.raiseC k key bar ep l n sums).regs = d.regs := rfl
@[simp] theorem Dev.raiseC_shadow (d : Dev) (k : EvKind) (key bar : Nat) (ep : Option Nat) (l : List Nat) (n : Nat) (sums : List (Nat × Nat)) : (d.raiseC k key bar ep l n sums).shadow = d.shadow := rfl
@[simp] theorem Dev.raiseC_eff (d : Dev) (k : EvKind) (key bar : Nat) (ep : Option Nat) (l : List Nat) (n : Nat) (sums : List (Nat × Nat)) : (d.raiseC k key bar ep l n sums).eff = d.eff := rfl
@[simp] theorem Dev.raiseC_now (d : Dev) (k : EvKind) (key bar : Nat) (ep : Option Nat) (l : List Nat) (n : Nat) (sums : List (Nat × Nat)) : (d.raiseC k key bar ep l n sums).now = d.now := rfl
@[simp] theorem Dev.raiseC_fresh (d : Dev) (k : EvKind) (key bar : Nat) (ep : Option Nat) (l : List Nat) (n : Nat) (sums : List (Nat × Nat)) : (d.raiseC k key bar ep l n sums).fresh = d.fresh := rfl
@[simp] theorem Dev.raiseC_sys (d : Dev) (k : EvKind) (key bar : Nat) (ep : Option Nat) (l : List Nat) (n : Nat) (sums : List (Nat × Nat)) : (d.raiseC k key bar ep l n sums).sys = d.sys := rfl
@[simp] theorem Dev.raiseC_raised (d : Dev) (k : EvKind) (key bar : Nat) (ep : Option Nat) (l : List Nat) (n : Nat) (sums : List (Nat × Nat)) : (d.raiseC k key bar ep l n sums).raised = d.raised := rfl
@[simp] theorem Dev.raiseC_time (d : Dev) (k : EvKind) (key bar : Nat) (ep : Option Nat) (l : List Nat) (n : Nat) (sums : List (Nat × Nat)) : (d.raiseC k key bar ep l n sums).time = d.time := rfl
@[simp] theorem Dev.raiseC_timeSub (d : Dev) (k : EvKind) (key bar : Nat) (ep : Option Nat) (l : List Nat) (n : Nat) (sums : List (Nat × Nat)) : (d.raiseC k key bar ep l n sums).timeSub = d.timeSub := rfl
@[simp] theorem Dev.raiseC_prsQ (d : Dev) (k : EvKind) (key bar : Nat) (ep : Option Nat) (l : List Nat) (n : Nat) (sums : List (Nat × Nat)) : (d.raiseC k key bar ep l n sums).prsQ = d.prsQ := rfl
@[simp] theorem Dev.raiseC_doms (d : Dev) (k : EvKind) (key bar : Nat) (ep : Option Nat) (l : List Nat) (n : Nat) (sums : List (Nat × Nat)) : (d.raiseC k key bar ep l n sums).doms = d.doms := rfl
@[simp] theorem Dev.raiseC_pos (d : Dev) (k : EvKind) (key bar : Nat) (ep : Option Nat) (l : List Nat) (n : Nat) (sums : List (Nat × Nat)) : (d.raiseC k key bar ep l n sums).pos = d.pos := rfl
@[simp] theorem Dev.raiseC_image (d : Dev) (k : EvKind) (key bar : Nat) (ep : Option Nat) (l : List Nat) (n : Nat) (sums : List (Nat × Nat)) : (d.raiseC k key bar ep l n sums).image = d.image := rfl
@[simp] theorem Dev.raiseC_job (d : Dev) (k : EvKind) (key bar : Nat) (ep : Option Nat) (l : List Nat) (n : Nat) (sums : List (Nat × Nat)) : (d.raiseC k key bar ep l n sums).job = d.job := rfl
@[simp] theorem Dev.raiseC_bars (d : Dev) (k : EvKind) (key bar : Nat) (ep : Option Nat) (l : List Nat) (n : Nat) (sums : List (Nat × Nat)) : (d.raiseC k key bar ep l n sums).bars = d.bars := rfl
@[simp] theorem Dev.raiseC_stb (d : Dev) (k : EvKind) (key bar : Nat) (ep : Option Nat) (l : List Nat) (n : Nat) (sums : List (Nat × Nat)) : (d.raiseC k key bar ep l n sums).stb = d.stb := rfl
@[simp] theorem Dev.raiseC_cmp (d : Dev) (k : EvKind) (key bar : Nat) (ep : Option Nat) (l : List Nat) (n : Nat) (sums : List (Nat × Nat)) : (d.raiseC k key bar ep l n sums).cmp = d.cmp := rfl
@[simp] theorem Dev.raiseC_noz (d : Dev) (k : EvKind) (key bar : Nat) (ep : Option Nat) (l : List Nat) (n : Nat) (sums : List (Nat × Nat)) : (d.raiseC k key bar ep l n sums).noz = d.noz := rfl
@[simp] theorem Dev.raiseC_zxl (d : Dev) (k : EvKind) (key bar : Nat) (ep : Option Nat) (l : List Nat) (n : Nat) (sums : List (Nat × Nat)) : (d.raiseC k key bar ep l n sums).zxl = d.zxl := rfl
@[simp] theorem Dev.raiseC_sent (d : Dev) (k : EvKind) (key bar : Nat) (ep : Option Nat) (l : List Nat) (n : Nat) (sums : List (Nat × Nat)) : (d.raiseC k key bar ep l n sums).sent = d.sent := rfl
@[simp] theorem Dev.raiseC_vis (d : Dev) (k : EvKind) (key bar : Nat) (ep : Option Nat) (l : List Nat) (n : Nat) (sums : List (Nat × Nat)) : (d.raiseC k key bar ep l n sums).vis = d.vis := rfl
@[simp] theorem Dev.raiseC_egress (d : Dev) (k : EvKind) (key bar : Nat) (ep : Option Nat) (l : List Nat) (n : Nat) (sums : List (Nat × Nat)) : (d.raiseC k key bar ep l n sums).egress = d.egress := rfl
@[simp] theorem Dev.raiseC_den (d : Dev) (k : EvKind) (key bar : Nat) (ep : Option Nat) (l : List Nat) (n : Nat) (sums : List (Nat × Nat)) : (d.raiseC k key bar ep l n sums).den = d.den := rfl
@[simp] theorem Dev.raiseC_lmp (d : Dev) (k : EvKind) (key bar : Nat) (ep : Option Nat) (l : List Nat) (n : Nat) (sums : List (Nat × Nat)) : (d.raiseC k key bar ep l n sums).lmp = d.lmp := rfl
@[simp] theorem Dev.raiseC_store (d : Dev) (k : EvKind) (key bar : Nat) (ep : Option Nat) (l : List Nat) (n : Nat) (sums : List (Nat × Nat)) : (d.raiseC k key bar ep l n sums).store = d.store := rfl
@[simp] theorem Dev.raiseC_poison (d : Dev) (k : EvKind) (key bar : Nat) (ep : Option Nat) (l : List Nat) (n : Nat) (sums : List (Nat × Nat)) : (d.raiseC k key bar ep l n sums).poison = d.poison := rfl
@[simp] theorem Dev.raiseC_drc (d : Dev) (k : EvKind) (key bar : Nat) (ep : Option Nat) (l : List Nat) (n : Nat) (sums : List (Nat × Nat)) : (d.raiseC k key bar ep l n sums).drc = d.drc := rfl
@[simp] theorem Dev.raiseC_dpx (d : Dev) (k : EvKind) (key bar : Nat) (ep : Option Nat) (l : List Nat) (n : Nat) (sums : List (Nat × Nat)) : (d.raiseC k key bar ep l n sums).dpx = d.dpx := rfl
@[simp] theorem Dev.raiseC_ptp (d : Dev) (k : EvKind) (key bar : Nat) (ep : Option Nat) (l : List Nat) (n : Nat) (sums : List (Nat × Nat)) : (d.raiseC k key bar ep l n sums).ptp = d.ptp := rfl
@[simp] theorem Dev.raiseC_boot (d : Dev) (k : EvKind) (key bar : Nat) (ep : Option Nat) (l : List Nat) (n : Nat) (sums : List (Nat × Nat)) : (d.raiseC k key bar ep l n sums).boot = d.boot := rfl
@[simp] theorem Dev.raiseC_thm (d : Dev) (k : EvKind) (key bar : Nat) (ep : Option Nat) (l : List Nat) (n : Nat) (sums : List (Nat × Nat)) : (d.raiseC k key bar ep l n sums).thm = d.thm := rfl
@[simp] theorem Dev.raiseC_frz (d : Dev) (k : EvKind) (key bar : Nat) (ep : Option Nat) (l : List Nat) (n : Nat) (sums : List (Nat × Nat)) : (d.raiseC k key bar ep l n sums).frz = d.frz := rfl
@[simp] theorem Dev.raiseC_jtag (d : Dev) (k : EvKind) (key bar : Nat) (ep : Option Nat) (l : List Nat) (n : Nat) (sums : List (Nat × Nat)) : (d.raiseC k key bar ep l n sums).jtag = d.jtag := rfl
@[simp] theorem Dev.raiseC_prsFailed (d : Dev) (k : EvKind) (key bar : Nat) (ep : Option Nat) (l : List Nat) (n : Nat) (sums : List (Nat × Nat)) : (d.raiseC k key bar ep l n sums).prsFailed = d.prsFailed := rfl
@[simp] theorem Dev.raiseC_sigs (d : Dev) (k : EvKind) (key bar : Nat) (ep : Option Nat) (l : List Nat) (n : Nat) (sums : List (Nat × Nat)) : (d.raiseC k key bar ep l n sums).sigs = d.sigs := rfl
@[simp] theorem Dev.raiseC_evq (d : Dev) (k : EvKind) (key bar : Nat) (ep : Option Nat) (l : List Nat) (n : Nat) (sums : List (Nat × Nat)) : (d.raiseC k key bar ep l n sums).evq = d.evq := rfl
@[simp] theorem Dev.raiseC_snap (d : Dev) (k : EvKind) (key bar : Nat) (ep : Option Nat) (l : List Nat) (n : Nat) (sums : List (Nat × Nat)) : (d.raiseC k key bar ep l n sums).snap = d.snap := rfl
@[simp] theorem Dev.raiseC_egr (d : Dev) (k : EvKind) (key bar : Nat) (ep : Option Nat) (l : List Nat) (n : Nat) (sums : List (Nat × Nat)) : (d.raiseC k key bar ep l n sums).egr = d.egr := rfl
@[simp] theorem Dev.raiseC_hst (d : Dev) (k : EvKind) (key bar : Nat) (ep : Option Nat) (l : List Nat) (n : Nat) (sums : List (Nat × Nat)) : (d.raiseC k key bar ep l n sums).hst = d.hst := rfl
@[simp] theorem Dev.raiseC_rt (d : Dev) (k : EvKind) (key bar : Nat) (ep : Option Nat) (l : List Nat) (n : Nat) (sums : List (Nat × Nat)) : (d.raiseC k key bar ep l n sums).rt = d.rt := rfl
@[simp] theorem Dev.raiseC_was (d : Dev) (k : EvKind) (key bar : Nat) (ep : Option Nat) (l : List Nat) (n : Nat) (sums : List (Nat × Nat)) : (d.raiseC k key bar ep l n sums).was = d.was := rfl
@[simp] theorem Dev.raiseC_shown (d : Dev) (k : EvKind) (key bar : Nat) (ep : Option Nat) (l : List Nat) (n : Nat) (sums : List (Nat × Nat)) : (d.raiseC k key bar ep l n sums).shown = d.shown := rfl
@[simp] theorem Dev.raiseC_crcAt (d : Dev) (k : EvKind) (key bar : Nat) (ep : Option Nat) (l : List Nat) (n : Nat) (sums : List (Nat × Nat)) : (d.raiseC k key bar ep l n sums).crcAt = d.crcAt := rfl

@[simp] theorem Dev.domainOff_regs (d : Dev) (blk : Nat) : (d.domainOff blk).regs = d.regs := rfl
@[simp] theorem Dev.domainOff_shadow (d : Dev) (blk : Nat) : (d.domainOff blk).shadow = d.shadow := rfl
@[simp] theorem Dev.domainOff_eff (d : Dev) (blk : Nat) : (d.domainOff blk).eff = d.eff := rfl
@[simp] theorem Dev.domainOff_now (d : Dev) (blk : Nat) : (d.domainOff blk).now = d.now := rfl
@[simp] theorem Dev.domainOff_fresh (d : Dev) (blk : Nat) : (d.domainOff blk).fresh = d.fresh := rfl
@[simp] theorem Dev.domainOff_sys (d : Dev) (blk : Nat) : (d.domainOff blk).sys = d.sys := rfl
@[simp] theorem Dev.domainOff_raised (d : Dev) (blk : Nat) : (d.domainOff blk).raised = d.raised := rfl
@[simp] theorem Dev.domainOff_time (d : Dev) (blk : Nat) : (d.domainOff blk).time = d.time := rfl
@[simp] theorem Dev.domainOff_timeSub (d : Dev) (blk : Nat) : (d.domainOff blk).timeSub = d.timeSub := rfl
@[simp] theorem Dev.domainOff_prsQ (d : Dev) (blk : Nat) : (d.domainOff blk).prsQ = d.prsQ := rfl
@[simp] theorem Dev.domainOff_doms (d : Dev) (blk : Nat) : (d.domainOff blk).doms = d.doms := rfl
@[simp] theorem Dev.domainOff_pos (d : Dev) (blk : Nat) : (d.domainOff blk).pos = d.pos := rfl
@[simp] theorem Dev.domainOff_image (d : Dev) (blk : Nat) : (d.domainOff blk).image = d.image := rfl
@[simp] theorem Dev.domainOff_job (d : Dev) (blk : Nat) : (d.domainOff blk).job = d.job := rfl
@[simp] theorem Dev.domainOff_bars (d : Dev) (blk : Nat) : (d.domainOff blk).bars = d.bars := rfl
@[simp] theorem Dev.domainOff_stb (d : Dev) (blk : Nat) : (d.domainOff blk).stb = d.stb := rfl
@[simp] theorem Dev.domainOff_cmp (d : Dev) (blk : Nat) : (d.domainOff blk).cmp = d.cmp := rfl
@[simp] theorem Dev.domainOff_noz (d : Dev) (blk : Nat) : (d.domainOff blk).noz = d.noz := rfl
@[simp] theorem Dev.domainOff_zxl (d : Dev) (blk : Nat) : (d.domainOff blk).zxl = d.zxl := rfl
@[simp] theorem Dev.domainOff_sent (d : Dev) (blk : Nat) : (d.domainOff blk).sent = d.sent := rfl
@[simp] theorem Dev.domainOff_vis (d : Dev) (blk : Nat) : (d.domainOff blk).vis = d.vis := rfl
@[simp] theorem Dev.domainOff_egress (d : Dev) (blk : Nat) : (d.domainOff blk).egress = d.egress := rfl
@[simp] theorem Dev.domainOff_den (d : Dev) (blk : Nat) : (d.domainOff blk).den = d.den := rfl
@[simp] theorem Dev.domainOff_lmp (d : Dev) (blk : Nat) : (d.domainOff blk).lmp = d.lmp := rfl
@[simp] theorem Dev.domainOff_store (d : Dev) (blk : Nat) : (d.domainOff blk).store = d.store := rfl
@[simp] theorem Dev.domainOff_poison (d : Dev) (blk : Nat) : (d.domainOff blk).poison = d.poison := rfl
@[simp] theorem Dev.domainOff_drc (d : Dev) (blk : Nat) : (d.domainOff blk).drc = d.drc := rfl
@[simp] theorem Dev.domainOff_dpx (d : Dev) (blk : Nat) : (d.domainOff blk).dpx = d.dpx := rfl
@[simp] theorem Dev.domainOff_ptp (d : Dev) (blk : Nat) : (d.domainOff blk).ptp = d.ptp := rfl
@[simp] theorem Dev.domainOff_boot (d : Dev) (blk : Nat) : (d.domainOff blk).boot = d.boot := rfl
@[simp] theorem Dev.domainOff_thm (d : Dev) (blk : Nat) : (d.domainOff blk).thm = d.thm := rfl
@[simp] theorem Dev.domainOff_frz (d : Dev) (blk : Nat) : (d.domainOff blk).frz = d.frz := rfl
@[simp] theorem Dev.domainOff_jtag (d : Dev) (blk : Nat) : (d.domainOff blk).jtag = d.jtag := rfl
@[simp] theorem Dev.domainOff_prsFailed (d : Dev) (blk : Nat) : (d.domainOff blk).prsFailed = d.prsFailed := rfl
@[simp] theorem Dev.domainOff_sigs (d : Dev) (blk : Nat) : (d.domainOff blk).sigs = d.sigs := rfl
@[simp] theorem Dev.domainOff_evq (d : Dev) (blk : Nat) : (d.domainOff blk).evq = d.evq := rfl
@[simp] theorem Dev.domainOff_snap (d : Dev) (blk : Nat) : (d.domainOff blk).snap = d.snap := rfl
@[simp] theorem Dev.domainOff_egr (d : Dev) (blk : Nat) : (d.domainOff blk).egr = d.egr := rfl
@[simp] theorem Dev.domainOff_hst (d : Dev) (blk : Nat) : (d.domainOff blk).hst = d.hst := rfl
@[simp] theorem Dev.domainOff_rt (d : Dev) (blk : Nat) : (d.domainOff blk).rt = d.rt := rfl
@[simp] theorem Dev.domainOff_was (d : Dev) (blk : Nat) : (d.domainOff blk).was = d.was := rfl
@[simp] theorem Dev.domainOff_shown (d : Dev) (blk : Nat) : (d.domainOff blk).shown = d.shown := rfl
@[simp] theorem Dev.domainOff_crcAt (d : Dev) (blk : Nat) : (d.domainOff blk).crcAt = d.crcAt := rfl

@[simp] theorem Dev.took_regs (d : Dev) : (d.took).regs = d.regs := rfl
@[simp] theorem Dev.took_shadow (d : Dev) : (d.took).shadow = d.shadow := rfl
@[simp] theorem Dev.took_eff (d : Dev) : (d.took).eff = d.eff := rfl
@[simp] theorem Dev.took_now (d : Dev) : (d.took).now = d.now := rfl
@[simp] theorem Dev.took_sys (d : Dev) : (d.took).sys = d.sys := rfl
@[simp] theorem Dev.took_raised (d : Dev) : (d.took).raised = d.raised := rfl
@[simp] theorem Dev.took_coal (d : Dev) : (d.took).coal = d.coal := rfl
@[simp] theorem Dev.took_time (d : Dev) : (d.took).time = d.time := rfl
@[simp] theorem Dev.took_timeSub (d : Dev) : (d.took).timeSub = d.timeSub := rfl
@[simp] theorem Dev.took_prsQ (d : Dev) : (d.took).prsQ = d.prsQ := rfl
@[simp] theorem Dev.took_doms (d : Dev) : (d.took).doms = d.doms := rfl
@[simp] theorem Dev.took_pos (d : Dev) : (d.took).pos = d.pos := rfl
@[simp] theorem Dev.took_image (d : Dev) : (d.took).image = d.image := rfl
@[simp] theorem Dev.took_job (d : Dev) : (d.took).job = d.job := rfl
@[simp] theorem Dev.took_bars (d : Dev) : (d.took).bars = d.bars := rfl
@[simp] theorem Dev.took_stb (d : Dev) : (d.took).stb = d.stb := rfl
@[simp] theorem Dev.took_cmp (d : Dev) : (d.took).cmp = d.cmp := rfl
@[simp] theorem Dev.took_noz (d : Dev) : (d.took).noz = d.noz := rfl
@[simp] theorem Dev.took_zxl (d : Dev) : (d.took).zxl = d.zxl := rfl
@[simp] theorem Dev.took_sent (d : Dev) : (d.took).sent = d.sent := rfl
@[simp] theorem Dev.took_vis (d : Dev) : (d.took).vis = d.vis := rfl
@[simp] theorem Dev.took_egress (d : Dev) : (d.took).egress = d.egress := rfl
@[simp] theorem Dev.took_den (d : Dev) : (d.took).den = d.den := rfl
@[simp] theorem Dev.took_lmp (d : Dev) : (d.took).lmp = d.lmp := rfl
@[simp] theorem Dev.took_store (d : Dev) : (d.took).store = d.store := rfl
@[simp] theorem Dev.took_poison (d : Dev) : (d.took).poison = d.poison := rfl
@[simp] theorem Dev.took_drc (d : Dev) : (d.took).drc = d.drc := rfl
@[simp] theorem Dev.took_dpx (d : Dev) : (d.took).dpx = d.dpx := rfl
@[simp] theorem Dev.took_ptp (d : Dev) : (d.took).ptp = d.ptp := rfl
@[simp] theorem Dev.took_boot (d : Dev) : (d.took).boot = d.boot := rfl
@[simp] theorem Dev.took_thm (d : Dev) : (d.took).thm = d.thm := rfl
@[simp] theorem Dev.took_frz (d : Dev) : (d.took).frz = d.frz := rfl
@[simp] theorem Dev.took_jtag (d : Dev) : (d.took).jtag = d.jtag := rfl
@[simp] theorem Dev.took_prsFailed (d : Dev) : (d.took).prsFailed = d.prsFailed := rfl
@[simp] theorem Dev.took_sigs (d : Dev) : (d.took).sigs = d.sigs := rfl
@[simp] theorem Dev.took_evq (d : Dev) : (d.took).evq = d.evq := rfl
@[simp] theorem Dev.took_snap (d : Dev) : (d.took).snap = d.snap := rfl
@[simp] theorem Dev.took_egr (d : Dev) : (d.took).egr = d.egr := rfl
@[simp] theorem Dev.took_hst (d : Dev) : (d.took).hst = d.hst := rfl
@[simp] theorem Dev.took_rt (d : Dev) : (d.took).rt = d.rt := rfl
@[simp] theorem Dev.took_was (d : Dev) : (d.took).was = d.was := rfl
@[simp] theorem Dev.took_shown (d : Dev) : (d.took).shown = d.shown := rfl
@[simp] theorem Dev.took_crcAt (d : Dev) : (d.took).crcAt = d.crcAt := rfl

@[simp] theorem Dev.signal_regs (d : Dev) (v : Nat) : (d.signal v).regs = d.regs := rfl
@[simp] theorem Dev.signal_shadow (d : Dev) (v : Nat) : (d.signal v).shadow = d.shadow := rfl
@[simp] theorem Dev.signal_eff (d : Dev) (v : Nat) : (d.signal v).eff = d.eff := rfl
@[simp] theorem Dev.signal_now (d : Dev) (v : Nat) : (d.signal v).now = d.now := rfl
@[simp] theorem Dev.signal_fresh (d : Dev) (v : Nat) : (d.signal v).fresh = d.fresh := rfl
@[simp] theorem Dev.signal_sys (d : Dev) (v : Nat) : (d.signal v).sys = d.sys := rfl
@[simp] theorem Dev.signal_raised (d : Dev) (v : Nat) : (d.signal v).raised = d.raised := rfl
@[simp] theorem Dev.signal_coal (d : Dev) (v : Nat) : (d.signal v).coal = d.coal := rfl
@[simp] theorem Dev.signal_time (d : Dev) (v : Nat) : (d.signal v).time = d.time := rfl
@[simp] theorem Dev.signal_timeSub (d : Dev) (v : Nat) : (d.signal v).timeSub = d.timeSub := rfl
@[simp] theorem Dev.signal_prsQ (d : Dev) (v : Nat) : (d.signal v).prsQ = d.prsQ := rfl
@[simp] theorem Dev.signal_doms (d : Dev) (v : Nat) : (d.signal v).doms = d.doms := rfl
@[simp] theorem Dev.signal_pos (d : Dev) (v : Nat) : (d.signal v).pos = d.pos := rfl
@[simp] theorem Dev.signal_image (d : Dev) (v : Nat) : (d.signal v).image = d.image := rfl
@[simp] theorem Dev.signal_job (d : Dev) (v : Nat) : (d.signal v).job = d.job := rfl
@[simp] theorem Dev.signal_bars (d : Dev) (v : Nat) : (d.signal v).bars = d.bars := rfl
@[simp] theorem Dev.signal_stb (d : Dev) (v : Nat) : (d.signal v).stb = d.stb := rfl
@[simp] theorem Dev.signal_cmp (d : Dev) (v : Nat) : (d.signal v).cmp = d.cmp := rfl
@[simp] theorem Dev.signal_noz (d : Dev) (v : Nat) : (d.signal v).noz = d.noz := rfl
@[simp] theorem Dev.signal_zxl (d : Dev) (v : Nat) : (d.signal v).zxl = d.zxl := rfl
@[simp] theorem Dev.signal_sent (d : Dev) (v : Nat) : (d.signal v).sent = d.sent := rfl
@[simp] theorem Dev.signal_vis (d : Dev) (v : Nat) : (d.signal v).vis = d.vis := rfl
@[simp] theorem Dev.signal_egress (d : Dev) (v : Nat) : (d.signal v).egress = d.egress := rfl
@[simp] theorem Dev.signal_den (d : Dev) (v : Nat) : (d.signal v).den = d.den := rfl
@[simp] theorem Dev.signal_lmp (d : Dev) (v : Nat) : (d.signal v).lmp = d.lmp := rfl
@[simp] theorem Dev.signal_store (d : Dev) (v : Nat) : (d.signal v).store = d.store := rfl
@[simp] theorem Dev.signal_poison (d : Dev) (v : Nat) : (d.signal v).poison = d.poison := rfl
@[simp] theorem Dev.signal_drc (d : Dev) (v : Nat) : (d.signal v).drc = d.drc := rfl
@[simp] theorem Dev.signal_dpx (d : Dev) (v : Nat) : (d.signal v).dpx = d.dpx := rfl
@[simp] theorem Dev.signal_ptp (d : Dev) (v : Nat) : (d.signal v).ptp = d.ptp := rfl
@[simp] theorem Dev.signal_boot (d : Dev) (v : Nat) : (d.signal v).boot = d.boot := rfl
@[simp] theorem Dev.signal_thm (d : Dev) (v : Nat) : (d.signal v).thm = d.thm := rfl
@[simp] theorem Dev.signal_frz (d : Dev) (v : Nat) : (d.signal v).frz = d.frz := rfl
@[simp] theorem Dev.signal_jtag (d : Dev) (v : Nat) : (d.signal v).jtag = d.jtag := rfl
@[simp] theorem Dev.signal_prsFailed (d : Dev) (v : Nat) : (d.signal v).prsFailed = d.prsFailed := rfl
@[simp] theorem Dev.signal_evq (d : Dev) (v : Nat) : (d.signal v).evq = d.evq := rfl
@[simp] theorem Dev.signal_snap (d : Dev) (v : Nat) : (d.signal v).snap = d.snap := rfl
@[simp] theorem Dev.signal_egr (d : Dev) (v : Nat) : (d.signal v).egr = d.egr := rfl
@[simp] theorem Dev.signal_hst (d : Dev) (v : Nat) : (d.signal v).hst = d.hst := rfl
@[simp] theorem Dev.signal_rt (d : Dev) (v : Nat) : (d.signal v).rt = d.rt := rfl
@[simp] theorem Dev.signal_was (d : Dev) (v : Nat) : (d.signal v).was = d.was := rfl
@[simp] theorem Dev.signal_shown (d : Dev) (v : Nat) : (d.signal v).shown = d.shown := rfl
@[simp] theorem Dev.signal_crcAt (d : Dev) (v : Nat) : (d.signal v).crcAt = d.crcAt := rfl

@[simp] theorem Dev.emit_regs (d : Dev) (x : Sent) : (d.emit x).regs = d.regs := rfl
@[simp] theorem Dev.emit_shadow (d : Dev) (x : Sent) : (d.emit x).shadow = d.shadow := rfl
@[simp] theorem Dev.emit_eff (d : Dev) (x : Sent) : (d.emit x).eff = d.eff := rfl
@[simp] theorem Dev.emit_now (d : Dev) (x : Sent) : (d.emit x).now = d.now := rfl
@[simp] theorem Dev.emit_fresh (d : Dev) (x : Sent) : (d.emit x).fresh = d.fresh := rfl
@[simp] theorem Dev.emit_sys (d : Dev) (x : Sent) : (d.emit x).sys = d.sys := rfl
@[simp] theorem Dev.emit_raised (d : Dev) (x : Sent) : (d.emit x).raised = d.raised := rfl
@[simp] theorem Dev.emit_coal (d : Dev) (x : Sent) : (d.emit x).coal = d.coal := rfl
@[simp] theorem Dev.emit_time (d : Dev) (x : Sent) : (d.emit x).time = d.time := rfl
@[simp] theorem Dev.emit_timeSub (d : Dev) (x : Sent) : (d.emit x).timeSub = d.timeSub := rfl
@[simp] theorem Dev.emit_prsQ (d : Dev) (x : Sent) : (d.emit x).prsQ = d.prsQ := rfl
@[simp] theorem Dev.emit_doms (d : Dev) (x : Sent) : (d.emit x).doms = d.doms := rfl
@[simp] theorem Dev.emit_pos (d : Dev) (x : Sent) : (d.emit x).pos = d.pos := rfl
@[simp] theorem Dev.emit_image (d : Dev) (x : Sent) : (d.emit x).image = d.image := rfl
@[simp] theorem Dev.emit_job (d : Dev) (x : Sent) : (d.emit x).job = d.job := rfl
@[simp] theorem Dev.emit_bars (d : Dev) (x : Sent) : (d.emit x).bars = d.bars := rfl
@[simp] theorem Dev.emit_stb (d : Dev) (x : Sent) : (d.emit x).stb = d.stb := rfl
@[simp] theorem Dev.emit_cmp (d : Dev) (x : Sent) : (d.emit x).cmp = d.cmp := rfl
@[simp] theorem Dev.emit_noz (d : Dev) (x : Sent) : (d.emit x).noz = d.noz := rfl
@[simp] theorem Dev.emit_zxl (d : Dev) (x : Sent) : (d.emit x).zxl = d.zxl := rfl
@[simp] theorem Dev.emit_vis (d : Dev) (x : Sent) : (d.emit x).vis = d.vis := rfl
@[simp] theorem Dev.emit_egress (d : Dev) (x : Sent) : (d.emit x).egress = d.egress := rfl
@[simp] theorem Dev.emit_den (d : Dev) (x : Sent) : (d.emit x).den = d.den := rfl
@[simp] theorem Dev.emit_lmp (d : Dev) (x : Sent) : (d.emit x).lmp = d.lmp := rfl
@[simp] theorem Dev.emit_store (d : Dev) (x : Sent) : (d.emit x).store = d.store := rfl
@[simp] theorem Dev.emit_poison (d : Dev) (x : Sent) : (d.emit x).poison = d.poison := rfl
@[simp] theorem Dev.emit_drc (d : Dev) (x : Sent) : (d.emit x).drc = d.drc := rfl
@[simp] theorem Dev.emit_dpx (d : Dev) (x : Sent) : (d.emit x).dpx = d.dpx := rfl
@[simp] theorem Dev.emit_ptp (d : Dev) (x : Sent) : (d.emit x).ptp = d.ptp := rfl
@[simp] theorem Dev.emit_boot (d : Dev) (x : Sent) : (d.emit x).boot = d.boot := rfl
@[simp] theorem Dev.emit_thm (d : Dev) (x : Sent) : (d.emit x).thm = d.thm := rfl
@[simp] theorem Dev.emit_frz (d : Dev) (x : Sent) : (d.emit x).frz = d.frz := rfl
@[simp] theorem Dev.emit_jtag (d : Dev) (x : Sent) : (d.emit x).jtag = d.jtag := rfl
@[simp] theorem Dev.emit_prsFailed (d : Dev) (x : Sent) : (d.emit x).prsFailed = d.prsFailed := rfl
@[simp] theorem Dev.emit_sigs (d : Dev) (x : Sent) : (d.emit x).sigs = d.sigs := rfl
@[simp] theorem Dev.emit_evq (d : Dev) (x : Sent) : (d.emit x).evq = d.evq := rfl
@[simp] theorem Dev.emit_snap (d : Dev) (x : Sent) : (d.emit x).snap = d.snap := rfl
@[simp] theorem Dev.emit_egr (d : Dev) (x : Sent) : (d.emit x).egr = d.egr := rfl
@[simp] theorem Dev.emit_hst (d : Dev) (x : Sent) : (d.emit x).hst = d.hst := rfl
@[simp] theorem Dev.emit_rt (d : Dev) (x : Sent) : (d.emit x).rt = d.rt := rfl
@[simp] theorem Dev.emit_was (d : Dev) (x : Sent) : (d.emit x).was = d.was := rfl
@[simp] theorem Dev.emit_shown (d : Dev) (x : Sent) : (d.emit x).shown = d.shown := rfl
@[simp] theorem Dev.emit_crcAt (d : Dev) (x : Sent) : (d.emit x).crcAt = d.crcAt := rfl

@[simp] theorem Dev.prsWrite_regs (d : Dev) (w v : Nat) : (d.prsWrite w v).regs = d.regs := rfl
@[simp] theorem Dev.prsWrite_shadow (d : Dev) (w v : Nat) : (d.prsWrite w v).shadow = d.shadow := rfl
@[simp] theorem Dev.prsWrite_eff (d : Dev) (w v : Nat) : (d.prsWrite w v).eff = d.eff := rfl
@[simp] theorem Dev.prsWrite_now (d : Dev) (w v : Nat) : (d.prsWrite w v).now = d.now := rfl
@[simp] theorem Dev.prsWrite_fresh (d : Dev) (w v : Nat) : (d.prsWrite w v).fresh = d.fresh := rfl
@[simp] theorem Dev.prsWrite_sys (d : Dev) (w v : Nat) : (d.prsWrite w v).sys = d.sys := rfl
@[simp] theorem Dev.prsWrite_raised (d : Dev) (w v : Nat) : (d.prsWrite w v).raised = d.raised := rfl
@[simp] theorem Dev.prsWrite_coal (d : Dev) (w v : Nat) : (d.prsWrite w v).coal = d.coal := rfl
@[simp] theorem Dev.prsWrite_time (d : Dev) (w v : Nat) : (d.prsWrite w v).time = d.time := rfl
@[simp] theorem Dev.prsWrite_timeSub (d : Dev) (w v : Nat) : (d.prsWrite w v).timeSub = d.timeSub := rfl
@[simp] theorem Dev.prsWrite_doms (d : Dev) (w v : Nat) : (d.prsWrite w v).doms = d.doms := rfl
@[simp] theorem Dev.prsWrite_pos (d : Dev) (w v : Nat) : (d.prsWrite w v).pos = d.pos := rfl
@[simp] theorem Dev.prsWrite_image (d : Dev) (w v : Nat) : (d.prsWrite w v).image = d.image := rfl
@[simp] theorem Dev.prsWrite_job (d : Dev) (w v : Nat) : (d.prsWrite w v).job = d.job := rfl
@[simp] theorem Dev.prsWrite_bars (d : Dev) (w v : Nat) : (d.prsWrite w v).bars = d.bars := rfl
@[simp] theorem Dev.prsWrite_stb (d : Dev) (w v : Nat) : (d.prsWrite w v).stb = d.stb := rfl
@[simp] theorem Dev.prsWrite_cmp (d : Dev) (w v : Nat) : (d.prsWrite w v).cmp = d.cmp := rfl
@[simp] theorem Dev.prsWrite_noz (d : Dev) (w v : Nat) : (d.prsWrite w v).noz = d.noz := rfl
@[simp] theorem Dev.prsWrite_zxl (d : Dev) (w v : Nat) : (d.prsWrite w v).zxl = d.zxl := rfl
@[simp] theorem Dev.prsWrite_sent (d : Dev) (w v : Nat) : (d.prsWrite w v).sent = d.sent := rfl
@[simp] theorem Dev.prsWrite_vis (d : Dev) (w v : Nat) : (d.prsWrite w v).vis = d.vis := rfl
@[simp] theorem Dev.prsWrite_egress (d : Dev) (w v : Nat) : (d.prsWrite w v).egress = d.egress := rfl
@[simp] theorem Dev.prsWrite_den (d : Dev) (w v : Nat) : (d.prsWrite w v).den = d.den := rfl
@[simp] theorem Dev.prsWrite_lmp (d : Dev) (w v : Nat) : (d.prsWrite w v).lmp = d.lmp := rfl
@[simp] theorem Dev.prsWrite_store (d : Dev) (w v : Nat) : (d.prsWrite w v).store = d.store := rfl
@[simp] theorem Dev.prsWrite_poison (d : Dev) (w v : Nat) : (d.prsWrite w v).poison = d.poison := rfl
@[simp] theorem Dev.prsWrite_drc (d : Dev) (w v : Nat) : (d.prsWrite w v).drc = d.drc := rfl
@[simp] theorem Dev.prsWrite_dpx (d : Dev) (w v : Nat) : (d.prsWrite w v).dpx = d.dpx := rfl
@[simp] theorem Dev.prsWrite_ptp (d : Dev) (w v : Nat) : (d.prsWrite w v).ptp = d.ptp := rfl
@[simp] theorem Dev.prsWrite_boot (d : Dev) (w v : Nat) : (d.prsWrite w v).boot = d.boot := rfl
@[simp] theorem Dev.prsWrite_thm (d : Dev) (w v : Nat) : (d.prsWrite w v).thm = d.thm := rfl
@[simp] theorem Dev.prsWrite_frz (d : Dev) (w v : Nat) : (d.prsWrite w v).frz = d.frz := rfl
@[simp] theorem Dev.prsWrite_jtag (d : Dev) (w v : Nat) : (d.prsWrite w v).jtag = d.jtag := rfl
@[simp] theorem Dev.prsWrite_prsFailed (d : Dev) (w v : Nat) : (d.prsWrite w v).prsFailed = d.prsFailed := rfl
@[simp] theorem Dev.prsWrite_sigs (d : Dev) (w v : Nat) : (d.prsWrite w v).sigs = d.sigs := rfl
@[simp] theorem Dev.prsWrite_evq (d : Dev) (w v : Nat) : (d.prsWrite w v).evq = d.evq := rfl
@[simp] theorem Dev.prsWrite_snap (d : Dev) (w v : Nat) : (d.prsWrite w v).snap = d.snap := rfl
@[simp] theorem Dev.prsWrite_egr (d : Dev) (w v : Nat) : (d.prsWrite w v).egr = d.egr := rfl
@[simp] theorem Dev.prsWrite_hst (d : Dev) (w v : Nat) : (d.prsWrite w v).hst = d.hst := rfl
@[simp] theorem Dev.prsWrite_rt (d : Dev) (w v : Nat) : (d.prsWrite w v).rt = d.rt := rfl
@[simp] theorem Dev.prsWrite_was (d : Dev) (w v : Nat) : (d.prsWrite w v).was = d.was := rfl
@[simp] theorem Dev.prsWrite_shown (d : Dev) (w v : Nat) : (d.prsWrite w v).shown = d.shown := rfl
@[simp] theorem Dev.prsWrite_crcAt (d : Dev) (w v : Nat) : (d.prsWrite w v).crcAt = d.crcAt := rfl

@[simp] theorem Dev.putByte_regs (d : Dev) (a : Nat) (b : BitVec 8) : (d.putByte a b).regs = d.regs := rfl
@[simp] theorem Dev.putByte_shadow (d : Dev) (a : Nat) (b : BitVec 8) : (d.putByte a b).shadow = d.shadow := rfl
@[simp] theorem Dev.putByte_eff (d : Dev) (a : Nat) (b : BitVec 8) : (d.putByte a b).eff = d.eff := rfl
@[simp] theorem Dev.putByte_now (d : Dev) (a : Nat) (b : BitVec 8) : (d.putByte a b).now = d.now := rfl
@[simp] theorem Dev.putByte_fresh (d : Dev) (a : Nat) (b : BitVec 8) : (d.putByte a b).fresh = d.fresh := rfl
@[simp] theorem Dev.putByte_sys (d : Dev) (a : Nat) (b : BitVec 8) : (d.putByte a b).sys = d.sys := rfl
@[simp] theorem Dev.putByte_raised (d : Dev) (a : Nat) (b : BitVec 8) : (d.putByte a b).raised = d.raised := rfl
@[simp] theorem Dev.putByte_coal (d : Dev) (a : Nat) (b : BitVec 8) : (d.putByte a b).coal = d.coal := rfl
@[simp] theorem Dev.putByte_time (d : Dev) (a : Nat) (b : BitVec 8) : (d.putByte a b).time = d.time := rfl
@[simp] theorem Dev.putByte_timeSub (d : Dev) (a : Nat) (b : BitVec 8) : (d.putByte a b).timeSub = d.timeSub := rfl
@[simp] theorem Dev.putByte_prsQ (d : Dev) (a : Nat) (b : BitVec 8) : (d.putByte a b).prsQ = d.prsQ := rfl
@[simp] theorem Dev.putByte_doms (d : Dev) (a : Nat) (b : BitVec 8) : (d.putByte a b).doms = d.doms := rfl
@[simp] theorem Dev.putByte_pos (d : Dev) (a : Nat) (b : BitVec 8) : (d.putByte a b).pos = d.pos := rfl
@[simp] theorem Dev.putByte_image (d : Dev) (a : Nat) (b : BitVec 8) : (d.putByte a b).image = d.image := rfl
@[simp] theorem Dev.putByte_job (d : Dev) (a : Nat) (b : BitVec 8) : (d.putByte a b).job = d.job := rfl
@[simp] theorem Dev.putByte_bars (d : Dev) (a : Nat) (b : BitVec 8) : (d.putByte a b).bars = d.bars := rfl
@[simp] theorem Dev.putByte_stb (d : Dev) (a : Nat) (b : BitVec 8) : (d.putByte a b).stb = d.stb := rfl
@[simp] theorem Dev.putByte_cmp (d : Dev) (a : Nat) (b : BitVec 8) : (d.putByte a b).cmp = d.cmp := rfl
@[simp] theorem Dev.putByte_noz (d : Dev) (a : Nat) (b : BitVec 8) : (d.putByte a b).noz = d.noz := rfl
@[simp] theorem Dev.putByte_zxl (d : Dev) (a : Nat) (b : BitVec 8) : (d.putByte a b).zxl = d.zxl := rfl
@[simp] theorem Dev.putByte_sent (d : Dev) (a : Nat) (b : BitVec 8) : (d.putByte a b).sent = d.sent := rfl
@[simp] theorem Dev.putByte_vis (d : Dev) (a : Nat) (b : BitVec 8) : (d.putByte a b).vis = d.vis := rfl
@[simp] theorem Dev.putByte_egress (d : Dev) (a : Nat) (b : BitVec 8) : (d.putByte a b).egress = d.egress := rfl
@[simp] theorem Dev.putByte_den (d : Dev) (a : Nat) (b : BitVec 8) : (d.putByte a b).den = d.den := rfl
@[simp] theorem Dev.putByte_lmp (d : Dev) (a : Nat) (b : BitVec 8) : (d.putByte a b).lmp = d.lmp := rfl
@[simp] theorem Dev.putByte_poison (d : Dev) (a : Nat) (b : BitVec 8) : (d.putByte a b).poison = d.poison := rfl
@[simp] theorem Dev.putByte_drc (d : Dev) (a : Nat) (b : BitVec 8) : (d.putByte a b).drc = d.drc := rfl
@[simp] theorem Dev.putByte_dpx (d : Dev) (a : Nat) (b : BitVec 8) : (d.putByte a b).dpx = d.dpx := rfl
@[simp] theorem Dev.putByte_ptp (d : Dev) (a : Nat) (b : BitVec 8) : (d.putByte a b).ptp = d.ptp := rfl
@[simp] theorem Dev.putByte_boot (d : Dev) (a : Nat) (b : BitVec 8) : (d.putByte a b).boot = d.boot := rfl
@[simp] theorem Dev.putByte_thm (d : Dev) (a : Nat) (b : BitVec 8) : (d.putByte a b).thm = d.thm := rfl
@[simp] theorem Dev.putByte_frz (d : Dev) (a : Nat) (b : BitVec 8) : (d.putByte a b).frz = d.frz := rfl
@[simp] theorem Dev.putByte_jtag (d : Dev) (a : Nat) (b : BitVec 8) : (d.putByte a b).jtag = d.jtag := rfl
@[simp] theorem Dev.putByte_prsFailed (d : Dev) (a : Nat) (b : BitVec 8) : (d.putByte a b).prsFailed = d.prsFailed := rfl
@[simp] theorem Dev.putByte_sigs (d : Dev) (a : Nat) (b : BitVec 8) : (d.putByte a b).sigs = d.sigs := rfl
@[simp] theorem Dev.putByte_evq (d : Dev) (a : Nat) (b : BitVec 8) : (d.putByte a b).evq = d.evq := rfl
@[simp] theorem Dev.putByte_snap (d : Dev) (a : Nat) (b : BitVec 8) : (d.putByte a b).snap = d.snap := rfl
@[simp] theorem Dev.putByte_egr (d : Dev) (a : Nat) (b : BitVec 8) : (d.putByte a b).egr = d.egr := rfl
@[simp] theorem Dev.putByte_hst (d : Dev) (a : Nat) (b : BitVec 8) : (d.putByte a b).hst = d.hst := rfl
@[simp] theorem Dev.putByte_rt (d : Dev) (a : Nat) (b : BitVec 8) : (d.putByte a b).rt = d.rt := rfl
@[simp] theorem Dev.putByte_was (d : Dev) (a : Nat) (b : BitVec 8) : (d.putByte a b).was = d.was := rfl
@[simp] theorem Dev.putByte_shown (d : Dev) (a : Nat) (b : BitVec 8) : (d.putByte a b).shown = d.shown := rfl
@[simp] theorem Dev.putByte_crcAt (d : Dev) (a : Nat) (b : BitVec 8) : (d.putByte a b).crcAt = d.crcAt := rfl

@[simp] theorem Dev.modBar_regs (d : Dev) (b : Fin 12) (f : BarSt → BarSt) : (d.modBar b f).regs = d.regs := rfl
@[simp] theorem Dev.modBar_shadow (d : Dev) (b : Fin 12) (f : BarSt → BarSt) : (d.modBar b f).shadow = d.shadow := rfl
@[simp] theorem Dev.modBar_eff (d : Dev) (b : Fin 12) (f : BarSt → BarSt) : (d.modBar b f).eff = d.eff := rfl
@[simp] theorem Dev.modBar_now (d : Dev) (b : Fin 12) (f : BarSt → BarSt) : (d.modBar b f).now = d.now := rfl
@[simp] theorem Dev.modBar_fresh (d : Dev) (b : Fin 12) (f : BarSt → BarSt) : (d.modBar b f).fresh = d.fresh := rfl
@[simp] theorem Dev.modBar_sys (d : Dev) (b : Fin 12) (f : BarSt → BarSt) : (d.modBar b f).sys = d.sys := rfl
@[simp] theorem Dev.modBar_raised (d : Dev) (b : Fin 12) (f : BarSt → BarSt) : (d.modBar b f).raised = d.raised := rfl
@[simp] theorem Dev.modBar_coal (d : Dev) (b : Fin 12) (f : BarSt → BarSt) : (d.modBar b f).coal = d.coal := rfl
@[simp] theorem Dev.modBar_time (d : Dev) (b : Fin 12) (f : BarSt → BarSt) : (d.modBar b f).time = d.time := rfl
@[simp] theorem Dev.modBar_timeSub (d : Dev) (b : Fin 12) (f : BarSt → BarSt) : (d.modBar b f).timeSub = d.timeSub := rfl
@[simp] theorem Dev.modBar_prsQ (d : Dev) (b : Fin 12) (f : BarSt → BarSt) : (d.modBar b f).prsQ = d.prsQ := rfl
@[simp] theorem Dev.modBar_doms (d : Dev) (b : Fin 12) (f : BarSt → BarSt) : (d.modBar b f).doms = d.doms := rfl
@[simp] theorem Dev.modBar_pos (d : Dev) (b : Fin 12) (f : BarSt → BarSt) : (d.modBar b f).pos = d.pos := rfl
@[simp] theorem Dev.modBar_image (d : Dev) (b : Fin 12) (f : BarSt → BarSt) : (d.modBar b f).image = d.image := rfl
@[simp] theorem Dev.modBar_job (d : Dev) (b : Fin 12) (f : BarSt → BarSt) : (d.modBar b f).job = d.job := rfl
@[simp] theorem Dev.modBar_stb (d : Dev) (b : Fin 12) (f : BarSt → BarSt) : (d.modBar b f).stb = d.stb := rfl
@[simp] theorem Dev.modBar_cmp (d : Dev) (b : Fin 12) (f : BarSt → BarSt) : (d.modBar b f).cmp = d.cmp := rfl
@[simp] theorem Dev.modBar_noz (d : Dev) (b : Fin 12) (f : BarSt → BarSt) : (d.modBar b f).noz = d.noz := rfl
@[simp] theorem Dev.modBar_zxl (d : Dev) (b : Fin 12) (f : BarSt → BarSt) : (d.modBar b f).zxl = d.zxl := rfl
@[simp] theorem Dev.modBar_sent (d : Dev) (b : Fin 12) (f : BarSt → BarSt) : (d.modBar b f).sent = d.sent := rfl
@[simp] theorem Dev.modBar_vis (d : Dev) (b : Fin 12) (f : BarSt → BarSt) : (d.modBar b f).vis = d.vis := rfl
@[simp] theorem Dev.modBar_egress (d : Dev) (b : Fin 12) (f : BarSt → BarSt) : (d.modBar b f).egress = d.egress := rfl
@[simp] theorem Dev.modBar_den (d : Dev) (b : Fin 12) (f : BarSt → BarSt) : (d.modBar b f).den = d.den := rfl
@[simp] theorem Dev.modBar_lmp (d : Dev) (b : Fin 12) (f : BarSt → BarSt) : (d.modBar b f).lmp = d.lmp := rfl
@[simp] theorem Dev.modBar_store (d : Dev) (b : Fin 12) (f : BarSt → BarSt) : (d.modBar b f).store = d.store := rfl
@[simp] theorem Dev.modBar_poison (d : Dev) (b : Fin 12) (f : BarSt → BarSt) : (d.modBar b f).poison = d.poison := rfl
@[simp] theorem Dev.modBar_drc (d : Dev) (b : Fin 12) (f : BarSt → BarSt) : (d.modBar b f).drc = d.drc := rfl
@[simp] theorem Dev.modBar_dpx (d : Dev) (b : Fin 12) (f : BarSt → BarSt) : (d.modBar b f).dpx = d.dpx := rfl
@[simp] theorem Dev.modBar_ptp (d : Dev) (b : Fin 12) (f : BarSt → BarSt) : (d.modBar b f).ptp = d.ptp := rfl
@[simp] theorem Dev.modBar_boot (d : Dev) (b : Fin 12) (f : BarSt → BarSt) : (d.modBar b f).boot = d.boot := rfl
@[simp] theorem Dev.modBar_thm (d : Dev) (b : Fin 12) (f : BarSt → BarSt) : (d.modBar b f).thm = d.thm := rfl
@[simp] theorem Dev.modBar_frz (d : Dev) (b : Fin 12) (f : BarSt → BarSt) : (d.modBar b f).frz = d.frz := rfl
@[simp] theorem Dev.modBar_jtag (d : Dev) (b : Fin 12) (f : BarSt → BarSt) : (d.modBar b f).jtag = d.jtag := rfl
@[simp] theorem Dev.modBar_prsFailed (d : Dev) (b : Fin 12) (f : BarSt → BarSt) : (d.modBar b f).prsFailed = d.prsFailed := rfl
@[simp] theorem Dev.modBar_sigs (d : Dev) (b : Fin 12) (f : BarSt → BarSt) : (d.modBar b f).sigs = d.sigs := rfl
@[simp] theorem Dev.modBar_evq (d : Dev) (b : Fin 12) (f : BarSt → BarSt) : (d.modBar b f).evq = d.evq := rfl
@[simp] theorem Dev.modBar_snap (d : Dev) (b : Fin 12) (f : BarSt → BarSt) : (d.modBar b f).snap = d.snap := rfl
@[simp] theorem Dev.modBar_egr (d : Dev) (b : Fin 12) (f : BarSt → BarSt) : (d.modBar b f).egr = d.egr := rfl
@[simp] theorem Dev.modBar_hst (d : Dev) (b : Fin 12) (f : BarSt → BarSt) : (d.modBar b f).hst = d.hst := rfl
@[simp] theorem Dev.modBar_rt (d : Dev) (b : Fin 12) (f : BarSt → BarSt) : (d.modBar b f).rt = d.rt := rfl
@[simp] theorem Dev.modBar_was (d : Dev) (b : Fin 12) (f : BarSt → BarSt) : (d.modBar b f).was = d.was := rfl
@[simp] theorem Dev.modBar_shown (d : Dev) (b : Fin 12) (f : BarSt → BarSt) : (d.modBar b f).shown = d.shown := rfl
@[simp] theorem Dev.modBar_crcAt (d : Dev) (b : Fin 12) (f : BarSt → BarSt) : (d.modBar b f).crcAt = d.crcAt := rfl

@[simp] theorem Dev.posCh_regs (d : Dev) (ch : Fin 4) (f : PosCh → PosCh) : (d.posCh ch f).regs = d.regs := rfl
@[simp] theorem Dev.posCh_shadow (d : Dev) (ch : Fin 4) (f : PosCh → PosCh) : (d.posCh ch f).shadow = d.shadow := rfl
@[simp] theorem Dev.posCh_eff (d : Dev) (ch : Fin 4) (f : PosCh → PosCh) : (d.posCh ch f).eff = d.eff := rfl
@[simp] theorem Dev.posCh_now (d : Dev) (ch : Fin 4) (f : PosCh → PosCh) : (d.posCh ch f).now = d.now := rfl
@[simp] theorem Dev.posCh_fresh (d : Dev) (ch : Fin 4) (f : PosCh → PosCh) : (d.posCh ch f).fresh = d.fresh := rfl
@[simp] theorem Dev.posCh_sys (d : Dev) (ch : Fin 4) (f : PosCh → PosCh) : (d.posCh ch f).sys = d.sys := rfl
@[simp] theorem Dev.posCh_raised (d : Dev) (ch : Fin 4) (f : PosCh → PosCh) : (d.posCh ch f).raised = d.raised := rfl
@[simp] theorem Dev.posCh_coal (d : Dev) (ch : Fin 4) (f : PosCh → PosCh) : (d.posCh ch f).coal = d.coal := rfl
@[simp] theorem Dev.posCh_time (d : Dev) (ch : Fin 4) (f : PosCh → PosCh) : (d.posCh ch f).time = d.time := rfl
@[simp] theorem Dev.posCh_timeSub (d : Dev) (ch : Fin 4) (f : PosCh → PosCh) : (d.posCh ch f).timeSub = d.timeSub := rfl
@[simp] theorem Dev.posCh_prsQ (d : Dev) (ch : Fin 4) (f : PosCh → PosCh) : (d.posCh ch f).prsQ = d.prsQ := rfl
@[simp] theorem Dev.posCh_doms (d : Dev) (ch : Fin 4) (f : PosCh → PosCh) : (d.posCh ch f).doms = d.doms := rfl
@[simp] theorem Dev.posCh_image (d : Dev) (ch : Fin 4) (f : PosCh → PosCh) : (d.posCh ch f).image = d.image := rfl
@[simp] theorem Dev.posCh_job (d : Dev) (ch : Fin 4) (f : PosCh → PosCh) : (d.posCh ch f).job = d.job := rfl
@[simp] theorem Dev.posCh_bars (d : Dev) (ch : Fin 4) (f : PosCh → PosCh) : (d.posCh ch f).bars = d.bars := rfl
@[simp] theorem Dev.posCh_stb (d : Dev) (ch : Fin 4) (f : PosCh → PosCh) : (d.posCh ch f).stb = d.stb := rfl
@[simp] theorem Dev.posCh_cmp (d : Dev) (ch : Fin 4) (f : PosCh → PosCh) : (d.posCh ch f).cmp = d.cmp := rfl
@[simp] theorem Dev.posCh_noz (d : Dev) (ch : Fin 4) (f : PosCh → PosCh) : (d.posCh ch f).noz = d.noz := rfl
@[simp] theorem Dev.posCh_zxl (d : Dev) (ch : Fin 4) (f : PosCh → PosCh) : (d.posCh ch f).zxl = d.zxl := rfl
@[simp] theorem Dev.posCh_sent (d : Dev) (ch : Fin 4) (f : PosCh → PosCh) : (d.posCh ch f).sent = d.sent := rfl
@[simp] theorem Dev.posCh_vis (d : Dev) (ch : Fin 4) (f : PosCh → PosCh) : (d.posCh ch f).vis = d.vis := rfl
@[simp] theorem Dev.posCh_egress (d : Dev) (ch : Fin 4) (f : PosCh → PosCh) : (d.posCh ch f).egress = d.egress := rfl
@[simp] theorem Dev.posCh_den (d : Dev) (ch : Fin 4) (f : PosCh → PosCh) : (d.posCh ch f).den = d.den := rfl
@[simp] theorem Dev.posCh_lmp (d : Dev) (ch : Fin 4) (f : PosCh → PosCh) : (d.posCh ch f).lmp = d.lmp := rfl
@[simp] theorem Dev.posCh_store (d : Dev) (ch : Fin 4) (f : PosCh → PosCh) : (d.posCh ch f).store = d.store := rfl
@[simp] theorem Dev.posCh_poison (d : Dev) (ch : Fin 4) (f : PosCh → PosCh) : (d.posCh ch f).poison = d.poison := rfl
@[simp] theorem Dev.posCh_drc (d : Dev) (ch : Fin 4) (f : PosCh → PosCh) : (d.posCh ch f).drc = d.drc := rfl
@[simp] theorem Dev.posCh_dpx (d : Dev) (ch : Fin 4) (f : PosCh → PosCh) : (d.posCh ch f).dpx = d.dpx := rfl
@[simp] theorem Dev.posCh_ptp (d : Dev) (ch : Fin 4) (f : PosCh → PosCh) : (d.posCh ch f).ptp = d.ptp := rfl
@[simp] theorem Dev.posCh_boot (d : Dev) (ch : Fin 4) (f : PosCh → PosCh) : (d.posCh ch f).boot = d.boot := rfl
@[simp] theorem Dev.posCh_thm (d : Dev) (ch : Fin 4) (f : PosCh → PosCh) : (d.posCh ch f).thm = d.thm := rfl
@[simp] theorem Dev.posCh_frz (d : Dev) (ch : Fin 4) (f : PosCh → PosCh) : (d.posCh ch f).frz = d.frz := rfl
@[simp] theorem Dev.posCh_jtag (d : Dev) (ch : Fin 4) (f : PosCh → PosCh) : (d.posCh ch f).jtag = d.jtag := rfl
@[simp] theorem Dev.posCh_prsFailed (d : Dev) (ch : Fin 4) (f : PosCh → PosCh) : (d.posCh ch f).prsFailed = d.prsFailed := rfl
@[simp] theorem Dev.posCh_sigs (d : Dev) (ch : Fin 4) (f : PosCh → PosCh) : (d.posCh ch f).sigs = d.sigs := rfl
@[simp] theorem Dev.posCh_evq (d : Dev) (ch : Fin 4) (f : PosCh → PosCh) : (d.posCh ch f).evq = d.evq := rfl
@[simp] theorem Dev.posCh_snap (d : Dev) (ch : Fin 4) (f : PosCh → PosCh) : (d.posCh ch f).snap = d.snap := rfl
@[simp] theorem Dev.posCh_egr (d : Dev) (ch : Fin 4) (f : PosCh → PosCh) : (d.posCh ch f).egr = d.egr := rfl
@[simp] theorem Dev.posCh_hst (d : Dev) (ch : Fin 4) (f : PosCh → PosCh) : (d.posCh ch f).hst = d.hst := rfl
@[simp] theorem Dev.posCh_rt (d : Dev) (ch : Fin 4) (f : PosCh → PosCh) : (d.posCh ch f).rt = d.rt := rfl
@[simp] theorem Dev.posCh_was (d : Dev) (ch : Fin 4) (f : PosCh → PosCh) : (d.posCh ch f).was = d.was := rfl
@[simp] theorem Dev.posCh_shown (d : Dev) (ch : Fin 4) (f : PosCh → PosCh) : (d.posCh ch f).shown = d.shown := rfl
@[simp] theorem Dev.posCh_crcAt (d : Dev) (ch : Fin 4) (f : PosCh → PosCh) : (d.posCh ch f).crcAt = d.crcAt := rfl

@[simp] theorem Dev.modStb_regs (d : Dev) (n : Fin 8) (f : Stb → Stb) : (d.modStb n f).regs = d.regs := rfl
@[simp] theorem Dev.modStb_shadow (d : Dev) (n : Fin 8) (f : Stb → Stb) : (d.modStb n f).shadow = d.shadow := rfl
@[simp] theorem Dev.modStb_eff (d : Dev) (n : Fin 8) (f : Stb → Stb) : (d.modStb n f).eff = d.eff := rfl
@[simp] theorem Dev.modStb_now (d : Dev) (n : Fin 8) (f : Stb → Stb) : (d.modStb n f).now = d.now := rfl
@[simp] theorem Dev.modStb_fresh (d : Dev) (n : Fin 8) (f : Stb → Stb) : (d.modStb n f).fresh = d.fresh := rfl
@[simp] theorem Dev.modStb_sys (d : Dev) (n : Fin 8) (f : Stb → Stb) : (d.modStb n f).sys = d.sys := rfl
@[simp] theorem Dev.modStb_raised (d : Dev) (n : Fin 8) (f : Stb → Stb) : (d.modStb n f).raised = d.raised := rfl
@[simp] theorem Dev.modStb_coal (d : Dev) (n : Fin 8) (f : Stb → Stb) : (d.modStb n f).coal = d.coal := rfl
@[simp] theorem Dev.modStb_time (d : Dev) (n : Fin 8) (f : Stb → Stb) : (d.modStb n f).time = d.time := rfl
@[simp] theorem Dev.modStb_timeSub (d : Dev) (n : Fin 8) (f : Stb → Stb) : (d.modStb n f).timeSub = d.timeSub := rfl
@[simp] theorem Dev.modStb_prsQ (d : Dev) (n : Fin 8) (f : Stb → Stb) : (d.modStb n f).prsQ = d.prsQ := rfl
@[simp] theorem Dev.modStb_doms (d : Dev) (n : Fin 8) (f : Stb → Stb) : (d.modStb n f).doms = d.doms := rfl
@[simp] theorem Dev.modStb_pos (d : Dev) (n : Fin 8) (f : Stb → Stb) : (d.modStb n f).pos = d.pos := rfl
@[simp] theorem Dev.modStb_image (d : Dev) (n : Fin 8) (f : Stb → Stb) : (d.modStb n f).image = d.image := rfl
@[simp] theorem Dev.modStb_job (d : Dev) (n : Fin 8) (f : Stb → Stb) : (d.modStb n f).job = d.job := rfl
@[simp] theorem Dev.modStb_bars (d : Dev) (n : Fin 8) (f : Stb → Stb) : (d.modStb n f).bars = d.bars := rfl
@[simp] theorem Dev.modStb_cmp (d : Dev) (n : Fin 8) (f : Stb → Stb) : (d.modStb n f).cmp = d.cmp := rfl
@[simp] theorem Dev.modStb_noz (d : Dev) (n : Fin 8) (f : Stb → Stb) : (d.modStb n f).noz = d.noz := rfl
@[simp] theorem Dev.modStb_zxl (d : Dev) (n : Fin 8) (f : Stb → Stb) : (d.modStb n f).zxl = d.zxl := rfl
@[simp] theorem Dev.modStb_sent (d : Dev) (n : Fin 8) (f : Stb → Stb) : (d.modStb n f).sent = d.sent := rfl
@[simp] theorem Dev.modStb_vis (d : Dev) (n : Fin 8) (f : Stb → Stb) : (d.modStb n f).vis = d.vis := rfl
@[simp] theorem Dev.modStb_egress (d : Dev) (n : Fin 8) (f : Stb → Stb) : (d.modStb n f).egress = d.egress := rfl
@[simp] theorem Dev.modStb_den (d : Dev) (n : Fin 8) (f : Stb → Stb) : (d.modStb n f).den = d.den := rfl
@[simp] theorem Dev.modStb_lmp (d : Dev) (n : Fin 8) (f : Stb → Stb) : (d.modStb n f).lmp = d.lmp := rfl
@[simp] theorem Dev.modStb_store (d : Dev) (n : Fin 8) (f : Stb → Stb) : (d.modStb n f).store = d.store := rfl
@[simp] theorem Dev.modStb_poison (d : Dev) (n : Fin 8) (f : Stb → Stb) : (d.modStb n f).poison = d.poison := rfl
@[simp] theorem Dev.modStb_drc (d : Dev) (n : Fin 8) (f : Stb → Stb) : (d.modStb n f).drc = d.drc := rfl
@[simp] theorem Dev.modStb_dpx (d : Dev) (n : Fin 8) (f : Stb → Stb) : (d.modStb n f).dpx = d.dpx := rfl
@[simp] theorem Dev.modStb_ptp (d : Dev) (n : Fin 8) (f : Stb → Stb) : (d.modStb n f).ptp = d.ptp := rfl
@[simp] theorem Dev.modStb_boot (d : Dev) (n : Fin 8) (f : Stb → Stb) : (d.modStb n f).boot = d.boot := rfl
@[simp] theorem Dev.modStb_thm (d : Dev) (n : Fin 8) (f : Stb → Stb) : (d.modStb n f).thm = d.thm := rfl
@[simp] theorem Dev.modStb_frz (d : Dev) (n : Fin 8) (f : Stb → Stb) : (d.modStb n f).frz = d.frz := rfl
@[simp] theorem Dev.modStb_jtag (d : Dev) (n : Fin 8) (f : Stb → Stb) : (d.modStb n f).jtag = d.jtag := rfl
@[simp] theorem Dev.modStb_prsFailed (d : Dev) (n : Fin 8) (f : Stb → Stb) : (d.modStb n f).prsFailed = d.prsFailed := rfl
@[simp] theorem Dev.modStb_sigs (d : Dev) (n : Fin 8) (f : Stb → Stb) : (d.modStb n f).sigs = d.sigs := rfl
@[simp] theorem Dev.modStb_evq (d : Dev) (n : Fin 8) (f : Stb → Stb) : (d.modStb n f).evq = d.evq := rfl
@[simp] theorem Dev.modStb_snap (d : Dev) (n : Fin 8) (f : Stb → Stb) : (d.modStb n f).snap = d.snap := rfl
@[simp] theorem Dev.modStb_egr (d : Dev) (n : Fin 8) (f : Stb → Stb) : (d.modStb n f).egr = d.egr := rfl
@[simp] theorem Dev.modStb_hst (d : Dev) (n : Fin 8) (f : Stb → Stb) : (d.modStb n f).hst = d.hst := rfl
@[simp] theorem Dev.modStb_rt (d : Dev) (n : Fin 8) (f : Stb → Stb) : (d.modStb n f).rt = d.rt := rfl
@[simp] theorem Dev.modStb_was (d : Dev) (n : Fin 8) (f : Stb → Stb) : (d.modStb n f).was = d.was := rfl
@[simp] theorem Dev.modStb_shown (d : Dev) (n : Fin 8) (f : Stb → Stb) : (d.modStb n f).shown = d.shown := rfl
@[simp] theorem Dev.modStb_crcAt (d : Dev) (n : Fin 8) (f : Stb → Stb) : (d.modStb n f).crcAt = d.crcAt := rfl

@[simp] theorem Dev.modCmp_regs (d : Dev) (n : Fin 32) (f : Cmp → Cmp) : (d.modCmp n f).regs = d.regs := rfl
@[simp] theorem Dev.modCmp_shadow (d : Dev) (n : Fin 32) (f : Cmp → Cmp) : (d.modCmp n f).shadow = d.shadow := rfl
@[simp] theorem Dev.modCmp_eff (d : Dev) (n : Fin 32) (f : Cmp → Cmp) : (d.modCmp n f).eff = d.eff := rfl
@[simp] theorem Dev.modCmp_now (d : Dev) (n : Fin 32) (f : Cmp → Cmp) : (d.modCmp n f).now = d.now := rfl
@[simp] theorem Dev.modCmp_fresh (d : Dev) (n : Fin 32) (f : Cmp → Cmp) : (d.modCmp n f).fresh = d.fresh := rfl
@[simp] theorem Dev.modCmp_sys (d : Dev) (n : Fin 32) (f : Cmp → Cmp) : (d.modCmp n f).sys = d.sys := rfl
@[simp] theorem Dev.modCmp_raised (d : Dev) (n : Fin 32) (f : Cmp → Cmp) : (d.modCmp n f).raised = d.raised := rfl
@[simp] theorem Dev.modCmp_coal (d : Dev) (n : Fin 32) (f : Cmp → Cmp) : (d.modCmp n f).coal = d.coal := rfl
@[simp] theorem Dev.modCmp_time (d : Dev) (n : Fin 32) (f : Cmp → Cmp) : (d.modCmp n f).time = d.time := rfl
@[simp] theorem Dev.modCmp_timeSub (d : Dev) (n : Fin 32) (f : Cmp → Cmp) : (d.modCmp n f).timeSub = d.timeSub := rfl
@[simp] theorem Dev.modCmp_prsQ (d : Dev) (n : Fin 32) (f : Cmp → Cmp) : (d.modCmp n f).prsQ = d.prsQ := rfl
@[simp] theorem Dev.modCmp_doms (d : Dev) (n : Fin 32) (f : Cmp → Cmp) : (d.modCmp n f).doms = d.doms := rfl
@[simp] theorem Dev.modCmp_pos (d : Dev) (n : Fin 32) (f : Cmp → Cmp) : (d.modCmp n f).pos = d.pos := rfl
@[simp] theorem Dev.modCmp_image (d : Dev) (n : Fin 32) (f : Cmp → Cmp) : (d.modCmp n f).image = d.image := rfl
@[simp] theorem Dev.modCmp_job (d : Dev) (n : Fin 32) (f : Cmp → Cmp) : (d.modCmp n f).job = d.job := rfl
@[simp] theorem Dev.modCmp_bars (d : Dev) (n : Fin 32) (f : Cmp → Cmp) : (d.modCmp n f).bars = d.bars := rfl
@[simp] theorem Dev.modCmp_stb (d : Dev) (n : Fin 32) (f : Cmp → Cmp) : (d.modCmp n f).stb = d.stb := rfl
@[simp] theorem Dev.modCmp_noz (d : Dev) (n : Fin 32) (f : Cmp → Cmp) : (d.modCmp n f).noz = d.noz := rfl
@[simp] theorem Dev.modCmp_zxl (d : Dev) (n : Fin 32) (f : Cmp → Cmp) : (d.modCmp n f).zxl = d.zxl := rfl
@[simp] theorem Dev.modCmp_sent (d : Dev) (n : Fin 32) (f : Cmp → Cmp) : (d.modCmp n f).sent = d.sent := rfl
@[simp] theorem Dev.modCmp_vis (d : Dev) (n : Fin 32) (f : Cmp → Cmp) : (d.modCmp n f).vis = d.vis := rfl
@[simp] theorem Dev.modCmp_egress (d : Dev) (n : Fin 32) (f : Cmp → Cmp) : (d.modCmp n f).egress = d.egress := rfl
@[simp] theorem Dev.modCmp_den (d : Dev) (n : Fin 32) (f : Cmp → Cmp) : (d.modCmp n f).den = d.den := rfl
@[simp] theorem Dev.modCmp_lmp (d : Dev) (n : Fin 32) (f : Cmp → Cmp) : (d.modCmp n f).lmp = d.lmp := rfl
@[simp] theorem Dev.modCmp_store (d : Dev) (n : Fin 32) (f : Cmp → Cmp) : (d.modCmp n f).store = d.store := rfl
@[simp] theorem Dev.modCmp_poison (d : Dev) (n : Fin 32) (f : Cmp → Cmp) : (d.modCmp n f).poison = d.poison := rfl
@[simp] theorem Dev.modCmp_drc (d : Dev) (n : Fin 32) (f : Cmp → Cmp) : (d.modCmp n f).drc = d.drc := rfl
@[simp] theorem Dev.modCmp_dpx (d : Dev) (n : Fin 32) (f : Cmp → Cmp) : (d.modCmp n f).dpx = d.dpx := rfl
@[simp] theorem Dev.modCmp_ptp (d : Dev) (n : Fin 32) (f : Cmp → Cmp) : (d.modCmp n f).ptp = d.ptp := rfl
@[simp] theorem Dev.modCmp_boot (d : Dev) (n : Fin 32) (f : Cmp → Cmp) : (d.modCmp n f).boot = d.boot := rfl
@[simp] theorem Dev.modCmp_thm (d : Dev) (n : Fin 32) (f : Cmp → Cmp) : (d.modCmp n f).thm = d.thm := rfl
@[simp] theorem Dev.modCmp_frz (d : Dev) (n : Fin 32) (f : Cmp → Cmp) : (d.modCmp n f).frz = d.frz := rfl
@[simp] theorem Dev.modCmp_jtag (d : Dev) (n : Fin 32) (f : Cmp → Cmp) : (d.modCmp n f).jtag = d.jtag := rfl
@[simp] theorem Dev.modCmp_prsFailed (d : Dev) (n : Fin 32) (f : Cmp → Cmp) : (d.modCmp n f).prsFailed = d.prsFailed := rfl
@[simp] theorem Dev.modCmp_sigs (d : Dev) (n : Fin 32) (f : Cmp → Cmp) : (d.modCmp n f).sigs = d.sigs := rfl
@[simp] theorem Dev.modCmp_evq (d : Dev) (n : Fin 32) (f : Cmp → Cmp) : (d.modCmp n f).evq = d.evq := rfl
@[simp] theorem Dev.modCmp_snap (d : Dev) (n : Fin 32) (f : Cmp → Cmp) : (d.modCmp n f).snap = d.snap := rfl
@[simp] theorem Dev.modCmp_egr (d : Dev) (n : Fin 32) (f : Cmp → Cmp) : (d.modCmp n f).egr = d.egr := rfl
@[simp] theorem Dev.modCmp_hst (d : Dev) (n : Fin 32) (f : Cmp → Cmp) : (d.modCmp n f).hst = d.hst := rfl
@[simp] theorem Dev.modCmp_rt (d : Dev) (n : Fin 32) (f : Cmp → Cmp) : (d.modCmp n f).rt = d.rt := rfl
@[simp] theorem Dev.modCmp_was (d : Dev) (n : Fin 32) (f : Cmp → Cmp) : (d.modCmp n f).was = d.was := rfl
@[simp] theorem Dev.modCmp_shown (d : Dev) (n : Fin 32) (f : Cmp → Cmp) : (d.modCmp n f).shown = d.shown := rfl
@[simp] theorem Dev.modCmp_crcAt (d : Dev) (n : Fin 32) (f : Cmp → Cmp) : (d.modCmp n f).crcAt = d.crcAt := rfl

@[simp] theorem Dev.modIng_regs (d : Dev) (c : Fin 4) (f : Ing → Ing) : (d.modIng c f).regs = d.regs := rfl
@[simp] theorem Dev.modIng_shadow (d : Dev) (c : Fin 4) (f : Ing → Ing) : (d.modIng c f).shadow = d.shadow := rfl
@[simp] theorem Dev.modIng_eff (d : Dev) (c : Fin 4) (f : Ing → Ing) : (d.modIng c f).eff = d.eff := rfl
@[simp] theorem Dev.modIng_now (d : Dev) (c : Fin 4) (f : Ing → Ing) : (d.modIng c f).now = d.now := rfl
@[simp] theorem Dev.modIng_fresh (d : Dev) (c : Fin 4) (f : Ing → Ing) : (d.modIng c f).fresh = d.fresh := rfl
@[simp] theorem Dev.modIng_sys (d : Dev) (c : Fin 4) (f : Ing → Ing) : (d.modIng c f).sys = d.sys := rfl
@[simp] theorem Dev.modIng_raised (d : Dev) (c : Fin 4) (f : Ing → Ing) : (d.modIng c f).raised = d.raised := rfl
@[simp] theorem Dev.modIng_coal (d : Dev) (c : Fin 4) (f : Ing → Ing) : (d.modIng c f).coal = d.coal := rfl
@[simp] theorem Dev.modIng_time (d : Dev) (c : Fin 4) (f : Ing → Ing) : (d.modIng c f).time = d.time := rfl
@[simp] theorem Dev.modIng_timeSub (d : Dev) (c : Fin 4) (f : Ing → Ing) : (d.modIng c f).timeSub = d.timeSub := rfl
@[simp] theorem Dev.modIng_prsQ (d : Dev) (c : Fin 4) (f : Ing → Ing) : (d.modIng c f).prsQ = d.prsQ := rfl
@[simp] theorem Dev.modIng_doms (d : Dev) (c : Fin 4) (f : Ing → Ing) : (d.modIng c f).doms = d.doms := rfl
@[simp] theorem Dev.modIng_pos (d : Dev) (c : Fin 4) (f : Ing → Ing) : (d.modIng c f).pos = d.pos := rfl
@[simp] theorem Dev.modIng_image (d : Dev) (c : Fin 4) (f : Ing → Ing) : (d.modIng c f).image = d.image := rfl
@[simp] theorem Dev.modIng_bars (d : Dev) (c : Fin 4) (f : Ing → Ing) : (d.modIng c f).bars = d.bars := rfl
@[simp] theorem Dev.modIng_stb (d : Dev) (c : Fin 4) (f : Ing → Ing) : (d.modIng c f).stb = d.stb := rfl
@[simp] theorem Dev.modIng_cmp (d : Dev) (c : Fin 4) (f : Ing → Ing) : (d.modIng c f).cmp = d.cmp := rfl
@[simp] theorem Dev.modIng_noz (d : Dev) (c : Fin 4) (f : Ing → Ing) : (d.modIng c f).noz = d.noz := rfl
@[simp] theorem Dev.modIng_zxl (d : Dev) (c : Fin 4) (f : Ing → Ing) : (d.modIng c f).zxl = d.zxl := rfl
@[simp] theorem Dev.modIng_sent (d : Dev) (c : Fin 4) (f : Ing → Ing) : (d.modIng c f).sent = d.sent := rfl
@[simp] theorem Dev.modIng_vis (d : Dev) (c : Fin 4) (f : Ing → Ing) : (d.modIng c f).vis = d.vis := rfl
@[simp] theorem Dev.modIng_egress (d : Dev) (c : Fin 4) (f : Ing → Ing) : (d.modIng c f).egress = d.egress := rfl
@[simp] theorem Dev.modIng_den (d : Dev) (c : Fin 4) (f : Ing → Ing) : (d.modIng c f).den = d.den := rfl
@[simp] theorem Dev.modIng_lmp (d : Dev) (c : Fin 4) (f : Ing → Ing) : (d.modIng c f).lmp = d.lmp := rfl
@[simp] theorem Dev.modIng_store (d : Dev) (c : Fin 4) (f : Ing → Ing) : (d.modIng c f).store = d.store := rfl
@[simp] theorem Dev.modIng_poison (d : Dev) (c : Fin 4) (f : Ing → Ing) : (d.modIng c f).poison = d.poison := rfl
@[simp] theorem Dev.modIng_drc (d : Dev) (c : Fin 4) (f : Ing → Ing) : (d.modIng c f).drc = d.drc := rfl
@[simp] theorem Dev.modIng_dpx (d : Dev) (c : Fin 4) (f : Ing → Ing) : (d.modIng c f).dpx = d.dpx := rfl
@[simp] theorem Dev.modIng_ptp (d : Dev) (c : Fin 4) (f : Ing → Ing) : (d.modIng c f).ptp = d.ptp := rfl
@[simp] theorem Dev.modIng_boot (d : Dev) (c : Fin 4) (f : Ing → Ing) : (d.modIng c f).boot = d.boot := rfl
@[simp] theorem Dev.modIng_thm (d : Dev) (c : Fin 4) (f : Ing → Ing) : (d.modIng c f).thm = d.thm := rfl
@[simp] theorem Dev.modIng_frz (d : Dev) (c : Fin 4) (f : Ing → Ing) : (d.modIng c f).frz = d.frz := rfl
@[simp] theorem Dev.modIng_jtag (d : Dev) (c : Fin 4) (f : Ing → Ing) : (d.modIng c f).jtag = d.jtag := rfl
@[simp] theorem Dev.modIng_prsFailed (d : Dev) (c : Fin 4) (f : Ing → Ing) : (d.modIng c f).prsFailed = d.prsFailed := rfl
@[simp] theorem Dev.modIng_sigs (d : Dev) (c : Fin 4) (f : Ing → Ing) : (d.modIng c f).sigs = d.sigs := rfl
@[simp] theorem Dev.modIng_evq (d : Dev) (c : Fin 4) (f : Ing → Ing) : (d.modIng c f).evq = d.evq := rfl
@[simp] theorem Dev.modIng_snap (d : Dev) (c : Fin 4) (f : Ing → Ing) : (d.modIng c f).snap = d.snap := rfl
@[simp] theorem Dev.modIng_egr (d : Dev) (c : Fin 4) (f : Ing → Ing) : (d.modIng c f).egr = d.egr := rfl
@[simp] theorem Dev.modIng_hst (d : Dev) (c : Fin 4) (f : Ing → Ing) : (d.modIng c f).hst = d.hst := rfl
@[simp] theorem Dev.modIng_rt (d : Dev) (c : Fin 4) (f : Ing → Ing) : (d.modIng c f).rt = d.rt := rfl
@[simp] theorem Dev.modIng_was (d : Dev) (c : Fin 4) (f : Ing → Ing) : (d.modIng c f).was = d.was := rfl
@[simp] theorem Dev.modIng_shown (d : Dev) (c : Fin 4) (f : Ing → Ing) : (d.modIng c f).shown = d.shown := rfl
@[simp] theorem Dev.modIng_crcAt (d : Dev) (c : Fin 4) (f : Ing → Ing) : (d.modIng c f).crcAt = d.crcAt := rfl

@[simp] theorem Dev.modLane_regs (d : Dev) (n : Fin 18) (f : LaneSt → LaneSt) : (d.modLane n f).regs = d.regs := rfl
@[simp] theorem Dev.modLane_shadow (d : Dev) (n : Fin 18) (f : LaneSt → LaneSt) : (d.modLane n f).shadow = d.shadow := rfl
@[simp] theorem Dev.modLane_eff (d : Dev) (n : Fin 18) (f : LaneSt → LaneSt) : (d.modLane n f).eff = d.eff := rfl
@[simp] theorem Dev.modLane_now (d : Dev) (n : Fin 18) (f : LaneSt → LaneSt) : (d.modLane n f).now = d.now := rfl
@[simp] theorem Dev.modLane_fresh (d : Dev) (n : Fin 18) (f : LaneSt → LaneSt) : (d.modLane n f).fresh = d.fresh := rfl
@[simp] theorem Dev.modLane_sys (d : Dev) (n : Fin 18) (f : LaneSt → LaneSt) : (d.modLane n f).sys = d.sys := rfl
@[simp] theorem Dev.modLane_raised (d : Dev) (n : Fin 18) (f : LaneSt → LaneSt) : (d.modLane n f).raised = d.raised := rfl
@[simp] theorem Dev.modLane_coal (d : Dev) (n : Fin 18) (f : LaneSt → LaneSt) : (d.modLane n f).coal = d.coal := rfl
@[simp] theorem Dev.modLane_time (d : Dev) (n : Fin 18) (f : LaneSt → LaneSt) : (d.modLane n f).time = d.time := rfl
@[simp] theorem Dev.modLane_timeSub (d : Dev) (n : Fin 18) (f : LaneSt → LaneSt) : (d.modLane n f).timeSub = d.timeSub := rfl
@[simp] theorem Dev.modLane_prsQ (d : Dev) (n : Fin 18) (f : LaneSt → LaneSt) : (d.modLane n f).prsQ = d.prsQ := rfl
@[simp] theorem Dev.modLane_doms (d : Dev) (n : Fin 18) (f : LaneSt → LaneSt) : (d.modLane n f).doms = d.doms := rfl
@[simp] theorem Dev.modLane_pos (d : Dev) (n : Fin 18) (f : LaneSt → LaneSt) : (d.modLane n f).pos = d.pos := rfl
@[simp] theorem Dev.modLane_image (d : Dev) (n : Fin 18) (f : LaneSt → LaneSt) : (d.modLane n f).image = d.image := rfl
@[simp] theorem Dev.modLane_job (d : Dev) (n : Fin 18) (f : LaneSt → LaneSt) : (d.modLane n f).job = d.job := rfl
@[simp] theorem Dev.modLane_bars (d : Dev) (n : Fin 18) (f : LaneSt → LaneSt) : (d.modLane n f).bars = d.bars := rfl
@[simp] theorem Dev.modLane_stb (d : Dev) (n : Fin 18) (f : LaneSt → LaneSt) : (d.modLane n f).stb = d.stb := rfl
@[simp] theorem Dev.modLane_cmp (d : Dev) (n : Fin 18) (f : LaneSt → LaneSt) : (d.modLane n f).cmp = d.cmp := rfl
@[simp] theorem Dev.modLane_noz (d : Dev) (n : Fin 18) (f : LaneSt → LaneSt) : (d.modLane n f).noz = d.noz := rfl
@[simp] theorem Dev.modLane_sent (d : Dev) (n : Fin 18) (f : LaneSt → LaneSt) : (d.modLane n f).sent = d.sent := rfl
@[simp] theorem Dev.modLane_vis (d : Dev) (n : Fin 18) (f : LaneSt → LaneSt) : (d.modLane n f).vis = d.vis := rfl
@[simp] theorem Dev.modLane_egress (d : Dev) (n : Fin 18) (f : LaneSt → LaneSt) : (d.modLane n f).egress = d.egress := rfl
@[simp] theorem Dev.modLane_den (d : Dev) (n : Fin 18) (f : LaneSt → LaneSt) : (d.modLane n f).den = d.den := rfl
@[simp] theorem Dev.modLane_lmp (d : Dev) (n : Fin 18) (f : LaneSt → LaneSt) : (d.modLane n f).lmp = d.lmp := rfl
@[simp] theorem Dev.modLane_store (d : Dev) (n : Fin 18) (f : LaneSt → LaneSt) : (d.modLane n f).store = d.store := rfl
@[simp] theorem Dev.modLane_poison (d : Dev) (n : Fin 18) (f : LaneSt → LaneSt) : (d.modLane n f).poison = d.poison := rfl
@[simp] theorem Dev.modLane_drc (d : Dev) (n : Fin 18) (f : LaneSt → LaneSt) : (d.modLane n f).drc = d.drc := rfl
@[simp] theorem Dev.modLane_dpx (d : Dev) (n : Fin 18) (f : LaneSt → LaneSt) : (d.modLane n f).dpx = d.dpx := rfl
@[simp] theorem Dev.modLane_ptp (d : Dev) (n : Fin 18) (f : LaneSt → LaneSt) : (d.modLane n f).ptp = d.ptp := rfl
@[simp] theorem Dev.modLane_boot (d : Dev) (n : Fin 18) (f : LaneSt → LaneSt) : (d.modLane n f).boot = d.boot := rfl
@[simp] theorem Dev.modLane_thm (d : Dev) (n : Fin 18) (f : LaneSt → LaneSt) : (d.modLane n f).thm = d.thm := rfl
@[simp] theorem Dev.modLane_frz (d : Dev) (n : Fin 18) (f : LaneSt → LaneSt) : (d.modLane n f).frz = d.frz := rfl
@[simp] theorem Dev.modLane_jtag (d : Dev) (n : Fin 18) (f : LaneSt → LaneSt) : (d.modLane n f).jtag = d.jtag := rfl
@[simp] theorem Dev.modLane_prsFailed (d : Dev) (n : Fin 18) (f : LaneSt → LaneSt) : (d.modLane n f).prsFailed = d.prsFailed := rfl
@[simp] theorem Dev.modLane_sigs (d : Dev) (n : Fin 18) (f : LaneSt → LaneSt) : (d.modLane n f).sigs = d.sigs := rfl
@[simp] theorem Dev.modLane_evq (d : Dev) (n : Fin 18) (f : LaneSt → LaneSt) : (d.modLane n f).evq = d.evq := rfl
@[simp] theorem Dev.modLane_snap (d : Dev) (n : Fin 18) (f : LaneSt → LaneSt) : (d.modLane n f).snap = d.snap := rfl
@[simp] theorem Dev.modLane_egr (d : Dev) (n : Fin 18) (f : LaneSt → LaneSt) : (d.modLane n f).egr = d.egr := rfl
@[simp] theorem Dev.modLane_hst (d : Dev) (n : Fin 18) (f : LaneSt → LaneSt) : (d.modLane n f).hst = d.hst := rfl
@[simp] theorem Dev.modLane_rt (d : Dev) (n : Fin 18) (f : LaneSt → LaneSt) : (d.modLane n f).rt = d.rt := rfl
@[simp] theorem Dev.modLane_was (d : Dev) (n : Fin 18) (f : LaneSt → LaneSt) : (d.modLane n f).was = d.was := rfl
@[simp] theorem Dev.modLane_shown (d : Dev) (n : Fin 18) (f : LaneSt → LaneSt) : (d.modLane n f).shown = d.shown := rfl
@[simp] theorem Dev.modLane_crcAt (d : Dev) (n : Fin 18) (f : LaneSt → LaneSt) : (d.modLane n f).crcAt = d.crcAt := rfl

@[simp] theorem Dev.modPort_regs (d : Dev) (p : Fin 4) (f : VisPort → VisPort) : (d.modPort p f).regs = d.regs := rfl
@[simp] theorem Dev.modPort_shadow (d : Dev) (p : Fin 4) (f : VisPort → VisPort) : (d.modPort p f).shadow = d.shadow := rfl
@[simp] theorem Dev.modPort_eff (d : Dev) (p : Fin 4) (f : VisPort → VisPort) : (d.modPort p f).eff = d.eff := rfl
@[simp] theorem Dev.modPort_now (d : Dev) (p : Fin 4) (f : VisPort → VisPort) : (d.modPort p f).now = d.now := rfl
@[simp] theorem Dev.modPort_fresh (d : Dev) (p : Fin 4) (f : VisPort → VisPort) : (d.modPort p f).fresh = d.fresh := rfl
@[simp] theorem Dev.modPort_sys (d : Dev) (p : Fin 4) (f : VisPort → VisPort) : (d.modPort p f).sys = d.sys := rfl
@[simp] theorem Dev.modPort_raised (d : Dev) (p : Fin 4) (f : VisPort → VisPort) : (d.modPort p f).raised = d.raised := rfl
@[simp] theorem Dev.modPort_coal (d : Dev) (p : Fin 4) (f : VisPort → VisPort) : (d.modPort p f).coal = d.coal := rfl
@[simp] theorem Dev.modPort_time (d : Dev) (p : Fin 4) (f : VisPort → VisPort) : (d.modPort p f).time = d.time := rfl
@[simp] theorem Dev.modPort_timeSub (d : Dev) (p : Fin 4) (f : VisPort → VisPort) : (d.modPort p f).timeSub = d.timeSub := rfl
@[simp] theorem Dev.modPort_prsQ (d : Dev) (p : Fin 4) (f : VisPort → VisPort) : (d.modPort p f).prsQ = d.prsQ := rfl
@[simp] theorem Dev.modPort_doms (d : Dev) (p : Fin 4) (f : VisPort → VisPort) : (d.modPort p f).doms = d.doms := rfl
@[simp] theorem Dev.modPort_pos (d : Dev) (p : Fin 4) (f : VisPort → VisPort) : (d.modPort p f).pos = d.pos := rfl
@[simp] theorem Dev.modPort_image (d : Dev) (p : Fin 4) (f : VisPort → VisPort) : (d.modPort p f).image = d.image := rfl
@[simp] theorem Dev.modPort_job (d : Dev) (p : Fin 4) (f : VisPort → VisPort) : (d.modPort p f).job = d.job := rfl
@[simp] theorem Dev.modPort_bars (d : Dev) (p : Fin 4) (f : VisPort → VisPort) : (d.modPort p f).bars = d.bars := rfl
@[simp] theorem Dev.modPort_stb (d : Dev) (p : Fin 4) (f : VisPort → VisPort) : (d.modPort p f).stb = d.stb := rfl
@[simp] theorem Dev.modPort_cmp (d : Dev) (p : Fin 4) (f : VisPort → VisPort) : (d.modPort p f).cmp = d.cmp := rfl
@[simp] theorem Dev.modPort_noz (d : Dev) (p : Fin 4) (f : VisPort → VisPort) : (d.modPort p f).noz = d.noz := rfl
@[simp] theorem Dev.modPort_zxl (d : Dev) (p : Fin 4) (f : VisPort → VisPort) : (d.modPort p f).zxl = d.zxl := rfl
@[simp] theorem Dev.modPort_sent (d : Dev) (p : Fin 4) (f : VisPort → VisPort) : (d.modPort p f).sent = d.sent := rfl
@[simp] theorem Dev.modPort_egress (d : Dev) (p : Fin 4) (f : VisPort → VisPort) : (d.modPort p f).egress = d.egress := rfl
@[simp] theorem Dev.modPort_den (d : Dev) (p : Fin 4) (f : VisPort → VisPort) : (d.modPort p f).den = d.den := rfl
@[simp] theorem Dev.modPort_lmp (d : Dev) (p : Fin 4) (f : VisPort → VisPort) : (d.modPort p f).lmp = d.lmp := rfl
@[simp] theorem Dev.modPort_store (d : Dev) (p : Fin 4) (f : VisPort → VisPort) : (d.modPort p f).store = d.store := rfl
@[simp] theorem Dev.modPort_poison (d : Dev) (p : Fin 4) (f : VisPort → VisPort) : (d.modPort p f).poison = d.poison := rfl
@[simp] theorem Dev.modPort_drc (d : Dev) (p : Fin 4) (f : VisPort → VisPort) : (d.modPort p f).drc = d.drc := rfl
@[simp] theorem Dev.modPort_dpx (d : Dev) (p : Fin 4) (f : VisPort → VisPort) : (d.modPort p f).dpx = d.dpx := rfl
@[simp] theorem Dev.modPort_ptp (d : Dev) (p : Fin 4) (f : VisPort → VisPort) : (d.modPort p f).ptp = d.ptp := rfl
@[simp] theorem Dev.modPort_boot (d : Dev) (p : Fin 4) (f : VisPort → VisPort) : (d.modPort p f).boot = d.boot := rfl
@[simp] theorem Dev.modPort_thm (d : Dev) (p : Fin 4) (f : VisPort → VisPort) : (d.modPort p f).thm = d.thm := rfl
@[simp] theorem Dev.modPort_frz (d : Dev) (p : Fin 4) (f : VisPort → VisPort) : (d.modPort p f).frz = d.frz := rfl
@[simp] theorem Dev.modPort_jtag (d : Dev) (p : Fin 4) (f : VisPort → VisPort) : (d.modPort p f).jtag = d.jtag := rfl
@[simp] theorem Dev.modPort_prsFailed (d : Dev) (p : Fin 4) (f : VisPort → VisPort) : (d.modPort p f).prsFailed = d.prsFailed := rfl
@[simp] theorem Dev.modPort_sigs (d : Dev) (p : Fin 4) (f : VisPort → VisPort) : (d.modPort p f).sigs = d.sigs := rfl
@[simp] theorem Dev.modPort_evq (d : Dev) (p : Fin 4) (f : VisPort → VisPort) : (d.modPort p f).evq = d.evq := rfl
@[simp] theorem Dev.modPort_snap (d : Dev) (p : Fin 4) (f : VisPort → VisPort) : (d.modPort p f).snap = d.snap := rfl
@[simp] theorem Dev.modPort_egr (d : Dev) (p : Fin 4) (f : VisPort → VisPort) : (d.modPort p f).egr = d.egr := rfl
@[simp] theorem Dev.modPort_hst (d : Dev) (p : Fin 4) (f : VisPort → VisPort) : (d.modPort p f).hst = d.hst := rfl
@[simp] theorem Dev.modPort_rt (d : Dev) (p : Fin 4) (f : VisPort → VisPort) : (d.modPort p f).rt = d.rt := rfl
@[simp] theorem Dev.modPort_was (d : Dev) (p : Fin 4) (f : VisPort → VisPort) : (d.modPort p f).was = d.was := rfl
@[simp] theorem Dev.modPort_shown (d : Dev) (p : Fin 4) (f : VisPort → VisPort) : (d.modPort p f).shown = d.shown := rfl
@[simp] theorem Dev.modPort_crcAt (d : Dev) (p : Fin 4) (f : VisPort → VisPort) : (d.modPort p f).crcAt = d.crcAt := rfl

@[simp] theorem Dev.modLamp_regs (d : Dev) (m : Fin 16) (f : LampMod → LampMod) : (d.modLamp m f).regs = d.regs := rfl
@[simp] theorem Dev.modLamp_shadow (d : Dev) (m : Fin 16) (f : LampMod → LampMod) : (d.modLamp m f).shadow = d.shadow := rfl
@[simp] theorem Dev.modLamp_eff (d : Dev) (m : Fin 16) (f : LampMod → LampMod) : (d.modLamp m f).eff = d.eff := rfl
@[simp] theorem Dev.modLamp_now (d : Dev) (m : Fin 16) (f : LampMod → LampMod) : (d.modLamp m f).now = d.now := rfl
@[simp] theorem Dev.modLamp_fresh (d : Dev) (m : Fin 16) (f : LampMod → LampMod) : (d.modLamp m f).fresh = d.fresh := rfl
@[simp] theorem Dev.modLamp_sys (d : Dev) (m : Fin 16) (f : LampMod → LampMod) : (d.modLamp m f).sys = d.sys := rfl
@[simp] theorem Dev.modLamp_raised (d : Dev) (m : Fin 16) (f : LampMod → LampMod) : (d.modLamp m f).raised = d.raised := rfl
@[simp] theorem Dev.modLamp_coal (d : Dev) (m : Fin 16) (f : LampMod → LampMod) : (d.modLamp m f).coal = d.coal := rfl
@[simp] theorem Dev.modLamp_time (d : Dev) (m : Fin 16) (f : LampMod → LampMod) : (d.modLamp m f).time = d.time := rfl
@[simp] theorem Dev.modLamp_timeSub (d : Dev) (m : Fin 16) (f : LampMod → LampMod) : (d.modLamp m f).timeSub = d.timeSub := rfl
@[simp] theorem Dev.modLamp_prsQ (d : Dev) (m : Fin 16) (f : LampMod → LampMod) : (d.modLamp m f).prsQ = d.prsQ := rfl
@[simp] theorem Dev.modLamp_doms (d : Dev) (m : Fin 16) (f : LampMod → LampMod) : (d.modLamp m f).doms = d.doms := rfl
@[simp] theorem Dev.modLamp_pos (d : Dev) (m : Fin 16) (f : LampMod → LampMod) : (d.modLamp m f).pos = d.pos := rfl
@[simp] theorem Dev.modLamp_image (d : Dev) (m : Fin 16) (f : LampMod → LampMod) : (d.modLamp m f).image = d.image := rfl
@[simp] theorem Dev.modLamp_job (d : Dev) (m : Fin 16) (f : LampMod → LampMod) : (d.modLamp m f).job = d.job := rfl
@[simp] theorem Dev.modLamp_bars (d : Dev) (m : Fin 16) (f : LampMod → LampMod) : (d.modLamp m f).bars = d.bars := rfl
@[simp] theorem Dev.modLamp_stb (d : Dev) (m : Fin 16) (f : LampMod → LampMod) : (d.modLamp m f).stb = d.stb := rfl
@[simp] theorem Dev.modLamp_cmp (d : Dev) (m : Fin 16) (f : LampMod → LampMod) : (d.modLamp m f).cmp = d.cmp := rfl
@[simp] theorem Dev.modLamp_noz (d : Dev) (m : Fin 16) (f : LampMod → LampMod) : (d.modLamp m f).noz = d.noz := rfl
@[simp] theorem Dev.modLamp_zxl (d : Dev) (m : Fin 16) (f : LampMod → LampMod) : (d.modLamp m f).zxl = d.zxl := rfl
@[simp] theorem Dev.modLamp_sent (d : Dev) (m : Fin 16) (f : LampMod → LampMod) : (d.modLamp m f).sent = d.sent := rfl
@[simp] theorem Dev.modLamp_vis (d : Dev) (m : Fin 16) (f : LampMod → LampMod) : (d.modLamp m f).vis = d.vis := rfl
@[simp] theorem Dev.modLamp_egress (d : Dev) (m : Fin 16) (f : LampMod → LampMod) : (d.modLamp m f).egress = d.egress := rfl
@[simp] theorem Dev.modLamp_den (d : Dev) (m : Fin 16) (f : LampMod → LampMod) : (d.modLamp m f).den = d.den := rfl
@[simp] theorem Dev.modLamp_store (d : Dev) (m : Fin 16) (f : LampMod → LampMod) : (d.modLamp m f).store = d.store := rfl
@[simp] theorem Dev.modLamp_poison (d : Dev) (m : Fin 16) (f : LampMod → LampMod) : (d.modLamp m f).poison = d.poison := rfl
@[simp] theorem Dev.modLamp_drc (d : Dev) (m : Fin 16) (f : LampMod → LampMod) : (d.modLamp m f).drc = d.drc := rfl
@[simp] theorem Dev.modLamp_dpx (d : Dev) (m : Fin 16) (f : LampMod → LampMod) : (d.modLamp m f).dpx = d.dpx := rfl
@[simp] theorem Dev.modLamp_ptp (d : Dev) (m : Fin 16) (f : LampMod → LampMod) : (d.modLamp m f).ptp = d.ptp := rfl
@[simp] theorem Dev.modLamp_boot (d : Dev) (m : Fin 16) (f : LampMod → LampMod) : (d.modLamp m f).boot = d.boot := rfl
@[simp] theorem Dev.modLamp_thm (d : Dev) (m : Fin 16) (f : LampMod → LampMod) : (d.modLamp m f).thm = d.thm := rfl
@[simp] theorem Dev.modLamp_frz (d : Dev) (m : Fin 16) (f : LampMod → LampMod) : (d.modLamp m f).frz = d.frz := rfl
@[simp] theorem Dev.modLamp_jtag (d : Dev) (m : Fin 16) (f : LampMod → LampMod) : (d.modLamp m f).jtag = d.jtag := rfl
@[simp] theorem Dev.modLamp_prsFailed (d : Dev) (m : Fin 16) (f : LampMod → LampMod) : (d.modLamp m f).prsFailed = d.prsFailed := rfl
@[simp] theorem Dev.modLamp_sigs (d : Dev) (m : Fin 16) (f : LampMod → LampMod) : (d.modLamp m f).sigs = d.sigs := rfl
@[simp] theorem Dev.modLamp_evq (d : Dev) (m : Fin 16) (f : LampMod → LampMod) : (d.modLamp m f).evq = d.evq := rfl
@[simp] theorem Dev.modLamp_snap (d : Dev) (m : Fin 16) (f : LampMod → LampMod) : (d.modLamp m f).snap = d.snap := rfl
@[simp] theorem Dev.modLamp_egr (d : Dev) (m : Fin 16) (f : LampMod → LampMod) : (d.modLamp m f).egr = d.egr := rfl
@[simp] theorem Dev.modLamp_hst (d : Dev) (m : Fin 16) (f : LampMod → LampMod) : (d.modLamp m f).hst = d.hst := rfl
@[simp] theorem Dev.modLamp_rt (d : Dev) (m : Fin 16) (f : LampMod → LampMod) : (d.modLamp m f).rt = d.rt := rfl
@[simp] theorem Dev.modLamp_was (d : Dev) (m : Fin 16) (f : LampMod → LampMod) : (d.modLamp m f).was = d.was := rfl
@[simp] theorem Dev.modLamp_shown (d : Dev) (m : Fin 16) (f : LampMod → LampMod) : (d.modLamp m f).shown = d.shown := rfl
@[simp] theorem Dev.modLamp_crcAt (d : Dev) (m : Fin 16) (f : LampMod → LampMod) : (d.modLamp m f).crcAt = d.crcAt := rfl

@[simp] theorem Dev.modCr_regs (d : Dev) (i : Fin 8) (f : ChanRank → ChanRank) : (d.modCr i f).regs = d.regs := rfl
@[simp] theorem Dev.modCr_shadow (d : Dev) (i : Fin 8) (f : ChanRank → ChanRank) : (d.modCr i f).shadow = d.shadow := rfl
@[simp] theorem Dev.modCr_eff (d : Dev) (i : Fin 8) (f : ChanRank → ChanRank) : (d.modCr i f).eff = d.eff := rfl
@[simp] theorem Dev.modCr_now (d : Dev) (i : Fin 8) (f : ChanRank → ChanRank) : (d.modCr i f).now = d.now := rfl
@[simp] theorem Dev.modCr_fresh (d : Dev) (i : Fin 8) (f : ChanRank → ChanRank) : (d.modCr i f).fresh = d.fresh := rfl
@[simp] theorem Dev.modCr_sys (d : Dev) (i : Fin 8) (f : ChanRank → ChanRank) : (d.modCr i f).sys = d.sys := rfl
@[simp] theorem Dev.modCr_raised (d : Dev) (i : Fin 8) (f : ChanRank → ChanRank) : (d.modCr i f).raised = d.raised := rfl
@[simp] theorem Dev.modCr_coal (d : Dev) (i : Fin 8) (f : ChanRank → ChanRank) : (d.modCr i f).coal = d.coal := rfl
@[simp] theorem Dev.modCr_time (d : Dev) (i : Fin 8) (f : ChanRank → ChanRank) : (d.modCr i f).time = d.time := rfl
@[simp] theorem Dev.modCr_timeSub (d : Dev) (i : Fin 8) (f : ChanRank → ChanRank) : (d.modCr i f).timeSub = d.timeSub := rfl
@[simp] theorem Dev.modCr_prsQ (d : Dev) (i : Fin 8) (f : ChanRank → ChanRank) : (d.modCr i f).prsQ = d.prsQ := rfl
@[simp] theorem Dev.modCr_doms (d : Dev) (i : Fin 8) (f : ChanRank → ChanRank) : (d.modCr i f).doms = d.doms := rfl
@[simp] theorem Dev.modCr_pos (d : Dev) (i : Fin 8) (f : ChanRank → ChanRank) : (d.modCr i f).pos = d.pos := rfl
@[simp] theorem Dev.modCr_image (d : Dev) (i : Fin 8) (f : ChanRank → ChanRank) : (d.modCr i f).image = d.image := rfl
@[simp] theorem Dev.modCr_job (d : Dev) (i : Fin 8) (f : ChanRank → ChanRank) : (d.modCr i f).job = d.job := rfl
@[simp] theorem Dev.modCr_bars (d : Dev) (i : Fin 8) (f : ChanRank → ChanRank) : (d.modCr i f).bars = d.bars := rfl
@[simp] theorem Dev.modCr_stb (d : Dev) (i : Fin 8) (f : ChanRank → ChanRank) : (d.modCr i f).stb = d.stb := rfl
@[simp] theorem Dev.modCr_cmp (d : Dev) (i : Fin 8) (f : ChanRank → ChanRank) : (d.modCr i f).cmp = d.cmp := rfl
@[simp] theorem Dev.modCr_noz (d : Dev) (i : Fin 8) (f : ChanRank → ChanRank) : (d.modCr i f).noz = d.noz := rfl
@[simp] theorem Dev.modCr_zxl (d : Dev) (i : Fin 8) (f : ChanRank → ChanRank) : (d.modCr i f).zxl = d.zxl := rfl
@[simp] theorem Dev.modCr_sent (d : Dev) (i : Fin 8) (f : ChanRank → ChanRank) : (d.modCr i f).sent = d.sent := rfl
@[simp] theorem Dev.modCr_vis (d : Dev) (i : Fin 8) (f : ChanRank → ChanRank) : (d.modCr i f).vis = d.vis := rfl
@[simp] theorem Dev.modCr_egress (d : Dev) (i : Fin 8) (f : ChanRank → ChanRank) : (d.modCr i f).egress = d.egress := rfl
@[simp] theorem Dev.modCr_den (d : Dev) (i : Fin 8) (f : ChanRank → ChanRank) : (d.modCr i f).den = d.den := rfl
@[simp] theorem Dev.modCr_lmp (d : Dev) (i : Fin 8) (f : ChanRank → ChanRank) : (d.modCr i f).lmp = d.lmp := rfl
@[simp] theorem Dev.modCr_store (d : Dev) (i : Fin 8) (f : ChanRank → ChanRank) : (d.modCr i f).store = d.store := rfl
@[simp] theorem Dev.modCr_poison (d : Dev) (i : Fin 8) (f : ChanRank → ChanRank) : (d.modCr i f).poison = d.poison := rfl
@[simp] theorem Dev.modCr_dpx (d : Dev) (i : Fin 8) (f : ChanRank → ChanRank) : (d.modCr i f).dpx = d.dpx := rfl
@[simp] theorem Dev.modCr_ptp (d : Dev) (i : Fin 8) (f : ChanRank → ChanRank) : (d.modCr i f).ptp = d.ptp := rfl
@[simp] theorem Dev.modCr_boot (d : Dev) (i : Fin 8) (f : ChanRank → ChanRank) : (d.modCr i f).boot = d.boot := rfl
@[simp] theorem Dev.modCr_thm (d : Dev) (i : Fin 8) (f : ChanRank → ChanRank) : (d.modCr i f).thm = d.thm := rfl
@[simp] theorem Dev.modCr_frz (d : Dev) (i : Fin 8) (f : ChanRank → ChanRank) : (d.modCr i f).frz = d.frz := rfl
@[simp] theorem Dev.modCr_jtag (d : Dev) (i : Fin 8) (f : ChanRank → ChanRank) : (d.modCr i f).jtag = d.jtag := rfl
@[simp] theorem Dev.modCr_prsFailed (d : Dev) (i : Fin 8) (f : ChanRank → ChanRank) : (d.modCr i f).prsFailed = d.prsFailed := rfl
@[simp] theorem Dev.modCr_sigs (d : Dev) (i : Fin 8) (f : ChanRank → ChanRank) : (d.modCr i f).sigs = d.sigs := rfl
@[simp] theorem Dev.modCr_evq (d : Dev) (i : Fin 8) (f : ChanRank → ChanRank) : (d.modCr i f).evq = d.evq := rfl
@[simp] theorem Dev.modCr_snap (d : Dev) (i : Fin 8) (f : ChanRank → ChanRank) : (d.modCr i f).snap = d.snap := rfl
@[simp] theorem Dev.modCr_egr (d : Dev) (i : Fin 8) (f : ChanRank → ChanRank) : (d.modCr i f).egr = d.egr := rfl
@[simp] theorem Dev.modCr_hst (d : Dev) (i : Fin 8) (f : ChanRank → ChanRank) : (d.modCr i f).hst = d.hst := rfl
@[simp] theorem Dev.modCr_rt (d : Dev) (i : Fin 8) (f : ChanRank → ChanRank) : (d.modCr i f).rt = d.rt := rfl
@[simp] theorem Dev.modCr_was (d : Dev) (i : Fin 8) (f : ChanRank → ChanRank) : (d.modCr i f).was = d.was := rfl
@[simp] theorem Dev.modCr_shown (d : Dev) (i : Fin 8) (f : ChanRank → ChanRank) : (d.modCr i f).shown = d.shown := rfl
@[simp] theorem Dev.modCr_crcAt (d : Dev) (i : Fin 8) (f : ChanRank → ChanRank) : (d.modCr i f).crcAt = d.crcAt := rfl

@[simp] theorem Dev.modDpx_regs (d : Dev) (f : DpxSt → DpxSt) : (d.modDpx f).regs = d.regs := rfl
@[simp] theorem Dev.modDpx_shadow (d : Dev) (f : DpxSt → DpxSt) : (d.modDpx f).shadow = d.shadow := rfl
@[simp] theorem Dev.modDpx_eff (d : Dev) (f : DpxSt → DpxSt) : (d.modDpx f).eff = d.eff := rfl
@[simp] theorem Dev.modDpx_now (d : Dev) (f : DpxSt → DpxSt) : (d.modDpx f).now = d.now := rfl
@[simp] theorem Dev.modDpx_fresh (d : Dev) (f : DpxSt → DpxSt) : (d.modDpx f).fresh = d.fresh := rfl
@[simp] theorem Dev.modDpx_sys (d : Dev) (f : DpxSt → DpxSt) : (d.modDpx f).sys = d.sys := rfl
@[simp] theorem Dev.modDpx_raised (d : Dev) (f : DpxSt → DpxSt) : (d.modDpx f).raised = d.raised := rfl
@[simp] theorem Dev.modDpx_coal (d : Dev) (f : DpxSt → DpxSt) : (d.modDpx f).coal = d.coal := rfl
@[simp] theorem Dev.modDpx_time (d : Dev) (f : DpxSt → DpxSt) : (d.modDpx f).time = d.time := rfl
@[simp] theorem Dev.modDpx_timeSub (d : Dev) (f : DpxSt → DpxSt) : (d.modDpx f).timeSub = d.timeSub := rfl
@[simp] theorem Dev.modDpx_prsQ (d : Dev) (f : DpxSt → DpxSt) : (d.modDpx f).prsQ = d.prsQ := rfl
@[simp] theorem Dev.modDpx_doms (d : Dev) (f : DpxSt → DpxSt) : (d.modDpx f).doms = d.doms := rfl
@[simp] theorem Dev.modDpx_pos (d : Dev) (f : DpxSt → DpxSt) : (d.modDpx f).pos = d.pos := rfl
@[simp] theorem Dev.modDpx_image (d : Dev) (f : DpxSt → DpxSt) : (d.modDpx f).image = d.image := rfl
@[simp] theorem Dev.modDpx_job (d : Dev) (f : DpxSt → DpxSt) : (d.modDpx f).job = d.job := rfl
@[simp] theorem Dev.modDpx_bars (d : Dev) (f : DpxSt → DpxSt) : (d.modDpx f).bars = d.bars := rfl
@[simp] theorem Dev.modDpx_stb (d : Dev) (f : DpxSt → DpxSt) : (d.modDpx f).stb = d.stb := rfl
@[simp] theorem Dev.modDpx_cmp (d : Dev) (f : DpxSt → DpxSt) : (d.modDpx f).cmp = d.cmp := rfl
@[simp] theorem Dev.modDpx_noz (d : Dev) (f : DpxSt → DpxSt) : (d.modDpx f).noz = d.noz := rfl
@[simp] theorem Dev.modDpx_zxl (d : Dev) (f : DpxSt → DpxSt) : (d.modDpx f).zxl = d.zxl := rfl
@[simp] theorem Dev.modDpx_sent (d : Dev) (f : DpxSt → DpxSt) : (d.modDpx f).sent = d.sent := rfl
@[simp] theorem Dev.modDpx_vis (d : Dev) (f : DpxSt → DpxSt) : (d.modDpx f).vis = d.vis := rfl
@[simp] theorem Dev.modDpx_egress (d : Dev) (f : DpxSt → DpxSt) : (d.modDpx f).egress = d.egress := rfl
@[simp] theorem Dev.modDpx_den (d : Dev) (f : DpxSt → DpxSt) : (d.modDpx f).den = d.den := rfl
@[simp] theorem Dev.modDpx_lmp (d : Dev) (f : DpxSt → DpxSt) : (d.modDpx f).lmp = d.lmp := rfl
@[simp] theorem Dev.modDpx_store (d : Dev) (f : DpxSt → DpxSt) : (d.modDpx f).store = d.store := rfl
@[simp] theorem Dev.modDpx_poison (d : Dev) (f : DpxSt → DpxSt) : (d.modDpx f).poison = d.poison := rfl
@[simp] theorem Dev.modDpx_drc (d : Dev) (f : DpxSt → DpxSt) : (d.modDpx f).drc = d.drc := rfl
@[simp] theorem Dev.modDpx_ptp (d : Dev) (f : DpxSt → DpxSt) : (d.modDpx f).ptp = d.ptp := rfl
@[simp] theorem Dev.modDpx_boot (d : Dev) (f : DpxSt → DpxSt) : (d.modDpx f).boot = d.boot := rfl
@[simp] theorem Dev.modDpx_thm (d : Dev) (f : DpxSt → DpxSt) : (d.modDpx f).thm = d.thm := rfl
@[simp] theorem Dev.modDpx_frz (d : Dev) (f : DpxSt → DpxSt) : (d.modDpx f).frz = d.frz := rfl
@[simp] theorem Dev.modDpx_jtag (d : Dev) (f : DpxSt → DpxSt) : (d.modDpx f).jtag = d.jtag := rfl
@[simp] theorem Dev.modDpx_prsFailed (d : Dev) (f : DpxSt → DpxSt) : (d.modDpx f).prsFailed = d.prsFailed := rfl
@[simp] theorem Dev.modDpx_sigs (d : Dev) (f : DpxSt → DpxSt) : (d.modDpx f).sigs = d.sigs := rfl
@[simp] theorem Dev.modDpx_evq (d : Dev) (f : DpxSt → DpxSt) : (d.modDpx f).evq = d.evq := rfl
@[simp] theorem Dev.modDpx_snap (d : Dev) (f : DpxSt → DpxSt) : (d.modDpx f).snap = d.snap := rfl
@[simp] theorem Dev.modDpx_egr (d : Dev) (f : DpxSt → DpxSt) : (d.modDpx f).egr = d.egr := rfl
@[simp] theorem Dev.modDpx_hst (d : Dev) (f : DpxSt → DpxSt) : (d.modDpx f).hst = d.hst := rfl
@[simp] theorem Dev.modDpx_rt (d : Dev) (f : DpxSt → DpxSt) : (d.modDpx f).rt = d.rt := rfl
@[simp] theorem Dev.modDpx_was (d : Dev) (f : DpxSt → DpxSt) : (d.modDpx f).was = d.was := rfl
@[simp] theorem Dev.modDpx_shown (d : Dev) (f : DpxSt → DpxSt) : (d.modDpx f).shown = d.shown := rfl
@[simp] theorem Dev.modDpx_crcAt (d : Dev) (f : DpxSt → DpxSt) : (d.modDpx f).crcAt = d.crcAt := rfl

@[simp] theorem Dev.modPtp_regs (d : Dev) (f : Ptp → Ptp) : (d.modPtp f).regs = d.regs := rfl
@[simp] theorem Dev.modPtp_shadow (d : Dev) (f : Ptp → Ptp) : (d.modPtp f).shadow = d.shadow := rfl
@[simp] theorem Dev.modPtp_eff (d : Dev) (f : Ptp → Ptp) : (d.modPtp f).eff = d.eff := rfl
@[simp] theorem Dev.modPtp_now (d : Dev) (f : Ptp → Ptp) : (d.modPtp f).now = d.now := rfl
@[simp] theorem Dev.modPtp_fresh (d : Dev) (f : Ptp → Ptp) : (d.modPtp f).fresh = d.fresh := rfl
@[simp] theorem Dev.modPtp_sys (d : Dev) (f : Ptp → Ptp) : (d.modPtp f).sys = d.sys := rfl
@[simp] theorem Dev.modPtp_raised (d : Dev) (f : Ptp → Ptp) : (d.modPtp f).raised = d.raised := rfl
@[simp] theorem Dev.modPtp_coal (d : Dev) (f : Ptp → Ptp) : (d.modPtp f).coal = d.coal := rfl
@[simp] theorem Dev.modPtp_time (d : Dev) (f : Ptp → Ptp) : (d.modPtp f).time = d.time := rfl
@[simp] theorem Dev.modPtp_timeSub (d : Dev) (f : Ptp → Ptp) : (d.modPtp f).timeSub = d.timeSub := rfl
@[simp] theorem Dev.modPtp_prsQ (d : Dev) (f : Ptp → Ptp) : (d.modPtp f).prsQ = d.prsQ := rfl
@[simp] theorem Dev.modPtp_doms (d : Dev) (f : Ptp → Ptp) : (d.modPtp f).doms = d.doms := rfl
@[simp] theorem Dev.modPtp_pos (d : Dev) (f : Ptp → Ptp) : (d.modPtp f).pos = d.pos := rfl
@[simp] theorem Dev.modPtp_image (d : Dev) (f : Ptp → Ptp) : (d.modPtp f).image = d.image := rfl
@[simp] theorem Dev.modPtp_job (d : Dev) (f : Ptp → Ptp) : (d.modPtp f).job = d.job := rfl
@[simp] theorem Dev.modPtp_bars (d : Dev) (f : Ptp → Ptp) : (d.modPtp f).bars = d.bars := rfl
@[simp] theorem Dev.modPtp_stb (d : Dev) (f : Ptp → Ptp) : (d.modPtp f).stb = d.stb := rfl
@[simp] theorem Dev.modPtp_cmp (d : Dev) (f : Ptp → Ptp) : (d.modPtp f).cmp = d.cmp := rfl
@[simp] theorem Dev.modPtp_noz (d : Dev) (f : Ptp → Ptp) : (d.modPtp f).noz = d.noz := rfl
@[simp] theorem Dev.modPtp_zxl (d : Dev) (f : Ptp → Ptp) : (d.modPtp f).zxl = d.zxl := rfl
@[simp] theorem Dev.modPtp_sent (d : Dev) (f : Ptp → Ptp) : (d.modPtp f).sent = d.sent := rfl
@[simp] theorem Dev.modPtp_vis (d : Dev) (f : Ptp → Ptp) : (d.modPtp f).vis = d.vis := rfl
@[simp] theorem Dev.modPtp_egress (d : Dev) (f : Ptp → Ptp) : (d.modPtp f).egress = d.egress := rfl
@[simp] theorem Dev.modPtp_den (d : Dev) (f : Ptp → Ptp) : (d.modPtp f).den = d.den := rfl
@[simp] theorem Dev.modPtp_lmp (d : Dev) (f : Ptp → Ptp) : (d.modPtp f).lmp = d.lmp := rfl
@[simp] theorem Dev.modPtp_store (d : Dev) (f : Ptp → Ptp) : (d.modPtp f).store = d.store := rfl
@[simp] theorem Dev.modPtp_poison (d : Dev) (f : Ptp → Ptp) : (d.modPtp f).poison = d.poison := rfl
@[simp] theorem Dev.modPtp_drc (d : Dev) (f : Ptp → Ptp) : (d.modPtp f).drc = d.drc := rfl
@[simp] theorem Dev.modPtp_dpx (d : Dev) (f : Ptp → Ptp) : (d.modPtp f).dpx = d.dpx := rfl
@[simp] theorem Dev.modPtp_boot (d : Dev) (f : Ptp → Ptp) : (d.modPtp f).boot = d.boot := rfl
@[simp] theorem Dev.modPtp_thm (d : Dev) (f : Ptp → Ptp) : (d.modPtp f).thm = d.thm := rfl
@[simp] theorem Dev.modPtp_frz (d : Dev) (f : Ptp → Ptp) : (d.modPtp f).frz = d.frz := rfl
@[simp] theorem Dev.modPtp_jtag (d : Dev) (f : Ptp → Ptp) : (d.modPtp f).jtag = d.jtag := rfl
@[simp] theorem Dev.modPtp_prsFailed (d : Dev) (f : Ptp → Ptp) : (d.modPtp f).prsFailed = d.prsFailed := rfl
@[simp] theorem Dev.modPtp_sigs (d : Dev) (f : Ptp → Ptp) : (d.modPtp f).sigs = d.sigs := rfl
@[simp] theorem Dev.modPtp_evq (d : Dev) (f : Ptp → Ptp) : (d.modPtp f).evq = d.evq := rfl
@[simp] theorem Dev.modPtp_snap (d : Dev) (f : Ptp → Ptp) : (d.modPtp f).snap = d.snap := rfl
@[simp] theorem Dev.modPtp_egr (d : Dev) (f : Ptp → Ptp) : (d.modPtp f).egr = d.egr := rfl
@[simp] theorem Dev.modPtp_hst (d : Dev) (f : Ptp → Ptp) : (d.modPtp f).hst = d.hst := rfl
@[simp] theorem Dev.modPtp_rt (d : Dev) (f : Ptp → Ptp) : (d.modPtp f).rt = d.rt := rfl
@[simp] theorem Dev.modPtp_was (d : Dev) (f : Ptp → Ptp) : (d.modPtp f).was = d.was := rfl
@[simp] theorem Dev.modPtp_shown (d : Dev) (f : Ptp → Ptp) : (d.modPtp f).shown = d.shown := rfl
@[simp] theorem Dev.modPtp_crcAt (d : Dev) (f : Ptp → Ptp) : (d.modPtp f).crcAt = d.crcAt := rfl

@[simp] theorem Dev.modBoot_regs (d : Dev) (f : Boot → Boot) : (d.modBoot f).regs = d.regs := rfl
@[simp] theorem Dev.modBoot_shadow (d : Dev) (f : Boot → Boot) : (d.modBoot f).shadow = d.shadow := rfl
@[simp] theorem Dev.modBoot_eff (d : Dev) (f : Boot → Boot) : (d.modBoot f).eff = d.eff := rfl
@[simp] theorem Dev.modBoot_now (d : Dev) (f : Boot → Boot) : (d.modBoot f).now = d.now := rfl
@[simp] theorem Dev.modBoot_fresh (d : Dev) (f : Boot → Boot) : (d.modBoot f).fresh = d.fresh := rfl
@[simp] theorem Dev.modBoot_sys (d : Dev) (f : Boot → Boot) : (d.modBoot f).sys = d.sys := rfl
@[simp] theorem Dev.modBoot_raised (d : Dev) (f : Boot → Boot) : (d.modBoot f).raised = d.raised := rfl
@[simp] theorem Dev.modBoot_coal (d : Dev) (f : Boot → Boot) : (d.modBoot f).coal = d.coal := rfl
@[simp] theorem Dev.modBoot_time (d : Dev) (f : Boot → Boot) : (d.modBoot f).time = d.time := rfl
@[simp] theorem Dev.modBoot_timeSub (d : Dev) (f : Boot → Boot) : (d.modBoot f).timeSub = d.timeSub := rfl
@[simp] theorem Dev.modBoot_prsQ (d : Dev) (f : Boot → Boot) : (d.modBoot f).prsQ = d.prsQ := rfl
@[simp] theorem Dev.modBoot_doms (d : Dev) (f : Boot → Boot) : (d.modBoot f).doms = d.doms := rfl
@[simp] theorem Dev.modBoot_pos (d : Dev) (f : Boot → Boot) : (d.modBoot f).pos = d.pos := rfl
@[simp] theorem Dev.modBoot_image (d : Dev) (f : Boot → Boot) : (d.modBoot f).image = d.image := rfl
@[simp] theorem Dev.modBoot_job (d : Dev) (f : Boot → Boot) : (d.modBoot f).job = d.job := rfl
@[simp] theorem Dev.modBoot_bars (d : Dev) (f : Boot → Boot) : (d.modBoot f).bars = d.bars := rfl
@[simp] theorem Dev.modBoot_stb (d : Dev) (f : Boot → Boot) : (d.modBoot f).stb = d.stb := rfl
@[simp] theorem Dev.modBoot_cmp (d : Dev) (f : Boot → Boot) : (d.modBoot f).cmp = d.cmp := rfl
@[simp] theorem Dev.modBoot_noz (d : Dev) (f : Boot → Boot) : (d.modBoot f).noz = d.noz := rfl
@[simp] theorem Dev.modBoot_zxl (d : Dev) (f : Boot → Boot) : (d.modBoot f).zxl = d.zxl := rfl
@[simp] theorem Dev.modBoot_sent (d : Dev) (f : Boot → Boot) : (d.modBoot f).sent = d.sent := rfl
@[simp] theorem Dev.modBoot_vis (d : Dev) (f : Boot → Boot) : (d.modBoot f).vis = d.vis := rfl
@[simp] theorem Dev.modBoot_egress (d : Dev) (f : Boot → Boot) : (d.modBoot f).egress = d.egress := rfl
@[simp] theorem Dev.modBoot_den (d : Dev) (f : Boot → Boot) : (d.modBoot f).den = d.den := rfl
@[simp] theorem Dev.modBoot_lmp (d : Dev) (f : Boot → Boot) : (d.modBoot f).lmp = d.lmp := rfl
@[simp] theorem Dev.modBoot_store (d : Dev) (f : Boot → Boot) : (d.modBoot f).store = d.store := rfl
@[simp] theorem Dev.modBoot_poison (d : Dev) (f : Boot → Boot) : (d.modBoot f).poison = d.poison := rfl
@[simp] theorem Dev.modBoot_drc (d : Dev) (f : Boot → Boot) : (d.modBoot f).drc = d.drc := rfl
@[simp] theorem Dev.modBoot_dpx (d : Dev) (f : Boot → Boot) : (d.modBoot f).dpx = d.dpx := rfl
@[simp] theorem Dev.modBoot_ptp (d : Dev) (f : Boot → Boot) : (d.modBoot f).ptp = d.ptp := rfl
@[simp] theorem Dev.modBoot_thm (d : Dev) (f : Boot → Boot) : (d.modBoot f).thm = d.thm := rfl
@[simp] theorem Dev.modBoot_frz (d : Dev) (f : Boot → Boot) : (d.modBoot f).frz = d.frz := rfl
@[simp] theorem Dev.modBoot_jtag (d : Dev) (f : Boot → Boot) : (d.modBoot f).jtag = d.jtag := rfl
@[simp] theorem Dev.modBoot_prsFailed (d : Dev) (f : Boot → Boot) : (d.modBoot f).prsFailed = d.prsFailed := rfl
@[simp] theorem Dev.modBoot_sigs (d : Dev) (f : Boot → Boot) : (d.modBoot f).sigs = d.sigs := rfl
@[simp] theorem Dev.modBoot_evq (d : Dev) (f : Boot → Boot) : (d.modBoot f).evq = d.evq := rfl
@[simp] theorem Dev.modBoot_snap (d : Dev) (f : Boot → Boot) : (d.modBoot f).snap = d.snap := rfl
@[simp] theorem Dev.modBoot_egr (d : Dev) (f : Boot → Boot) : (d.modBoot f).egr = d.egr := rfl
@[simp] theorem Dev.modBoot_hst (d : Dev) (f : Boot → Boot) : (d.modBoot f).hst = d.hst := rfl
@[simp] theorem Dev.modBoot_rt (d : Dev) (f : Boot → Boot) : (d.modBoot f).rt = d.rt := rfl
@[simp] theorem Dev.modBoot_was (d : Dev) (f : Boot → Boot) : (d.modBoot f).was = d.was := rfl
@[simp] theorem Dev.modBoot_shown (d : Dev) (f : Boot → Boot) : (d.modBoot f).shown = d.shown := rfl
@[simp] theorem Dev.modBoot_crcAt (d : Dev) (f : Boot → Boot) : (d.modBoot f).crcAt = d.crcAt := rfl

@[simp] theorem Dev.modDom_regs (d : Dev) (p : Fin 12) (f : Dom → Dom) : (d.modDom p f).regs = d.regs := rfl
@[simp] theorem Dev.modDom_shadow (d : Dev) (p : Fin 12) (f : Dom → Dom) : (d.modDom p f).shadow = d.shadow := rfl
@[simp] theorem Dev.modDom_eff (d : Dev) (p : Fin 12) (f : Dom → Dom) : (d.modDom p f).eff = d.eff := rfl
@[simp] theorem Dev.modDom_now (d : Dev) (p : Fin 12) (f : Dom → Dom) : (d.modDom p f).now = d.now := rfl
@[simp] theorem Dev.modDom_fresh (d : Dev) (p : Fin 12) (f : Dom → Dom) : (d.modDom p f).fresh = d.fresh := rfl
@[simp] theorem Dev.modDom_sys (d : Dev) (p : Fin 12) (f : Dom → Dom) : (d.modDom p f).sys = d.sys := rfl
@[simp] theorem Dev.modDom_raised (d : Dev) (p : Fin 12) (f : Dom → Dom) : (d.modDom p f).raised = d.raised := rfl
@[simp] theorem Dev.modDom_coal (d : Dev) (p : Fin 12) (f : Dom → Dom) : (d.modDom p f).coal = d.coal := rfl
@[simp] theorem Dev.modDom_time (d : Dev) (p : Fin 12) (f : Dom → Dom) : (d.modDom p f).time = d.time := rfl
@[simp] theorem Dev.modDom_timeSub (d : Dev) (p : Fin 12) (f : Dom → Dom) : (d.modDom p f).timeSub = d.timeSub := rfl
@[simp] theorem Dev.modDom_prsQ (d : Dev) (p : Fin 12) (f : Dom → Dom) : (d.modDom p f).prsQ = d.prsQ := rfl
@[simp] theorem Dev.modDom_pos (d : Dev) (p : Fin 12) (f : Dom → Dom) : (d.modDom p f).pos = d.pos := rfl
@[simp] theorem Dev.modDom_image (d : Dev) (p : Fin 12) (f : Dom → Dom) : (d.modDom p f).image = d.image := rfl
@[simp] theorem Dev.modDom_job (d : Dev) (p : Fin 12) (f : Dom → Dom) : (d.modDom p f).job = d.job := rfl
@[simp] theorem Dev.modDom_bars (d : Dev) (p : Fin 12) (f : Dom → Dom) : (d.modDom p f).bars = d.bars := rfl
@[simp] theorem Dev.modDom_stb (d : Dev) (p : Fin 12) (f : Dom → Dom) : (d.modDom p f).stb = d.stb := rfl
@[simp] theorem Dev.modDom_cmp (d : Dev) (p : Fin 12) (f : Dom → Dom) : (d.modDom p f).cmp = d.cmp := rfl
@[simp] theorem Dev.modDom_noz (d : Dev) (p : Fin 12) (f : Dom → Dom) : (d.modDom p f).noz = d.noz := rfl
@[simp] theorem Dev.modDom_zxl (d : Dev) (p : Fin 12) (f : Dom → Dom) : (d.modDom p f).zxl = d.zxl := rfl
@[simp] theorem Dev.modDom_sent (d : Dev) (p : Fin 12) (f : Dom → Dom) : (d.modDom p f).sent = d.sent := rfl
@[simp] theorem Dev.modDom_vis (d : Dev) (p : Fin 12) (f : Dom → Dom) : (d.modDom p f).vis = d.vis := rfl
@[simp] theorem Dev.modDom_egress (d : Dev) (p : Fin 12) (f : Dom → Dom) : (d.modDom p f).egress = d.egress := rfl
@[simp] theorem Dev.modDom_den (d : Dev) (p : Fin 12) (f : Dom → Dom) : (d.modDom p f).den = d.den := rfl
@[simp] theorem Dev.modDom_lmp (d : Dev) (p : Fin 12) (f : Dom → Dom) : (d.modDom p f).lmp = d.lmp := rfl
@[simp] theorem Dev.modDom_store (d : Dev) (p : Fin 12) (f : Dom → Dom) : (d.modDom p f).store = d.store := rfl
@[simp] theorem Dev.modDom_poison (d : Dev) (p : Fin 12) (f : Dom → Dom) : (d.modDom p f).poison = d.poison := rfl
@[simp] theorem Dev.modDom_drc (d : Dev) (p : Fin 12) (f : Dom → Dom) : (d.modDom p f).drc = d.drc := rfl
@[simp] theorem Dev.modDom_dpx (d : Dev) (p : Fin 12) (f : Dom → Dom) : (d.modDom p f).dpx = d.dpx := rfl
@[simp] theorem Dev.modDom_ptp (d : Dev) (p : Fin 12) (f : Dom → Dom) : (d.modDom p f).ptp = d.ptp := rfl
@[simp] theorem Dev.modDom_boot (d : Dev) (p : Fin 12) (f : Dom → Dom) : (d.modDom p f).boot = d.boot := rfl
@[simp] theorem Dev.modDom_thm (d : Dev) (p : Fin 12) (f : Dom → Dom) : (d.modDom p f).thm = d.thm := rfl
@[simp] theorem Dev.modDom_frz (d : Dev) (p : Fin 12) (f : Dom → Dom) : (d.modDom p f).frz = d.frz := rfl
@[simp] theorem Dev.modDom_jtag (d : Dev) (p : Fin 12) (f : Dom → Dom) : (d.modDom p f).jtag = d.jtag := rfl
@[simp] theorem Dev.modDom_prsFailed (d : Dev) (p : Fin 12) (f : Dom → Dom) : (d.modDom p f).prsFailed = d.prsFailed := rfl
@[simp] theorem Dev.modDom_sigs (d : Dev) (p : Fin 12) (f : Dom → Dom) : (d.modDom p f).sigs = d.sigs := rfl
@[simp] theorem Dev.modDom_evq (d : Dev) (p : Fin 12) (f : Dom → Dom) : (d.modDom p f).evq = d.evq := rfl
@[simp] theorem Dev.modDom_snap (d : Dev) (p : Fin 12) (f : Dom → Dom) : (d.modDom p f).snap = d.snap := rfl
@[simp] theorem Dev.modDom_egr (d : Dev) (p : Fin 12) (f : Dom → Dom) : (d.modDom p f).egr = d.egr := rfl
@[simp] theorem Dev.modDom_hst (d : Dev) (p : Fin 12) (f : Dom → Dom) : (d.modDom p f).hst = d.hst := rfl
@[simp] theorem Dev.modDom_rt (d : Dev) (p : Fin 12) (f : Dom → Dom) : (d.modDom p f).rt = d.rt := rfl
@[simp] theorem Dev.modDom_was (d : Dev) (p : Fin 12) (f : Dom → Dom) : (d.modDom p f).was = d.was := rfl
@[simp] theorem Dev.modDom_shown (d : Dev) (p : Fin 12) (f : Dom → Dom) : (d.modDom p f).shown = d.shown := rfl
@[simp] theorem Dev.modDom_crcAt (d : Dev) (p : Fin 12) (f : Dom → Dom) : (d.modDom p f).crcAt = d.crcAt := rfl

@[simp] theorem Dev.modThm_regs (d : Dev) (f : Thm → Thm) : (d.modThm f).regs = d.regs := rfl
@[simp] theorem Dev.modThm_shadow (d : Dev) (f : Thm → Thm) : (d.modThm f).shadow = d.shadow := rfl
@[simp] theorem Dev.modThm_eff (d : Dev) (f : Thm → Thm) : (d.modThm f).eff = d.eff := rfl
@[simp] theorem Dev.modThm_now (d : Dev) (f : Thm → Thm) : (d.modThm f).now = d.now := rfl
@[simp] theorem Dev.modThm_fresh (d : Dev) (f : Thm → Thm) : (d.modThm f).fresh = d.fresh := rfl
@[simp] theorem Dev.modThm_sys (d : Dev) (f : Thm → Thm) : (d.modThm f).sys = d.sys := rfl
@[simp] theorem Dev.modThm_raised (d : Dev) (f : Thm → Thm) : (d.modThm f).raised = d.raised := rfl
@[simp] theorem Dev.modThm_coal (d : Dev) (f : Thm → Thm) : (d.modThm f).coal = d.coal := rfl
@[simp] theorem Dev.modThm_time (d : Dev) (f : Thm → Thm) : (d.modThm f).time = d.time := rfl
@[simp] theorem Dev.modThm_timeSub (d : Dev) (f : Thm → Thm) : (d.modThm f).timeSub = d.timeSub := rfl
@[simp] theorem Dev.modThm_prsQ (d : Dev) (f : Thm → Thm) : (d.modThm f).prsQ = d.prsQ := rfl
@[simp] theorem Dev.modThm_doms (d : Dev) (f : Thm → Thm) : (d.modThm f).doms = d.doms := rfl
@[simp] theorem Dev.modThm_pos (d : Dev) (f : Thm → Thm) : (d.modThm f).pos = d.pos := rfl
@[simp] theorem Dev.modThm_image (d : Dev) (f : Thm → Thm) : (d.modThm f).image = d.image := rfl
@[simp] theorem Dev.modThm_job (d : Dev) (f : Thm → Thm) : (d.modThm f).job = d.job := rfl
@[simp] theorem Dev.modThm_bars (d : Dev) (f : Thm → Thm) : (d.modThm f).bars = d.bars := rfl
@[simp] theorem Dev.modThm_stb (d : Dev) (f : Thm → Thm) : (d.modThm f).stb = d.stb := rfl
@[simp] theorem Dev.modThm_cmp (d : Dev) (f : Thm → Thm) : (d.modThm f).cmp = d.cmp := rfl
@[simp] theorem Dev.modThm_noz (d : Dev) (f : Thm → Thm) : (d.modThm f).noz = d.noz := rfl
@[simp] theorem Dev.modThm_zxl (d : Dev) (f : Thm → Thm) : (d.modThm f).zxl = d.zxl := rfl
@[simp] theorem Dev.modThm_sent (d : Dev) (f : Thm → Thm) : (d.modThm f).sent = d.sent := rfl
@[simp] theorem Dev.modThm_vis (d : Dev) (f : Thm → Thm) : (d.modThm f).vis = d.vis := rfl
@[simp] theorem Dev.modThm_egress (d : Dev) (f : Thm → Thm) : (d.modThm f).egress = d.egress := rfl
@[simp] theorem Dev.modThm_den (d : Dev) (f : Thm → Thm) : (d.modThm f).den = d.den := rfl
@[simp] theorem Dev.modThm_lmp (d : Dev) (f : Thm → Thm) : (d.modThm f).lmp = d.lmp := rfl
@[simp] theorem Dev.modThm_store (d : Dev) (f : Thm → Thm) : (d.modThm f).store = d.store := rfl
@[simp] theorem Dev.modThm_poison (d : Dev) (f : Thm → Thm) : (d.modThm f).poison = d.poison := rfl
@[simp] theorem Dev.modThm_drc (d : Dev) (f : Thm → Thm) : (d.modThm f).drc = d.drc := rfl
@[simp] theorem Dev.modThm_dpx (d : Dev) (f : Thm → Thm) : (d.modThm f).dpx = d.dpx := rfl
@[simp] theorem Dev.modThm_ptp (d : Dev) (f : Thm → Thm) : (d.modThm f).ptp = d.ptp := rfl
@[simp] theorem Dev.modThm_boot (d : Dev) (f : Thm → Thm) : (d.modThm f).boot = d.boot := rfl
@[simp] theorem Dev.modThm_frz (d : Dev) (f : Thm → Thm) : (d.modThm f).frz = d.frz := rfl
@[simp] theorem Dev.modThm_jtag (d : Dev) (f : Thm → Thm) : (d.modThm f).jtag = d.jtag := rfl
@[simp] theorem Dev.modThm_prsFailed (d : Dev) (f : Thm → Thm) : (d.modThm f).prsFailed = d.prsFailed := rfl
@[simp] theorem Dev.modThm_sigs (d : Dev) (f : Thm → Thm) : (d.modThm f).sigs = d.sigs := rfl
@[simp] theorem Dev.modThm_evq (d : Dev) (f : Thm → Thm) : (d.modThm f).evq = d.evq := rfl
@[simp] theorem Dev.modThm_snap (d : Dev) (f : Thm → Thm) : (d.modThm f).snap = d.snap := rfl
@[simp] theorem Dev.modThm_egr (d : Dev) (f : Thm → Thm) : (d.modThm f).egr = d.egr := rfl
@[simp] theorem Dev.modThm_hst (d : Dev) (f : Thm → Thm) : (d.modThm f).hst = d.hst := rfl
@[simp] theorem Dev.modThm_rt (d : Dev) (f : Thm → Thm) : (d.modThm f).rt = d.rt := rfl
@[simp] theorem Dev.modThm_was (d : Dev) (f : Thm → Thm) : (d.modThm f).was = d.was := rfl
@[simp] theorem Dev.modThm_shown (d : Dev) (f : Thm → Thm) : (d.modThm f).shown = d.shown := rfl
@[simp] theorem Dev.modThm_crcAt (d : Dev) (f : Thm → Thm) : (d.modThm f).crcAt = d.crcAt := rfl

@[simp] theorem Dev.modJtag_regs (d : Dev) (f : Jtag → Jtag) : (d.modJtag f).regs = d.regs := rfl
@[simp] theorem Dev.modJtag_shadow (d : Dev) (f : Jtag → Jtag) : (d.modJtag f).shadow = d.shadow := rfl
@[simp] theorem Dev.modJtag_eff (d : Dev) (f : Jtag → Jtag) : (d.modJtag f).eff = d.eff := rfl
@[simp] theorem Dev.modJtag_now (d : Dev) (f : Jtag → Jtag) : (d.modJtag f).now = d.now := rfl
@[simp] theorem Dev.modJtag_fresh (d : Dev) (f : Jtag → Jtag) : (d.modJtag f).fresh = d.fresh := rfl
@[simp] theorem Dev.modJtag_sys (d : Dev) (f : Jtag → Jtag) : (d.modJtag f).sys = d.sys := rfl
@[simp] theorem Dev.modJtag_raised (d : Dev) (f : Jtag → Jtag) : (d.modJtag f).raised = d.raised := rfl
@[simp] theorem Dev.modJtag_coal (d : Dev) (f : Jtag → Jtag) : (d.modJtag f).coal = d.coal := rfl
@[simp] theorem Dev.modJtag_time (d : Dev) (f : Jtag → Jtag) : (d.modJtag f).time = d.time := rfl
@[simp] theorem Dev.modJtag_timeSub (d : Dev) (f : Jtag → Jtag) : (d.modJtag f).timeSub = d.timeSub := rfl
@[simp] theorem Dev.modJtag_prsQ (d : Dev) (f : Jtag → Jtag) : (d.modJtag f).prsQ = d.prsQ := rfl
@[simp] theorem Dev.modJtag_doms (d : Dev) (f : Jtag → Jtag) : (d.modJtag f).doms = d.doms := rfl
@[simp] theorem Dev.modJtag_pos (d : Dev) (f : Jtag → Jtag) : (d.modJtag f).pos = d.pos := rfl
@[simp] theorem Dev.modJtag_image (d : Dev) (f : Jtag → Jtag) : (d.modJtag f).image = d.image := rfl
@[simp] theorem Dev.modJtag_job (d : Dev) (f : Jtag → Jtag) : (d.modJtag f).job = d.job := rfl
@[simp] theorem Dev.modJtag_bars (d : Dev) (f : Jtag → Jtag) : (d.modJtag f).bars = d.bars := rfl
@[simp] theorem Dev.modJtag_stb (d : Dev) (f : Jtag → Jtag) : (d.modJtag f).stb = d.stb := rfl
@[simp] theorem Dev.modJtag_cmp (d : Dev) (f : Jtag → Jtag) : (d.modJtag f).cmp = d.cmp := rfl
@[simp] theorem Dev.modJtag_noz (d : Dev) (f : Jtag → Jtag) : (d.modJtag f).noz = d.noz := rfl
@[simp] theorem Dev.modJtag_zxl (d : Dev) (f : Jtag → Jtag) : (d.modJtag f).zxl = d.zxl := rfl
@[simp] theorem Dev.modJtag_sent (d : Dev) (f : Jtag → Jtag) : (d.modJtag f).sent = d.sent := rfl
@[simp] theorem Dev.modJtag_vis (d : Dev) (f : Jtag → Jtag) : (d.modJtag f).vis = d.vis := rfl
@[simp] theorem Dev.modJtag_egress (d : Dev) (f : Jtag → Jtag) : (d.modJtag f).egress = d.egress := rfl
@[simp] theorem Dev.modJtag_den (d : Dev) (f : Jtag → Jtag) : (d.modJtag f).den = d.den := rfl
@[simp] theorem Dev.modJtag_lmp (d : Dev) (f : Jtag → Jtag) : (d.modJtag f).lmp = d.lmp := rfl
@[simp] theorem Dev.modJtag_store (d : Dev) (f : Jtag → Jtag) : (d.modJtag f).store = d.store := rfl
@[simp] theorem Dev.modJtag_poison (d : Dev) (f : Jtag → Jtag) : (d.modJtag f).poison = d.poison := rfl
@[simp] theorem Dev.modJtag_drc (d : Dev) (f : Jtag → Jtag) : (d.modJtag f).drc = d.drc := rfl
@[simp] theorem Dev.modJtag_dpx (d : Dev) (f : Jtag → Jtag) : (d.modJtag f).dpx = d.dpx := rfl
@[simp] theorem Dev.modJtag_ptp (d : Dev) (f : Jtag → Jtag) : (d.modJtag f).ptp = d.ptp := rfl
@[simp] theorem Dev.modJtag_boot (d : Dev) (f : Jtag → Jtag) : (d.modJtag f).boot = d.boot := rfl
@[simp] theorem Dev.modJtag_thm (d : Dev) (f : Jtag → Jtag) : (d.modJtag f).thm = d.thm := rfl
@[simp] theorem Dev.modJtag_frz (d : Dev) (f : Jtag → Jtag) : (d.modJtag f).frz = d.frz := rfl
@[simp] theorem Dev.modJtag_prsFailed (d : Dev) (f : Jtag → Jtag) : (d.modJtag f).prsFailed = d.prsFailed := rfl
@[simp] theorem Dev.modJtag_sigs (d : Dev) (f : Jtag → Jtag) : (d.modJtag f).sigs = d.sigs := rfl
@[simp] theorem Dev.modJtag_evq (d : Dev) (f : Jtag → Jtag) : (d.modJtag f).evq = d.evq := rfl
@[simp] theorem Dev.modJtag_snap (d : Dev) (f : Jtag → Jtag) : (d.modJtag f).snap = d.snap := rfl
@[simp] theorem Dev.modJtag_egr (d : Dev) (f : Jtag → Jtag) : (d.modJtag f).egr = d.egr := rfl
@[simp] theorem Dev.modJtag_hst (d : Dev) (f : Jtag → Jtag) : (d.modJtag f).hst = d.hst := rfl
@[simp] theorem Dev.modJtag_rt (d : Dev) (f : Jtag → Jtag) : (d.modJtag f).rt = d.rt := rfl
@[simp] theorem Dev.modJtag_was (d : Dev) (f : Jtag → Jtag) : (d.modJtag f).was = d.was := rfl
@[simp] theorem Dev.modJtag_shown (d : Dev) (f : Jtag → Jtag) : (d.modJtag f).shown = d.shown := rfl
@[simp] theorem Dev.modJtag_crcAt (d : Dev) (f : Jtag → Jtag) : (d.modJtag f).crcAt = d.crcAt := rfl

@[simp] theorem Dev.modSet_regs (d : Dev) (seq : Nat) (f : SetRec → SetRec) : (d.modSet seq f).regs = d.regs := rfl
@[simp] theorem Dev.modSet_was (d : Dev) (seq : Nat) (f : SetRec → SetRec) : (d.modSet seq f).was = d.was := rfl
@[simp] theorem Dev.modSet_shown (d : Dev) (seq : Nat) (f : SetRec → SetRec) : (d.modSet seq f).shown = d.shown := rfl
@[simp] theorem Dev.modSet_shadow (d : Dev) (seq : Nat) (f : SetRec → SetRec) : (d.modSet seq f).shadow = d.shadow := rfl
@[simp] theorem Dev.modSet_eff (d : Dev) (seq : Nat) (f : SetRec → SetRec) : (d.modSet seq f).eff = d.eff := rfl
@[simp] theorem Dev.modSet_now (d : Dev) (seq : Nat) (f : SetRec → SetRec) : (d.modSet seq f).now = d.now := rfl
@[simp] theorem Dev.modSet_fresh (d : Dev) (seq : Nat) (f : SetRec → SetRec) : (d.modSet seq f).fresh = d.fresh := rfl
@[simp] theorem Dev.modSet_sys (d : Dev) (seq : Nat) (f : SetRec → SetRec) : (d.modSet seq f).sys = d.sys := rfl
@[simp] theorem Dev.modSet_raised (d : Dev) (seq : Nat) (f : SetRec → SetRec) : (d.modSet seq f).raised = d.raised := rfl
@[simp] theorem Dev.modSet_coal (d : Dev) (seq : Nat) (f : SetRec → SetRec) : (d.modSet seq f).coal = d.coal := rfl
@[simp] theorem Dev.modSet_time (d : Dev) (seq : Nat) (f : SetRec → SetRec) : (d.modSet seq f).time = d.time := rfl
@[simp] theorem Dev.modSet_timeSub (d : Dev) (seq : Nat) (f : SetRec → SetRec) : (d.modSet seq f).timeSub = d.timeSub := rfl
@[simp] theorem Dev.modSet_prsQ (d : Dev) (seq : Nat) (f : SetRec → SetRec) : (d.modSet seq f).prsQ = d.prsQ := rfl
@[simp] theorem Dev.modSet_doms (d : Dev) (seq : Nat) (f : SetRec → SetRec) : (d.modSet seq f).doms = d.doms := rfl
@[simp] theorem Dev.modSet_pos (d : Dev) (seq : Nat) (f : SetRec → SetRec) : (d.modSet seq f).pos = d.pos := rfl
@[simp] theorem Dev.modSet_image (d : Dev) (seq : Nat) (f : SetRec → SetRec) : (d.modSet seq f).image = d.image := rfl
@[simp] theorem Dev.modSet_bars (d : Dev) (seq : Nat) (f : SetRec → SetRec) : (d.modSet seq f).bars = d.bars := rfl
@[simp] theorem Dev.modSet_stb (d : Dev) (seq : Nat) (f : SetRec → SetRec) : (d.modSet seq f).stb = d.stb := rfl
@[simp] theorem Dev.modSet_cmp (d : Dev) (seq : Nat) (f : SetRec → SetRec) : (d.modSet seq f).cmp = d.cmp := rfl
@[simp] theorem Dev.modSet_noz (d : Dev) (seq : Nat) (f : SetRec → SetRec) : (d.modSet seq f).noz = d.noz := rfl
@[simp] theorem Dev.modSet_zxl (d : Dev) (seq : Nat) (f : SetRec → SetRec) : (d.modSet seq f).zxl = d.zxl := rfl
@[simp] theorem Dev.modSet_sent (d : Dev) (seq : Nat) (f : SetRec → SetRec) : (d.modSet seq f).sent = d.sent := rfl
@[simp] theorem Dev.modSet_vis (d : Dev) (seq : Nat) (f : SetRec → SetRec) : (d.modSet seq f).vis = d.vis := rfl
@[simp] theorem Dev.modSet_egress (d : Dev) (seq : Nat) (f : SetRec → SetRec) : (d.modSet seq f).egress = d.egress := rfl
@[simp] theorem Dev.modSet_den (d : Dev) (seq : Nat) (f : SetRec → SetRec) : (d.modSet seq f).den = d.den := rfl
@[simp] theorem Dev.modSet_lmp (d : Dev) (seq : Nat) (f : SetRec → SetRec) : (d.modSet seq f).lmp = d.lmp := rfl
@[simp] theorem Dev.modSet_store (d : Dev) (seq : Nat) (f : SetRec → SetRec) : (d.modSet seq f).store = d.store := rfl
@[simp] theorem Dev.modSet_poison (d : Dev) (seq : Nat) (f : SetRec → SetRec) : (d.modSet seq f).poison = d.poison := rfl
@[simp] theorem Dev.modSet_drc (d : Dev) (seq : Nat) (f : SetRec → SetRec) : (d.modSet seq f).drc = d.drc := rfl
@[simp] theorem Dev.modSet_dpx (d : Dev) (seq : Nat) (f : SetRec → SetRec) : (d.modSet seq f).dpx = d.dpx := rfl
@[simp] theorem Dev.modSet_ptp (d : Dev) (seq : Nat) (f : SetRec → SetRec) : (d.modSet seq f).ptp = d.ptp := rfl
@[simp] theorem Dev.modSet_boot (d : Dev) (seq : Nat) (f : SetRec → SetRec) : (d.modSet seq f).boot = d.boot := rfl
@[simp] theorem Dev.modSet_thm (d : Dev) (seq : Nat) (f : SetRec → SetRec) : (d.modSet seq f).thm = d.thm := rfl
@[simp] theorem Dev.modSet_frz (d : Dev) (seq : Nat) (f : SetRec → SetRec) : (d.modSet seq f).frz = d.frz := rfl
@[simp] theorem Dev.modSet_jtag (d : Dev) (seq : Nat) (f : SetRec → SetRec) : (d.modSet seq f).jtag = d.jtag := rfl
@[simp] theorem Dev.modSet_prsFailed (d : Dev) (seq : Nat) (f : SetRec → SetRec) : (d.modSet seq f).prsFailed = d.prsFailed := rfl
@[simp] theorem Dev.modSet_sigs (d : Dev) (seq : Nat) (f : SetRec → SetRec) : (d.modSet seq f).sigs = d.sigs := rfl
@[simp] theorem Dev.modSet_evq (d : Dev) (seq : Nat) (f : SetRec → SetRec) : (d.modSet seq f).evq = d.evq := rfl
@[simp] theorem Dev.modSet_snap (d : Dev) (seq : Nat) (f : SetRec → SetRec) : (d.modSet seq f).snap = d.snap := rfl
@[simp] theorem Dev.modSet_egr (d : Dev) (seq : Nat) (f : SetRec → SetRec) : (d.modSet seq f).egr = d.egr := rfl
@[simp] theorem Dev.modSet_crcAt (d : Dev) (seq : Nat) (f : SetRec → SetRec) : (d.modSet seq f).crcAt = d.crcAt := rfl
@[simp] theorem Dev.modSet_hst (d : Dev) (seq : Nat) (f : SetRec → SetRec) : (d.modSet seq f).hst = d.hst := rfl
@[simp] theorem Dev.modSet_rt (d : Dev) (seq : Nat) (f : SetRec → SetRec) : (d.modSet seq f).rt = d.rt := rfl

@[simp] theorem Dev.modEntry_regs (d : Dev) (seq : Nat) (f : Entry → Entry) : (d.modEntry seq f).regs = d.regs := rfl
@[simp] theorem Dev.modEntry_was (d : Dev) (seq : Nat) (f : Entry → Entry) : (d.modEntry seq f).was = d.was := rfl
@[simp] theorem Dev.modEntry_shown (d : Dev) (seq : Nat) (f : Entry → Entry) : (d.modEntry seq f).shown = d.shown := rfl
@[simp] theorem Dev.modEntry_shadow (d : Dev) (seq : Nat) (f : Entry → Entry) : (d.modEntry seq f).shadow = d.shadow := rfl
@[simp] theorem Dev.modEntry_eff (d : Dev) (seq : Nat) (f : Entry → Entry) : (d.modEntry seq f).eff = d.eff := rfl
@[simp] theorem Dev.modEntry_now (d : Dev) (seq : Nat) (f : Entry → Entry) : (d.modEntry seq f).now = d.now := rfl
@[simp] theorem Dev.modEntry_fresh (d : Dev) (seq : Nat) (f : Entry → Entry) : (d.modEntry seq f).fresh = d.fresh := rfl
@[simp] theorem Dev.modEntry_sys (d : Dev) (seq : Nat) (f : Entry → Entry) : (d.modEntry seq f).sys = d.sys := rfl
@[simp] theorem Dev.modEntry_raised (d : Dev) (seq : Nat) (f : Entry → Entry) : (d.modEntry seq f).raised = d.raised := rfl
@[simp] theorem Dev.modEntry_coal (d : Dev) (seq : Nat) (f : Entry → Entry) : (d.modEntry seq f).coal = d.coal := rfl
@[simp] theorem Dev.modEntry_time (d : Dev) (seq : Nat) (f : Entry → Entry) : (d.modEntry seq f).time = d.time := rfl
@[simp] theorem Dev.modEntry_timeSub (d : Dev) (seq : Nat) (f : Entry → Entry) : (d.modEntry seq f).timeSub = d.timeSub := rfl
@[simp] theorem Dev.modEntry_prsQ (d : Dev) (seq : Nat) (f : Entry → Entry) : (d.modEntry seq f).prsQ = d.prsQ := rfl
@[simp] theorem Dev.modEntry_doms (d : Dev) (seq : Nat) (f : Entry → Entry) : (d.modEntry seq f).doms = d.doms := rfl
@[simp] theorem Dev.modEntry_pos (d : Dev) (seq : Nat) (f : Entry → Entry) : (d.modEntry seq f).pos = d.pos := rfl
@[simp] theorem Dev.modEntry_image (d : Dev) (seq : Nat) (f : Entry → Entry) : (d.modEntry seq f).image = d.image := rfl
@[simp] theorem Dev.modEntry_bars (d : Dev) (seq : Nat) (f : Entry → Entry) : (d.modEntry seq f).bars = d.bars := rfl
@[simp] theorem Dev.modEntry_stb (d : Dev) (seq : Nat) (f : Entry → Entry) : (d.modEntry seq f).stb = d.stb := rfl
@[simp] theorem Dev.modEntry_cmp (d : Dev) (seq : Nat) (f : Entry → Entry) : (d.modEntry seq f).cmp = d.cmp := rfl
@[simp] theorem Dev.modEntry_noz (d : Dev) (seq : Nat) (f : Entry → Entry) : (d.modEntry seq f).noz = d.noz := rfl
@[simp] theorem Dev.modEntry_zxl (d : Dev) (seq : Nat) (f : Entry → Entry) : (d.modEntry seq f).zxl = d.zxl := rfl
@[simp] theorem Dev.modEntry_sent (d : Dev) (seq : Nat) (f : Entry → Entry) : (d.modEntry seq f).sent = d.sent := rfl
@[simp] theorem Dev.modEntry_vis (d : Dev) (seq : Nat) (f : Entry → Entry) : (d.modEntry seq f).vis = d.vis := rfl
@[simp] theorem Dev.modEntry_egress (d : Dev) (seq : Nat) (f : Entry → Entry) : (d.modEntry seq f).egress = d.egress := rfl
@[simp] theorem Dev.modEntry_den (d : Dev) (seq : Nat) (f : Entry → Entry) : (d.modEntry seq f).den = d.den := rfl
@[simp] theorem Dev.modEntry_lmp (d : Dev) (seq : Nat) (f : Entry → Entry) : (d.modEntry seq f).lmp = d.lmp := rfl
@[simp] theorem Dev.modEntry_store (d : Dev) (seq : Nat) (f : Entry → Entry) : (d.modEntry seq f).store = d.store := rfl
@[simp] theorem Dev.modEntry_poison (d : Dev) (seq : Nat) (f : Entry → Entry) : (d.modEntry seq f).poison = d.poison := rfl
@[simp] theorem Dev.modEntry_drc (d : Dev) (seq : Nat) (f : Entry → Entry) : (d.modEntry seq f).drc = d.drc := rfl
@[simp] theorem Dev.modEntry_dpx (d : Dev) (seq : Nat) (f : Entry → Entry) : (d.modEntry seq f).dpx = d.dpx := rfl
@[simp] theorem Dev.modEntry_ptp (d : Dev) (seq : Nat) (f : Entry → Entry) : (d.modEntry seq f).ptp = d.ptp := rfl
@[simp] theorem Dev.modEntry_boot (d : Dev) (seq : Nat) (f : Entry → Entry) : (d.modEntry seq f).boot = d.boot := rfl
@[simp] theorem Dev.modEntry_thm (d : Dev) (seq : Nat) (f : Entry → Entry) : (d.modEntry seq f).thm = d.thm := rfl
@[simp] theorem Dev.modEntry_frz (d : Dev) (seq : Nat) (f : Entry → Entry) : (d.modEntry seq f).frz = d.frz := rfl
@[simp] theorem Dev.modEntry_jtag (d : Dev) (seq : Nat) (f : Entry → Entry) : (d.modEntry seq f).jtag = d.jtag := rfl
@[simp] theorem Dev.modEntry_prsFailed (d : Dev) (seq : Nat) (f : Entry → Entry) : (d.modEntry seq f).prsFailed = d.prsFailed := rfl
@[simp] theorem Dev.modEntry_sigs (d : Dev) (seq : Nat) (f : Entry → Entry) : (d.modEntry seq f).sigs = d.sigs := rfl
@[simp] theorem Dev.modEntry_evq (d : Dev) (seq : Nat) (f : Entry → Entry) : (d.modEntry seq f).evq = d.evq := rfl
@[simp] theorem Dev.modEntry_snap (d : Dev) (seq : Nat) (f : Entry → Entry) : (d.modEntry seq f).snap = d.snap := rfl
@[simp] theorem Dev.modEntry_egr (d : Dev) (seq : Nat) (f : Entry → Entry) : (d.modEntry seq f).egr = d.egr := rfl
@[simp] theorem Dev.modEntry_crcAt (d : Dev) (seq : Nat) (f : Entry → Entry) : (d.modEntry seq f).crcAt = d.crcAt := rfl
@[simp] theorem Dev.modEntry_hst (d : Dev) (seq : Nat) (f : Entry → Entry) : (d.modEntry seq f).hst = d.hst := rfl
@[simp] theorem Dev.modEntry_rt (d : Dev) (seq : Nat) (f : Entry → Entry) : (d.modEntry seq f).rt = d.rt := rfl

@[simp] theorem Dev.modHead_regs (d : Dev) (h : Nat) (f : HeadSt → HeadSt) : (d.modHead h f).regs = d.regs := rfl
@[simp] theorem Dev.modHead_was (d : Dev) (h : Nat) (f : HeadSt → HeadSt) : (d.modHead h f).was = d.was := rfl
@[simp] theorem Dev.modHead_shown (d : Dev) (h : Nat) (f : HeadSt → HeadSt) : (d.modHead h f).shown = d.shown := rfl
@[simp] theorem Dev.modHead_shadow (d : Dev) (h : Nat) (f : HeadSt → HeadSt) : (d.modHead h f).shadow = d.shadow := rfl
@[simp] theorem Dev.modHead_eff (d : Dev) (h : Nat) (f : HeadSt → HeadSt) : (d.modHead h f).eff = d.eff := rfl
@[simp] theorem Dev.modHead_now (d : Dev) (h : Nat) (f : HeadSt → HeadSt) : (d.modHead h f).now = d.now := rfl
@[simp] theorem Dev.modHead_fresh (d : Dev) (h : Nat) (f : HeadSt → HeadSt) : (d.modHead h f).fresh = d.fresh := rfl
@[simp] theorem Dev.modHead_sys (d : Dev) (h : Nat) (f : HeadSt → HeadSt) : (d.modHead h f).sys = d.sys := rfl
@[simp] theorem Dev.modHead_raised (d : Dev) (h : Nat) (f : HeadSt → HeadSt) : (d.modHead h f).raised = d.raised := rfl
@[simp] theorem Dev.modHead_coal (d : Dev) (h : Nat) (f : HeadSt → HeadSt) : (d.modHead h f).coal = d.coal := rfl
@[simp] theorem Dev.modHead_time (d : Dev) (h : Nat) (f : HeadSt → HeadSt) : (d.modHead h f).time = d.time := rfl
@[simp] theorem Dev.modHead_timeSub (d : Dev) (h : Nat) (f : HeadSt → HeadSt) : (d.modHead h f).timeSub = d.timeSub := rfl
@[simp] theorem Dev.modHead_prsQ (d : Dev) (h : Nat) (f : HeadSt → HeadSt) : (d.modHead h f).prsQ = d.prsQ := rfl
@[simp] theorem Dev.modHead_doms (d : Dev) (h : Nat) (f : HeadSt → HeadSt) : (d.modHead h f).doms = d.doms := rfl
@[simp] theorem Dev.modHead_pos (d : Dev) (h : Nat) (f : HeadSt → HeadSt) : (d.modHead h f).pos = d.pos := rfl
@[simp] theorem Dev.modHead_image (d : Dev) (h : Nat) (f : HeadSt → HeadSt) : (d.modHead h f).image = d.image := rfl
@[simp] theorem Dev.modHead_job (d : Dev) (h : Nat) (f : HeadSt → HeadSt) : (d.modHead h f).job = d.job := rfl
@[simp] theorem Dev.modHead_bars (d : Dev) (h : Nat) (f : HeadSt → HeadSt) : (d.modHead h f).bars = d.bars := rfl
@[simp] theorem Dev.modHead_stb (d : Dev) (h : Nat) (f : HeadSt → HeadSt) : (d.modHead h f).stb = d.stb := rfl
@[simp] theorem Dev.modHead_cmp (d : Dev) (h : Nat) (f : HeadSt → HeadSt) : (d.modHead h f).cmp = d.cmp := rfl
@[simp] theorem Dev.modHead_zxl (d : Dev) (h : Nat) (f : HeadSt → HeadSt) : (d.modHead h f).zxl = d.zxl := rfl
@[simp] theorem Dev.modHead_sent (d : Dev) (h : Nat) (f : HeadSt → HeadSt) : (d.modHead h f).sent = d.sent := rfl
@[simp] theorem Dev.modHead_vis (d : Dev) (h : Nat) (f : HeadSt → HeadSt) : (d.modHead h f).vis = d.vis := rfl
@[simp] theorem Dev.modHead_egress (d : Dev) (h : Nat) (f : HeadSt → HeadSt) : (d.modHead h f).egress = d.egress := rfl
@[simp] theorem Dev.modHead_den (d : Dev) (h : Nat) (f : HeadSt → HeadSt) : (d.modHead h f).den = d.den := rfl
@[simp] theorem Dev.modHead_lmp (d : Dev) (h : Nat) (f : HeadSt → HeadSt) : (d.modHead h f).lmp = d.lmp := rfl
@[simp] theorem Dev.modHead_store (d : Dev) (h : Nat) (f : HeadSt → HeadSt) : (d.modHead h f).store = d.store := rfl
@[simp] theorem Dev.modHead_poison (d : Dev) (h : Nat) (f : HeadSt → HeadSt) : (d.modHead h f).poison = d.poison := rfl
@[simp] theorem Dev.modHead_drc (d : Dev) (h : Nat) (f : HeadSt → HeadSt) : (d.modHead h f).drc = d.drc := rfl
@[simp] theorem Dev.modHead_dpx (d : Dev) (h : Nat) (f : HeadSt → HeadSt) : (d.modHead h f).dpx = d.dpx := rfl
@[simp] theorem Dev.modHead_ptp (d : Dev) (h : Nat) (f : HeadSt → HeadSt) : (d.modHead h f).ptp = d.ptp := rfl
@[simp] theorem Dev.modHead_boot (d : Dev) (h : Nat) (f : HeadSt → HeadSt) : (d.modHead h f).boot = d.boot := rfl
@[simp] theorem Dev.modHead_thm (d : Dev) (h : Nat) (f : HeadSt → HeadSt) : (d.modHead h f).thm = d.thm := rfl
@[simp] theorem Dev.modHead_frz (d : Dev) (h : Nat) (f : HeadSt → HeadSt) : (d.modHead h f).frz = d.frz := rfl
@[simp] theorem Dev.modHead_jtag (d : Dev) (h : Nat) (f : HeadSt → HeadSt) : (d.modHead h f).jtag = d.jtag := rfl
@[simp] theorem Dev.modHead_prsFailed (d : Dev) (h : Nat) (f : HeadSt → HeadSt) : (d.modHead h f).prsFailed = d.prsFailed := rfl
@[simp] theorem Dev.modHead_sigs (d : Dev) (h : Nat) (f : HeadSt → HeadSt) : (d.modHead h f).sigs = d.sigs := rfl
@[simp] theorem Dev.modHead_evq (d : Dev) (h : Nat) (f : HeadSt → HeadSt) : (d.modHead h f).evq = d.evq := rfl
@[simp] theorem Dev.modHead_snap (d : Dev) (h : Nat) (f : HeadSt → HeadSt) : (d.modHead h f).snap = d.snap := rfl
@[simp] theorem Dev.modHead_egr (d : Dev) (h : Nat) (f : HeadSt → HeadSt) : (d.modHead h f).egr = d.egr := rfl
@[simp] theorem Dev.modHead_crcAt (d : Dev) (h : Nat) (f : HeadSt → HeadSt) : (d.modHead h f).crcAt = d.crcAt := rfl
@[simp] theorem Dev.modHead_hst (d : Dev) (h : Nat) (f : HeadSt → HeadSt) : (d.modHead h f).hst = d.hst := rfl
@[simp] theorem Dev.modHead_rt (d : Dev) (h : Nat) (f : HeadSt → HeadSt) : (d.modHead h f).rt = d.rt := rfl

@[simp] theorem Dev.modDpxBar_regs (d : Dev) (b : Fin 12) (f : DpxBar → DpxBar) : (d.modDpxBar b f).regs = d.regs := rfl
@[simp] theorem Dev.modDpxBar_was (d : Dev) (b : Fin 12) (f : DpxBar → DpxBar) : (d.modDpxBar b f).was = d.was := rfl
@[simp] theorem Dev.modDpxBar_shown (d : Dev) (b : Fin 12) (f : DpxBar → DpxBar) : (d.modDpxBar b f).shown = d.shown := rfl
@[simp] theorem Dev.modDpxBar_shadow (d : Dev) (b : Fin 12) (f : DpxBar → DpxBar) : (d.modDpxBar b f).shadow = d.shadow := rfl
@[simp] theorem Dev.modDpxBar_eff (d : Dev) (b : Fin 12) (f : DpxBar → DpxBar) : (d.modDpxBar b f).eff = d.eff := rfl
@[simp] theorem Dev.modDpxBar_now (d : Dev) (b : Fin 12) (f : DpxBar → DpxBar) : (d.modDpxBar b f).now = d.now := rfl
@[simp] theorem Dev.modDpxBar_fresh (d : Dev) (b : Fin 12) (f : DpxBar → DpxBar) : (d.modDpxBar b f).fresh = d.fresh := rfl
@[simp] theorem Dev.modDpxBar_sys (d : Dev) (b : Fin 12) (f : DpxBar → DpxBar) : (d.modDpxBar b f).sys = d.sys := rfl
@[simp] theorem Dev.modDpxBar_raised (d : Dev) (b : Fin 12) (f : DpxBar → DpxBar) : (d.modDpxBar b f).raised = d.raised := rfl
@[simp] theorem Dev.modDpxBar_coal (d : Dev) (b : Fin 12) (f : DpxBar → DpxBar) : (d.modDpxBar b f).coal = d.coal := rfl
@[simp] theorem Dev.modDpxBar_time (d : Dev) (b : Fin 12) (f : DpxBar → DpxBar) : (d.modDpxBar b f).time = d.time := rfl
@[simp] theorem Dev.modDpxBar_timeSub (d : Dev) (b : Fin 12) (f : DpxBar → DpxBar) : (d.modDpxBar b f).timeSub = d.timeSub := rfl
@[simp] theorem Dev.modDpxBar_prsQ (d : Dev) (b : Fin 12) (f : DpxBar → DpxBar) : (d.modDpxBar b f).prsQ = d.prsQ := rfl
@[simp] theorem Dev.modDpxBar_doms (d : Dev) (b : Fin 12) (f : DpxBar → DpxBar) : (d.modDpxBar b f).doms = d.doms := rfl
@[simp] theorem Dev.modDpxBar_pos (d : Dev) (b : Fin 12) (f : DpxBar → DpxBar) : (d.modDpxBar b f).pos = d.pos := rfl
@[simp] theorem Dev.modDpxBar_image (d : Dev) (b : Fin 12) (f : DpxBar → DpxBar) : (d.modDpxBar b f).image = d.image := rfl
@[simp] theorem Dev.modDpxBar_job (d : Dev) (b : Fin 12) (f : DpxBar → DpxBar) : (d.modDpxBar b f).job = d.job := rfl
@[simp] theorem Dev.modDpxBar_bars (d : Dev) (b : Fin 12) (f : DpxBar → DpxBar) : (d.modDpxBar b f).bars = d.bars := rfl
@[simp] theorem Dev.modDpxBar_stb (d : Dev) (b : Fin 12) (f : DpxBar → DpxBar) : (d.modDpxBar b f).stb = d.stb := rfl
@[simp] theorem Dev.modDpxBar_cmp (d : Dev) (b : Fin 12) (f : DpxBar → DpxBar) : (d.modDpxBar b f).cmp = d.cmp := rfl
@[simp] theorem Dev.modDpxBar_noz (d : Dev) (b : Fin 12) (f : DpxBar → DpxBar) : (d.modDpxBar b f).noz = d.noz := rfl
@[simp] theorem Dev.modDpxBar_zxl (d : Dev) (b : Fin 12) (f : DpxBar → DpxBar) : (d.modDpxBar b f).zxl = d.zxl := rfl
@[simp] theorem Dev.modDpxBar_sent (d : Dev) (b : Fin 12) (f : DpxBar → DpxBar) : (d.modDpxBar b f).sent = d.sent := rfl
@[simp] theorem Dev.modDpxBar_vis (d : Dev) (b : Fin 12) (f : DpxBar → DpxBar) : (d.modDpxBar b f).vis = d.vis := rfl
@[simp] theorem Dev.modDpxBar_egress (d : Dev) (b : Fin 12) (f : DpxBar → DpxBar) : (d.modDpxBar b f).egress = d.egress := rfl
@[simp] theorem Dev.modDpxBar_den (d : Dev) (b : Fin 12) (f : DpxBar → DpxBar) : (d.modDpxBar b f).den = d.den := rfl
@[simp] theorem Dev.modDpxBar_lmp (d : Dev) (b : Fin 12) (f : DpxBar → DpxBar) : (d.modDpxBar b f).lmp = d.lmp := rfl
@[simp] theorem Dev.modDpxBar_store (d : Dev) (b : Fin 12) (f : DpxBar → DpxBar) : (d.modDpxBar b f).store = d.store := rfl
@[simp] theorem Dev.modDpxBar_poison (d : Dev) (b : Fin 12) (f : DpxBar → DpxBar) : (d.modDpxBar b f).poison = d.poison := rfl
@[simp] theorem Dev.modDpxBar_drc (d : Dev) (b : Fin 12) (f : DpxBar → DpxBar) : (d.modDpxBar b f).drc = d.drc := rfl
@[simp] theorem Dev.modDpxBar_ptp (d : Dev) (b : Fin 12) (f : DpxBar → DpxBar) : (d.modDpxBar b f).ptp = d.ptp := rfl
@[simp] theorem Dev.modDpxBar_boot (d : Dev) (b : Fin 12) (f : DpxBar → DpxBar) : (d.modDpxBar b f).boot = d.boot := rfl
@[simp] theorem Dev.modDpxBar_thm (d : Dev) (b : Fin 12) (f : DpxBar → DpxBar) : (d.modDpxBar b f).thm = d.thm := rfl
@[simp] theorem Dev.modDpxBar_frz (d : Dev) (b : Fin 12) (f : DpxBar → DpxBar) : (d.modDpxBar b f).frz = d.frz := rfl
@[simp] theorem Dev.modDpxBar_jtag (d : Dev) (b : Fin 12) (f : DpxBar → DpxBar) : (d.modDpxBar b f).jtag = d.jtag := rfl
@[simp] theorem Dev.modDpxBar_prsFailed (d : Dev) (b : Fin 12) (f : DpxBar → DpxBar) : (d.modDpxBar b f).prsFailed = d.prsFailed := rfl
@[simp] theorem Dev.modDpxBar_sigs (d : Dev) (b : Fin 12) (f : DpxBar → DpxBar) : (d.modDpxBar b f).sigs = d.sigs := rfl
@[simp] theorem Dev.modDpxBar_evq (d : Dev) (b : Fin 12) (f : DpxBar → DpxBar) : (d.modDpxBar b f).evq = d.evq := rfl
@[simp] theorem Dev.modDpxBar_snap (d : Dev) (b : Fin 12) (f : DpxBar → DpxBar) : (d.modDpxBar b f).snap = d.snap := rfl
@[simp] theorem Dev.modDpxBar_egr (d : Dev) (b : Fin 12) (f : DpxBar → DpxBar) : (d.modDpxBar b f).egr = d.egr := rfl
@[simp] theorem Dev.modDpxBar_crcAt (d : Dev) (b : Fin 12) (f : DpxBar → DpxBar) : (d.modDpxBar b f).crcAt = d.crcAt := rfl
@[simp] theorem Dev.modDpxBar_hst (d : Dev) (b : Fin 12) (f : DpxBar → DpxBar) : (d.modDpxBar b f).hst = d.hst := rfl
@[simp] theorem Dev.modDpxBar_rt (d : Dev) (b : Fin 12) (f : DpxBar → DpxBar) : (d.modDpxBar b f).rt = d.rt := rfl

@[simp] theorem Dev.modBand_regs (d : Dev) (x : DenBand) (f : DenBand → DenBand) : (d.modBand x f).regs = d.regs := rfl
@[simp] theorem Dev.modBand_was (d : Dev) (x : DenBand) (f : DenBand → DenBand) : (d.modBand x f).was = d.was := rfl
@[simp] theorem Dev.modBand_shown (d : Dev) (x : DenBand) (f : DenBand → DenBand) : (d.modBand x f).shown = d.shown := rfl
@[simp] theorem Dev.modBand_shadow (d : Dev) (x : DenBand) (f : DenBand → DenBand) : (d.modBand x f).shadow = d.shadow := rfl
@[simp] theorem Dev.modBand_eff (d : Dev) (x : DenBand) (f : DenBand → DenBand) : (d.modBand x f).eff = d.eff := rfl
@[simp] theorem Dev.modBand_now (d : Dev) (x : DenBand) (f : DenBand → DenBand) : (d.modBand x f).now = d.now := rfl
@[simp] theorem Dev.modBand_fresh (d : Dev) (x : DenBand) (f : DenBand → DenBand) : (d.modBand x f).fresh = d.fresh := rfl
@[simp] theorem Dev.modBand_sys (d : Dev) (x : DenBand) (f : DenBand → DenBand) : (d.modBand x f).sys = d.sys := rfl
@[simp] theorem Dev.modBand_raised (d : Dev) (x : DenBand) (f : DenBand → DenBand) : (d.modBand x f).raised = d.raised := rfl
@[simp] theorem Dev.modBand_coal (d : Dev) (x : DenBand) (f : DenBand → DenBand) : (d.modBand x f).coal = d.coal := rfl
@[simp] theorem Dev.modBand_time (d : Dev) (x : DenBand) (f : DenBand → DenBand) : (d.modBand x f).time = d.time := rfl
@[simp] theorem Dev.modBand_timeSub (d : Dev) (x : DenBand) (f : DenBand → DenBand) : (d.modBand x f).timeSub = d.timeSub := rfl
@[simp] theorem Dev.modBand_prsQ (d : Dev) (x : DenBand) (f : DenBand → DenBand) : (d.modBand x f).prsQ = d.prsQ := rfl
@[simp] theorem Dev.modBand_doms (d : Dev) (x : DenBand) (f : DenBand → DenBand) : (d.modBand x f).doms = d.doms := rfl
@[simp] theorem Dev.modBand_pos (d : Dev) (x : DenBand) (f : DenBand → DenBand) : (d.modBand x f).pos = d.pos := rfl
@[simp] theorem Dev.modBand_image (d : Dev) (x : DenBand) (f : DenBand → DenBand) : (d.modBand x f).image = d.image := rfl
@[simp] theorem Dev.modBand_job (d : Dev) (x : DenBand) (f : DenBand → DenBand) : (d.modBand x f).job = d.job := rfl
@[simp] theorem Dev.modBand_bars (d : Dev) (x : DenBand) (f : DenBand → DenBand) : (d.modBand x f).bars = d.bars := rfl
@[simp] theorem Dev.modBand_stb (d : Dev) (x : DenBand) (f : DenBand → DenBand) : (d.modBand x f).stb = d.stb := rfl
@[simp] theorem Dev.modBand_cmp (d : Dev) (x : DenBand) (f : DenBand → DenBand) : (d.modBand x f).cmp = d.cmp := rfl
@[simp] theorem Dev.modBand_noz (d : Dev) (x : DenBand) (f : DenBand → DenBand) : (d.modBand x f).noz = d.noz := rfl
@[simp] theorem Dev.modBand_zxl (d : Dev) (x : DenBand) (f : DenBand → DenBand) : (d.modBand x f).zxl = d.zxl := rfl
@[simp] theorem Dev.modBand_sent (d : Dev) (x : DenBand) (f : DenBand → DenBand) : (d.modBand x f).sent = d.sent := rfl
@[simp] theorem Dev.modBand_vis (d : Dev) (x : DenBand) (f : DenBand → DenBand) : (d.modBand x f).vis = d.vis := rfl
@[simp] theorem Dev.modBand_egress (d : Dev) (x : DenBand) (f : DenBand → DenBand) : (d.modBand x f).egress = d.egress := rfl
@[simp] theorem Dev.modBand_lmp (d : Dev) (x : DenBand) (f : DenBand → DenBand) : (d.modBand x f).lmp = d.lmp := rfl
@[simp] theorem Dev.modBand_store (d : Dev) (x : DenBand) (f : DenBand → DenBand) : (d.modBand x f).store = d.store := rfl
@[simp] theorem Dev.modBand_poison (d : Dev) (x : DenBand) (f : DenBand → DenBand) : (d.modBand x f).poison = d.poison := rfl
@[simp] theorem Dev.modBand_drc (d : Dev) (x : DenBand) (f : DenBand → DenBand) : (d.modBand x f).drc = d.drc := rfl
@[simp] theorem Dev.modBand_dpx (d : Dev) (x : DenBand) (f : DenBand → DenBand) : (d.modBand x f).dpx = d.dpx := rfl
@[simp] theorem Dev.modBand_ptp (d : Dev) (x : DenBand) (f : DenBand → DenBand) : (d.modBand x f).ptp = d.ptp := rfl
@[simp] theorem Dev.modBand_boot (d : Dev) (x : DenBand) (f : DenBand → DenBand) : (d.modBand x f).boot = d.boot := rfl
@[simp] theorem Dev.modBand_thm (d : Dev) (x : DenBand) (f : DenBand → DenBand) : (d.modBand x f).thm = d.thm := rfl
@[simp] theorem Dev.modBand_frz (d : Dev) (x : DenBand) (f : DenBand → DenBand) : (d.modBand x f).frz = d.frz := rfl
@[simp] theorem Dev.modBand_jtag (d : Dev) (x : DenBand) (f : DenBand → DenBand) : (d.modBand x f).jtag = d.jtag := rfl
@[simp] theorem Dev.modBand_prsFailed (d : Dev) (x : DenBand) (f : DenBand → DenBand) : (d.modBand x f).prsFailed = d.prsFailed := rfl
@[simp] theorem Dev.modBand_sigs (d : Dev) (x : DenBand) (f : DenBand → DenBand) : (d.modBand x f).sigs = d.sigs := rfl
@[simp] theorem Dev.modBand_evq (d : Dev) (x : DenBand) (f : DenBand → DenBand) : (d.modBand x f).evq = d.evq := rfl
@[simp] theorem Dev.modBand_snap (d : Dev) (x : DenBand) (f : DenBand → DenBand) : (d.modBand x f).snap = d.snap := rfl
@[simp] theorem Dev.modBand_egr (d : Dev) (x : DenBand) (f : DenBand → DenBand) : (d.modBand x f).egr = d.egr := rfl
@[simp] theorem Dev.modBand_crcAt (d : Dev) (x : DenBand) (f : DenBand → DenBand) : (d.modBand x f).crcAt = d.crcAt := rfl
@[simp] theorem Dev.modBand_hst (d : Dev) (x : DenBand) (f : DenBand → DenBand) : (d.modBand x f).hst = d.hst := rfl
@[simp] theorem Dev.modBand_rt (d : Dev) (x : DenBand) (f : DenBand → DenBand) : (d.modBand x f).rt = d.rt := rfl

@[simp] theorem Dev.modCh_regs (d : Dev) (k : Fin 4) (f : MemChan → MemChan) : (d.modCh k f).regs = d.regs := rfl
@[simp] theorem Dev.modCh_was (d : Dev) (k : Fin 4) (f : MemChan → MemChan) : (d.modCh k f).was = d.was := rfl
@[simp] theorem Dev.modCh_shown (d : Dev) (k : Fin 4) (f : MemChan → MemChan) : (d.modCh k f).shown = d.shown := rfl
@[simp] theorem Dev.modCh_shadow (d : Dev) (k : Fin 4) (f : MemChan → MemChan) : (d.modCh k f).shadow = d.shadow := rfl
@[simp] theorem Dev.modCh_eff (d : Dev) (k : Fin 4) (f : MemChan → MemChan) : (d.modCh k f).eff = d.eff := rfl
@[simp] theorem Dev.modCh_now (d : Dev) (k : Fin 4) (f : MemChan → MemChan) : (d.modCh k f).now = d.now := rfl
@[simp] theorem Dev.modCh_fresh (d : Dev) (k : Fin 4) (f : MemChan → MemChan) : (d.modCh k f).fresh = d.fresh := rfl
@[simp] theorem Dev.modCh_sys (d : Dev) (k : Fin 4) (f : MemChan → MemChan) : (d.modCh k f).sys = d.sys := rfl
@[simp] theorem Dev.modCh_raised (d : Dev) (k : Fin 4) (f : MemChan → MemChan) : (d.modCh k f).raised = d.raised := rfl
@[simp] theorem Dev.modCh_coal (d : Dev) (k : Fin 4) (f : MemChan → MemChan) : (d.modCh k f).coal = d.coal := rfl
@[simp] theorem Dev.modCh_time (d : Dev) (k : Fin 4) (f : MemChan → MemChan) : (d.modCh k f).time = d.time := rfl
@[simp] theorem Dev.modCh_timeSub (d : Dev) (k : Fin 4) (f : MemChan → MemChan) : (d.modCh k f).timeSub = d.timeSub := rfl
@[simp] theorem Dev.modCh_prsQ (d : Dev) (k : Fin 4) (f : MemChan → MemChan) : (d.modCh k f).prsQ = d.prsQ := rfl
@[simp] theorem Dev.modCh_doms (d : Dev) (k : Fin 4) (f : MemChan → MemChan) : (d.modCh k f).doms = d.doms := rfl
@[simp] theorem Dev.modCh_pos (d : Dev) (k : Fin 4) (f : MemChan → MemChan) : (d.modCh k f).pos = d.pos := rfl
@[simp] theorem Dev.modCh_image (d : Dev) (k : Fin 4) (f : MemChan → MemChan) : (d.modCh k f).image = d.image := rfl
@[simp] theorem Dev.modCh_job (d : Dev) (k : Fin 4) (f : MemChan → MemChan) : (d.modCh k f).job = d.job := rfl
@[simp] theorem Dev.modCh_bars (d : Dev) (k : Fin 4) (f : MemChan → MemChan) : (d.modCh k f).bars = d.bars := rfl
@[simp] theorem Dev.modCh_stb (d : Dev) (k : Fin 4) (f : MemChan → MemChan) : (d.modCh k f).stb = d.stb := rfl
@[simp] theorem Dev.modCh_cmp (d : Dev) (k : Fin 4) (f : MemChan → MemChan) : (d.modCh k f).cmp = d.cmp := rfl
@[simp] theorem Dev.modCh_noz (d : Dev) (k : Fin 4) (f : MemChan → MemChan) : (d.modCh k f).noz = d.noz := rfl
@[simp] theorem Dev.modCh_zxl (d : Dev) (k : Fin 4) (f : MemChan → MemChan) : (d.modCh k f).zxl = d.zxl := rfl
@[simp] theorem Dev.modCh_sent (d : Dev) (k : Fin 4) (f : MemChan → MemChan) : (d.modCh k f).sent = d.sent := rfl
@[simp] theorem Dev.modCh_vis (d : Dev) (k : Fin 4) (f : MemChan → MemChan) : (d.modCh k f).vis = d.vis := rfl
@[simp] theorem Dev.modCh_egress (d : Dev) (k : Fin 4) (f : MemChan → MemChan) : (d.modCh k f).egress = d.egress := rfl
@[simp] theorem Dev.modCh_den (d : Dev) (k : Fin 4) (f : MemChan → MemChan) : (d.modCh k f).den = d.den := rfl
@[simp] theorem Dev.modCh_lmp (d : Dev) (k : Fin 4) (f : MemChan → MemChan) : (d.modCh k f).lmp = d.lmp := rfl
@[simp] theorem Dev.modCh_store (d : Dev) (k : Fin 4) (f : MemChan → MemChan) : (d.modCh k f).store = d.store := rfl
@[simp] theorem Dev.modCh_poison (d : Dev) (k : Fin 4) (f : MemChan → MemChan) : (d.modCh k f).poison = d.poison := rfl
@[simp] theorem Dev.modCh_dpx (d : Dev) (k : Fin 4) (f : MemChan → MemChan) : (d.modCh k f).dpx = d.dpx := rfl
@[simp] theorem Dev.modCh_ptp (d : Dev) (k : Fin 4) (f : MemChan → MemChan) : (d.modCh k f).ptp = d.ptp := rfl
@[simp] theorem Dev.modCh_boot (d : Dev) (k : Fin 4) (f : MemChan → MemChan) : (d.modCh k f).boot = d.boot := rfl
@[simp] theorem Dev.modCh_thm (d : Dev) (k : Fin 4) (f : MemChan → MemChan) : (d.modCh k f).thm = d.thm := rfl
@[simp] theorem Dev.modCh_frz (d : Dev) (k : Fin 4) (f : MemChan → MemChan) : (d.modCh k f).frz = d.frz := rfl
@[simp] theorem Dev.modCh_jtag (d : Dev) (k : Fin 4) (f : MemChan → MemChan) : (d.modCh k f).jtag = d.jtag := rfl
@[simp] theorem Dev.modCh_prsFailed (d : Dev) (k : Fin 4) (f : MemChan → MemChan) : (d.modCh k f).prsFailed = d.prsFailed := rfl
@[simp] theorem Dev.modCh_sigs (d : Dev) (k : Fin 4) (f : MemChan → MemChan) : (d.modCh k f).sigs = d.sigs := rfl
@[simp] theorem Dev.modCh_evq (d : Dev) (k : Fin 4) (f : MemChan → MemChan) : (d.modCh k f).evq = d.evq := rfl
@[simp] theorem Dev.modCh_snap (d : Dev) (k : Fin 4) (f : MemChan → MemChan) : (d.modCh k f).snap = d.snap := rfl
@[simp] theorem Dev.modCh_egr (d : Dev) (k : Fin 4) (f : MemChan → MemChan) : (d.modCh k f).egr = d.egr := rfl
@[simp] theorem Dev.modCh_crcAt (d : Dev) (k : Fin 4) (f : MemChan → MemChan) : (d.modCh k f).crcAt = d.crcAt := rfl
@[simp] theorem Dev.modCh_hst (d : Dev) (k : Fin 4) (f : MemChan → MemChan) : (d.modCh k f).hst = d.hst := rfl
@[simp] theorem Dev.modCh_rt (d : Dev) (k : Fin 4) (f : MemChan → MemChan) : (d.modCh k f).rt = d.rt := rfl

end Sys2Proof.Machine
end

