-- ==== Sys2Proof/Tests/Slice0.lean ====
section
/-!
SUPPORT. Tests: terms that the well-formedness check refuses, a few commands whose result the spec states or a sum gives, and for every statement
with hypotheses a state and operands that meet them (test_meets_<statement>).
-/
namespace Sys2Proof.Tests
open Sys2Proof Sys2Proof.Machine

/-- Every domain runs with its clock, in one mode, before boot. -/
def up (m : Mode) : Dev := { regs := [(Reg.RPC_CLK, 0xFFFF#32)], doms := Vector.replicate 12 { st := .run }, sys := { mode := m } }

/-- The same with boot behind it. -/
def run (m : Mode) : Dev := { up m with boot := { por := false, perst := false, step := 11, released := true } }

/-- A state with no other command waiting. -/
def st (d : Dev) : State := { dev := d, pending := [] }

/-- One domain powered down. -/
def off (p : Fin 12) (d : Dev) : Dev := { d with doms := d.doms.set p { st := .off } }

/-- What a command leaves of the device; nothing where it answers no next state. -/
def after (c : Instr) (d : Dev) : Option Dev := match exec c (st d) with | .next t => some t.dev | _ => none

/-- A set that is captured and has not applied, its line known on bar 0. -/
def aSet : SetRec := { seq := 1, kind := 0, anchor := 0, fields := [], lines := (Vector.replicate 12 none).set 0 (some ⟨0, 0, 3⟩) }

/-- Bar 0 as given. -/
def onBar (d : Dev) (x : BarSt) : Dev := { d with bars := d.bars.set 0 x }

/-- A job of one bar: 100 lines of 16 positions, contone. -/
def aJob : JobDesc :=
  { cls := 0, down := 0, across := 0, planes := 1, pitch := 0, lines := 100, width := 16, ratio := 0, stride := 4096, base := 0, tag := 7 }

/-- Its entry, once, with a pitch of 21,166.668 nm. -/
def anEntry : Entry :=
  { seq := 0, last := true, anchor := 1, dir := 0, job := 0, rep := 1, gap := 0, pos := 0, pitch := 5418667, j0 := some 0, desc := aJob }

/-- A record of one class. -/
def aRecord (cls : Nat) : Event := { code := 1539, cls := cls, bar := 15, ep := none, web := 0, time := {}, count := 1, detail := [] }

/-- The event ring is open with room. -/
def ringed (d : Dev) : Dev := ((d.set F.SYS_EVT_CFG_EN 1).set F.SYS_EVT_SIZE_ENTRIES 64).set F.HST_STATUS_BME 1

/-- Channels 2 and 3 enabled, one as a quadrature, one as a serial channel; the spacing 5 × 10 ns. -/
def enc (m : Mode) : Dev :=
  { ((((run m).wr Reg.POS_CFG 0xC02).set (F.POS_CH_CFG_MODE 3) 1).set (F.POS_CH_CFG_MINSP 2) 5) with now := 1000000 }

/-- Channels 0 and 1 enabled, channel 0 the source. -/
def ana (m : Mode) : Dev := (run m).wr Reg.POS_CFG 0x300

/-- Bar 0 in its first copy at line 5, the web in place. -/
def onLine (m : Mode) (x : BarSt) : Dev :=
  let d := onBar (run m) { x with cur := some (0, 0), count := 5 * 2 ^ 32, inc := 429497, next := 5, started := some (0, 0) }
  { d with now := 1000000, job := { entries := [anEntry] }, pos := { web := 110000 * 2 ^ 24, hwm := 110000 * 2 ^ 24 } }

/-- A line of bar 0 on its way to the endpoints. -/
def aLine (fired : Bool) : Issued := { pos := ⟨0, 0, 4⟩, k := 4, wire := 5, fireAt := 500, fired := fired, endAt := 600 }

/-- The memory serves; the last address is 0xFFFF. -/
def mem (d : Dev) : Dev := (d.set F.DRC_STATUS_INIT_DONE 1).wr Reg.DRC_CAP_LO 0x10000

/-- A bitmap job of bar 0 and schedule entry 1, which names it, in the job store. -/
def stocked (d : Dev) : Dev :=
  let d := (((mem d).effWr Reg.JOB_TABLE_BASE_LO 0x1000).set F.JOB_TABLE_SIZE_JOBS 1).set F.ZXL_BAR_AVAIL_BARS 1
  { d with image := some { bars := 1, nozzles := [16] },
           store := [(35, 0x80#8), (36, 1#8), (0x1002, 1#8), (0x1003, 0xC0#8), (0x1005, 0xD0#8), (0x1006, 7#8), (0x1008, 4#8), (0x100C, 16#8),
                     (0x1014, 64#8), (0x1019, 0x20#8)] }

/-- A bitmap job: 100 lines of 16 positions on bar 0. -/
def bitJob : JobDesc := { aJob with cls := 1, stride := 64 }

/-- One head at endpoint 0. -/
def aHead (inhibit : Bool) (ctr : Nat) : HeadSt :=
  { img := { h := 3, ep := 0, slot := 0, bar := 0, row := 0, first := 0, count := 4 }, inhibit := inhibit, ctr := ctr, clearAt := some 0 }

/-! ### What the statements' hypotheses are met by -/

theorem test_meets_EveryStepGoesOn : (st (run .idle)).pending = [] := by decide

theorem test_meets_AccessOfABlockThatDoesNotAnswer :
    (∀ d ∈ [off 10 (run .idle)], hostBlock (.webSet 0) = some 5 ∧ d.live 1 = true ∧ d.frz = none ∧ d.on 5 = false ∧ d.on (blkOf 0x500018) = false) ∧
    (off 1 (run .idle)).live 1 = false := by decide

theorem test_meets_StoppedDomainsHoldStill :
    needs (.cameraLineEnd 0 [1]) = some [11, 6, 7] ∧ [11, 6, 7].all (off 7 (run .print)).live = false ∧
    needs (.ringClosed 17 3) = some [9] ∧ [9].all (off 9 (run .print)).live = false := by decide

theorem test_meets_RegisterWrites :
    (∀ d ∈ [off 10 (run .idle)], d.live 1 = true ∧ d.frz = none ∧ d.on (blkOf 0x500018) = false) ∧
    (∀ d ∈ [run .idle], d.reaches (blkOf 0x5FFFFC) = true ∧ d.place 0x5FFFFC = some 0x5FFFFC ∧ (findReg 0x5FFFFC).isNone = true ∧
      d.reaches 5 = true ∧ (findReg Reg.POS_BACKLASH).isSome = true ∧ d.reaches 6 = true ∧ d.reaches 14 = true) := by decide

theorem test_meets_ModeRequestsAreJudged :
    (∀ d ∈ [run .idle], d.reaches 0 = true ∧ d.sys.halt = false ∧ d.get F.SYS_MODE_REQ_RESULT ≠ 1 ∧ d.sys.trans = none ∧ d.ptp.act = none ∧
      d.mode = .idle ∧ hostMay d .print = false ∧ hostMay d .shutdown = true) ∧
    (∀ d ∈ [(run .idle).set F.SYS_MODE_REQ_RESULT 1], d.reaches 0 = true ∧ d.sys.halt = false ∧ d.get F.SYS_MODE_REQ_RESULT = 1) ∧
    (∀ d ∈ [{ run .idle with sys := { mode := .idle, trans := some { dest := .ready, cause := 0, host := true } } }],
      d.reaches 0 = true ∧ d.sys.halt = false ∧ d.get F.SYS_MODE_REQ_RESULT ≠ 1 ∧ d.sys.trans.isSome = true) ∧
    (∀ d ∈ [run .print], d.reaches 0 = true ∧ d.sys.halt = false ∧ d.sys.trans = none ∧ hostMay d .hold = true) ∧
    (∀ d ∈ [(run .ready).set F.DRC_STATUS_FC_BUSY 1], d.reaches 0 = true ∧ d.sys.halt = false ∧ d.sys.trans = none ∧ hostMay d .print = true ∧
      d.mode ≠ .idle ∧ (d.checkMode .print).2 ≠ 0) ∧
    (∀ d ∈ [((run .idle).set (F.PTP_ACT_CTL_STATE 0) 1)], (⟨[.actionFire 0], d⟩ : State).firesNow = true ∧
      (⟨[.modeRequest 4], d⟩ : State).firesNow = false ∧ [Instr.modeRequest 4].any writesTarget = true) ∧
    (∀ d ∈ [{ run .print with sys := { mode := .print, trans := some { dest := .hold, cause := 4, host := false } }, dpx := { takeAt := some 0 } }],
      d.sys.trans = some { dest := .hold, cause := 4, host := false, at_ := d.now } ∧ d.dpx.takeAt = some d.now ∧ d.ptp.firedAt ≠ some d.now) ∧
    Mode.ofCode 12 = none ∧ Mode.ofCode 11 = some .frozen := by decide

theorem test_meets_TransitionsComplete :
    (∀ d ∈ [run .idle], d.live 1 = true ∧ d.frz = none ∧ d.mode ≠ .sleep ∧ d.sys.trans = none ∧ d.reaches 0 = true) ∧
    (∀ d ∈ [{ run .print with sys := { mode := .print, trans := some { dest := .hold, cause := 4, host := false } } }],
      d.live 1 = true ∧ d.frz = none ∧ d.mode ≠ .sleep ∧ d.atBoundary = true ∧ d.printing = true) ∧
    (∀ d ∈ [{ run .print with bars := (run .print).bars.set 3 { issued := [⟨⟨0, 0, 1⟩, 1, 1, 50, false, 0, false, 0, 0, 0⟩] } }], d.atBoundary = false) ∧
    (∀ d ∈ [{ run .idle with sys := { mode := .idle, trans := some { dest := .shutdown, cause := 0, host := true, stop := 6 } } }],
      d.live 1 = true ∧ d.sys.trans = some { dest := .shutdown, cause := 0, host := true, stop := 6 }) ∧
    (∀ d ∈ [{ (run .idle).set (F.ZXL_LANE_STATUS_STATE 3) 8 with sys := { mode := .idle, trans := some { dest := .calibrate, cause := 0, host := true, exits := true } } }],
      d.lowPowerAny = true ∧ d.atBoundary = true) ∧
    (∀ d ∈ [{ (run .idle).set F.DRC_STATUS_FC_BUSY 1 with sys := { mode := .idle, trans := some { dest := .ready, cause := 0, host := true, exits := true } } }],
      d.lowPowerAny = false ∧ d.atBoundary = true ∧ (d.checkMode .ready).2 ≠ 0) ∧
    (∀ d ∈ [run .idle], d.lowPowerAny = false ∧ (d.checkMode .calibrate).2 = 0) := by decide

theorem test_meets_ConfigurationCommits :
    (∀ d ∈ [run .print], d.reaches 0 = true ∧ d.modeIn [.idle, .calibrate] = false) ∧
    (∀ d ∈ [((run .idle).set F.VIS_STAT_CFG_ENC 1).set F.DEN_CFG_EN 1], d.modeIn [.idle, .calibrate] = true ∧ d.reaches 0 = true ∧
      d.conflict.isSome = true) ∧
    (∀ d ∈ [((run .idle).set (F.LTC_STB_CFG_EN 2) 1).set (F.LTC_STB_CFG_WDOG 2) 10], d.modeIn [.idle, .calibrate] = true ∧ d.conflict = none ∧
      d.wdogOutput = some 2) ∧
    (∀ d ∈ [run .idle], d.modeIn [.idle, .calibrate] = true ∧ d.conflict = none ∧ d.wdogOutput = none ∧ d.job.cfgWritten = []) ∧
    (∀ d ∈ [{ run .idle with job := { cfgWritten := [Reg.DEN_CFG] } }], d.conflict = none ∧ d.wdogOutput = none ∧
      d.job.cfgWritten = [Reg.DEN_CFG] ∧ isCfg Reg.DEN_CFG = true ∧ cmpCfgReg Reg.DEN_CFG = none ∧ Reg.DEN_CFG ≠ Reg.SCR_GAIN_BASE_LO) ∧
    (∀ d ∈ [{ run .idle with job := { cfgWait := true } }], d.live 1 = true ∧ d.job.cfgWait = true ∧ d.patternsAcked = true) ∧
    (run .idle).job.cfgWait = false := by decide

theorem test_meets_SettingsAreCapturedAndApplied :
    (∀ d ∈ [run .safe], d.reaches 0 = true ∧ d.mode ≠ .shadow ∧ d.modeIn [.idle, .ready, .print, .hold, .shuttle, .calibrate] = false) ∧
    (∀ d ∈ [{ run .print with job := { sets := List.replicate 8 aSet } }], d.modeIn [.print] = true ∧ 8 ≤ d.job.sets.length) ∧
    (∀ d ∈ [({ run .print with job := { written := [Reg.LTC_BAR_STROBE 1] } } : Dev).set (F.LTC_BAR_STROBE_WIDTH 1) 0], d.job.sets.length < 8 ∧ badWidth d.writtenFields = true) ∧
    (∀ d ∈ [(({ run .idle with job := { written := [Reg.LTC_BAR_STROBE 0] } } : Dev).set (F.LTC_BAR_STROBE_WIDTH 0) 2000).effSet (F.LTC_STB_CFG_EN 2) 1],
      badWidth d.writtenFields = false ∧ d.wdogBreach d.writtenFields = true) ∧
    (∀ d ∈ [{ run .idle with job := { written := [Reg.SCR_BAR_TOFS 1] } }], d.job.sets.length < 8 ∧ badWidth d.writtenFields = false ∧
      d.wdogBreach d.writtenFields = false ∧
      ∀ f ∈ d.writtenFields, f.1 ≠ Reg.LTC_PITCH ∧ touchesGain f.1 (d.newestWord f.1) f.2 = none) ∧
    (∀ d ∈ [run .idle], d.live 5 = true ∧ d.set? 4 = none) ∧
    (∀ d ∈ [{ run .print with job := { sets := [aSet] } }], d.live 5 = true ∧ d.set? 1 = some aSet ∧ d.setDue 0 aSet = false ∧
      ((d.bar 0).reach.any fun r => r.1 = 1) = false) ∧
    (∀ d ∈ [{ onBar (run .print) { scr := some ⟨0, 0, 5⟩, cur := some (0, 0) } with job := { sets := [aSet], entries := [anEntry] } }],
      d.set? 1 = some aSet ∧ d.setDue 0 aSet = true ∧ aSet.lines[(0 : Fin 12)] = some ⟨0, 0, 3⟩ ∧ d.idleBar 0 = true ∧ d.clockAt 0 ⟨0, 0, 3⟩ = false) ∧
    (∀ d ∈ [{ onBar (run .print) { count := 4 * 2 ^ 32, cur := some (0, 0) } with job := { sets := [aSet], entries := [anEntry] } }],
      d.setDue 0 aSet = true ∧ d.idleBar 0 = true ∧ d.clockAt 0 ⟨0, 0, 3⟩ = true) ∧
    (∀ d ∈ [({ onBar (run .print) { scr := some ⟨0, 0, 5⟩, cur := some (0, 0) } with job := { sets := [aSet], entries := [anEntry] } } : Dev).set (F.JOB_BAR_STATE_STATE 0) 1],
      d.set? 1 = some aSet ∧ d.setDue 0 aSet = true ∧ d.idleBar 0 = false) := by decide

theorem test_meets_Snapshots :
    (∀ d ∈ [run .idle], d.reaches 0 = true ∧ d.bit F.SYS_SNAP_PEND = false ∧ d.live 1 = true ∧ d.now < d.snap.autoAt + d.get F.SYS_SNAP_AUTO_PERIOD * 100000) ∧
    (∀ d ∈ [(run .idle).set F.SYS_SNAP_PEND 1], d.reaches 0 = true ∧ d.bit F.SYS_SNAP_PEND = true ∧ d.snapWaits = false ∧
      d.was = []) ∧
    (∀ d ∈ [({ run .idle with now := 300000 } : Dev).set F.SYS_SNAP_AUTO_PERIOD 3], d.get F.SYS_SNAP_AUTO_PERIOD ≠ 0 ∧
      d.snap.autoAt + d.get F.SYS_SNAP_AUTO_PERIOD * 100000 = d.now) := by decide

theorem test_meets_EventRing :
    (∀ d ∈ [{ run .idle with raised := [aRecord 0], evq := { q := List.replicate 55 (aRecord 0) } }], d.live 1 = true ∧ d.raised = [aRecord 0] ∧
      d.evq.q.length < 56) ∧
    (∀ d ∈ [{ run .idle with raised := [aRecord 3], evq := { q := List.replicate 63 (aRecord 0) } }], (aRecord 3).cls = 3 ∧ d.evq.q.length < 64) ∧
    (∀ d ∈ [{ run .idle with raised := [aRecord 0], evq := { q := List.replicate 56 (aRecord 0) } }], (aRecord 0).cls ≠ 3 ∧ 56 ≤ d.evq.q.length) ∧
    (∀ d ∈ [{ run .idle with raised := [aRecord 3], evq := { q := List.replicate 64 (aRecord 0) } }], 64 ≤ d.evq.q.length) ∧
    (∀ d ∈ [ringed { run .idle with evq := { q := [aRecord 0] } }], d.ringOpen = true ∧ d.evq.q = [aRecord 0] ∧ d.bit F.SYS_EVT_CFG_LOC = false ∧
      d.reaches 0 = true ∧ d.bit F.SYS_EVT_CFG_EN = true) ∧
    (∀ d ∈ [{ run .idle with evq := { sigAt := some 3, due := true }, now := 20003 }], d.evq.due = true ∧ 3 + d.get F.SYS_EVT_CFG_MOD * 1000 ≤ d.now) ∧
    (∀ d ∈ [run .idle], d.ringOpen = false ∧ d.evq.sigAt = none ∧ d.bit F.SYS_EVT_CFG_EN = false) ∧
    (⟨[.evtTailWrite 9], ringed { run .idle with evq := { q := [aRecord 0] } }⟩ : State).evtTail = some 9 ∧
    (∀ d ∈ [(ringed { run .idle with evq := { q := [aRecord 0] } }).set F.SYS_EVT_TAIL_INDEX 9], d.ringOpen = true) := by decide
theorem test_meets_PosHostWrites :
    (∀ d ∈ [run .idle], d.reaches 5 = true ∧ d.modeIn [.idle, .calibrate] = true ∧ d.modeIn [.idle, .ready, .calibrate] = true) ∧
    (∀ d ∈ [{ run .idle with now := 10 }], d.pos.incAt ≠ d.now) ∧
    (∀ d ∈ [{ run .idle with now := 10, pos := { incAt := 10, incs := [((FaultKind.ill.counter 2).reg, (FaultKind.ill.counter 2).lo, (FaultKind.ill.counter 2).w)] } }],
      d.reaches 5 = true ∧ d.pos.incAt = d.now ∧ FaultKind.ill.counter 2 ≠ FaultKind.jump.counter 2) ∧
    (∀ d ∈ [run .print], d.reaches 5 = true ∧ d.modeIn [.idle, .calibrate] = false) := by decide

theorem test_meets_CountsMoveTheWeb :
    (∀ d ∈ [enc .idle], d.pos.extrap = none ∧ d.src = 2 ∧ d.pos.setAt ≠ some d.now ∧ d.modeIn [.idle, .ready, .calibrate, .safe, .boot, .shutdown, .sleep] = true) ∧
    (∀ d ∈ [enc .print], d.src = 2 ∧ d.modeIn [.print, .hold] = true ∧ d.pos.markDesc = false ∧ d.backlash = 8 * d.scale ∧
      0 < d.pos.ahead (d.count 2 1).pos.web ∧ -(d.backlash : Int) = d.pos.ahead (d.count 2 (-8)).pos.web ∧
      d.pos.ahead (d.count 2 (-9)).pos.web < -(d.backlash : Int) ∧ -(d.backlash : Int) ≤ d.pos.ahead d.pos.web ∧ d.sys.trans = none) ∧
    (∀ d ∈ [{ enc .idle with now := 99990 }], d.now < d.pos.speedStart + speedWinNs d.pos.speedWin) ∧
    (∀ d ∈ [{ enc .idle with now := 100000000 }], d.pos.speedStart + speedWinNs d.pos.speedWin ≤ d.now) ∧
    (∀ d ∈ [{ enc .idle with pos := { setAt := some 1000000 } }], d.pos.setAt = some d.now) ∧
    (∀ d ∈ [enc .shuttle], d.mode = .shuttle ∧ 0 < d.pos.ahead (d.count 2 1).pos.web ∧ d.pos.ahead (d.count 2 (-9)).pos.web < -(d.backlash : Int)) := by
  decide

theorem test_meets_QuadratureEdges :
    (∀ d ∈ [enc .idle], d.live 10 = true ∧ d.isQuad 2 = true ∧ d.pos.ch[(2 : Fin 4)].a.acc = false ∧ d.pos.ch[(2 : Fin 4)].b.acc = false ∧
      d.get (F.POS_CH_CFG_MINSP 2) = 5 ∧ d.pos.ch[(2 : Fin 4)].a.at_ + 50 ≤ d.now ∧ d.chEn 2 = true ∧ d.get (F.POS_CH_CFG_MODE 2) ≠ 1 ∧
      d.pos.ch[(2 : Fin 4)].z.acc = false) ∧
    (∀ d ∈ [{ enc .idle with now := 49 }], d.isQuad 2 = true ∧ ¬ (d.pos.ch[(2 : Fin 4)].a.at_ + 5 * 10 ≤ d.now)) ∧
    (∀ d ∈ [(enc .idle).posCh 2 fun c => { c with a := { last := true }, b := { last := true } }], d.isQuad 2 = true ∧
      d.pos.ch[(2 : Fin 4)].a.last ≠ d.pos.ch[(2 : Fin 4)].a.acc ∧ d.pos.ch[(2 : Fin 4)].b.last ≠ d.pos.ch[(2 : Fin 4)].b.acc ∧
      d.pos.ch[(2 : Fin 4)].z.last = d.pos.ch[(2 : Fin 4)].z.acc) ∧
    (∀ d ∈ [(enc .idle).posCh 2 fun c => { c with b := { last := true }, z := { last := true } }], d.pos.ch[(2 : Fin 4)].a.last = d.pos.ch[(2 : Fin 4)].a.acc ∧
      d.pos.ch[(2 : Fin 4)].z.last ≠ d.pos.ch[(2 : Fin 4)].z.acc ∧ (st d).quadWaits 2 = false ∧ (⟨[.quadEdge 2 true true], d⟩ : State).quadWaits 2 = true ∧
      d.chRuns 2 = true) := by decide

theorem test_meets_IndexCaptures :
    (∀ d ∈ [enc .idle], d.bit (F.POS_CH_IDXCTL_EN 2) = false) ∧
    (∀ d ∈ [(enc .idle).set (F.POS_CH_IDXCTL_EN 2) 1], d.bit (F.POS_CH_IDXCTL_EN 2) = true ∧ d.pos.ch[(2 : Fin 4)].ref = none) ∧
    (∀ d ∈ [(((enc .idle).set (F.POS_CH_IDXCTL_EN 2) 1).set (F.POS_CH_IDXPER_PERIOD 2) 4000).posCh 2 fun c => { c with ref := some 0 }],
      d.pos.ch[(2 : Fin 4)].ref = some 0 ∧ d.get (F.POS_CH_IDXPER_PERIOD 2) ≠ 0 ∧ d.bit ⟨Reg.POS_IDX_REHOME, 2, 1⟩ = false ∧ d.src = 2) ∧
    (∀ d ∈ [((((enc .idle).set (F.POS_CH_IDXCTL_EN 2) 1).set (F.POS_CH_IDXPER_PERIOD 2) 4000).posCh 2 fun c => { c with ref := some 0 }).wr
        Reg.POS_IDX_REHOME 4], d.bit ⟨Reg.POS_IDX_REHOME, 2, 1⟩ = true) := by decide

theorem test_meets_SerialWords :
    (∀ d ∈ [enc .idle], d.live 10 = true ∧ d.isSsi 3 = true ∧ d.isSsi 2 = false ∧ d.pos.ch[(3 : Fin 4)].ssi = none ∧ d.pos.ch[(3 : Fin 4)].reqAt = none) ∧
    (∀ d ∈ [(enc .idle).posCh 3 fun c => { c with ssi := some ⟨1000000, none⟩, silent := 4, reqAt := some 990000 }],
      d.isSsi 3 = true ∧ d.pos.ch[(3 : Fin 4)].ssi = some ⟨1000000, none⟩ ∧ 1000000 ≤ d.now ∧ d.now ≤ 1000000 + d.ssiTimeoutNs 3 ∧ 4 ≤ d.pos.ch[(3 : Fin 4)].silent ∧
      990000 + d.ssiPeriodNs 3 ≤ d.now) ∧
    (∀ d ∈ [(enc .idle).posCh 3 fun c => { c with ssi := some ⟨0, none⟩, reqAt := some 1000000 }], 0 + d.ssiTimeoutNs 3 ≤ d.now ∧
      d.now < 1000000 + d.ssiPeriodNs 3 ∧ (st d).startWaits 3 = false) ∧
    (∀ d ∈ [(enc .idle).posCh 3 fun c => { c with ssi := some ⟨0, some 0⟩ }],
      d.pos.ch[(3 : Fin 4)].ssi = some ⟨0, some 0⟩ ∧ 0 + d.latency 3 ≤ d.now ∧ d.ssiCheck 3 9 0 = true ∧ d.pos.ch[(3 : Fin 4)].word = none) ∧
    (∀ d ∈ [(enc .idle).posCh 3 fun c => { c with ssi := some ⟨0, some 1000000⟩ }], d.now < 1000000 + d.latency 3) ∧
    (∀ d ∈ [((enc .idle).set (F.POS_CH_SSI_CHK_TYPE 3) 1).posCh 3 fun c => { c with ssi := some ⟨0, some 0⟩ }], d.ssiCheck 3 1 0 = false) ∧
    (∀ d ∈ [((enc .idle).set (F.POS_CH_SSI_MAXSTEP_STEP 3) 10).posCh 3 fun c => { c with ssi := some ⟨0, some 0⟩, word := some 0 }],
      d.ssiCheck 3 11 0 = true ∧ d.pos.ch[(3 : Fin 4)].word = some 0 ∧ d.get (F.POS_CH_SSI_MAXSTEP_STEP 3) ≠ 0 ∧
      d.get (F.POS_CH_SSI_MAXSTEP_STEP 3) < (halfRange (d.ssiBits 3) 11 0).natAbs ∧
      (halfRange (d.ssiBits 3) 10 0).natAbs ≤ d.get (F.POS_CH_SSI_MAXSTEP_STEP 3)) := by decide

theorem test_meets_WindowsEnd :
    (∀ d ∈ [run .idle], d.live 10 = true ∧ d.now < d.pos.speedStart + speedWinNs d.pos.speedWin ∧ d.now < d.pos.faultStart + faultWinNs d.pos.faultWin ∧
      d.chEn (chOf2 0) = false) ∧
    (∀ d ∈ [{ ana .idle with now := 100000000 }], d.pos.speedStart + speedWinNs d.pos.speedWin ≤ d.now ∧ d.chEn (chOf2 0) = true ∧
      d.pos.ch[chOf2 0].moved.natAbs * 1000000000 < 500000 * 4096 * (d.pos.speedStart + speedWinNs d.pos.speedWin - max d.pos.speedStart d.pos.ch[chOf2 0].since) ∧
      d.pos.faultStart + faultWinNs d.pos.faultWin = d.now) ∧
    (∀ d ∈ [(ana .idle).posCh 0 fun c => { c with moved := 10 ^ 12 }],
      500000 * 4096 * (d.pos.speedStart + speedWinNs d.pos.speedWin - max d.pos.speedStart d.pos.ch[chOf2 0].since) < d.pos.ch[chOf2 0].moved.natAbs * 1000000000) ∧
    (∀ d ∈ [(enc .print).wr Reg.POS_FLT_LIMIT 0x01010101], d.get FaultKind.ill.limit = 1 ∧ 1 ≤ (d.pos.ch[(2 : Fin 4)].win.bump .ill).group .ill ∧
      d.pos.ch[(2 : Fin 4)].win.raised = false ∧ d.src = 2 ∧ d.printing = true ∧ d.sys.trans = none) ∧
    (∀ d ∈ [(enc .print).wr Reg.POS_FLT_LIMIT 0x00000000], d.get FaultKind.ill.limit = 0) := by decide

theorem test_meets_TrimsOfAnalogChannels :
    (∀ d ∈ [ana .calibrate], d.reaches 5 = true ∧ d.mode = .calibrate ∧ d.pos.extrap = none ∧ d.src = chOf2 0 ∧ d.live 10 = true ∧ d.chRuns (chOf2 0) = true ∧
      d.pos.ch[chOf2 0].phase = none ∧ d.bit (F.POS_CH_STATUS_AMP_LOW (chOf2 0)) = false ∧ d.pos.meas[(0 : Fin 2)] = none ∧ d.chRuns (chOf2 0) = true ∧
      trimmed (d.rd (Reg.POS_TRIM_ACT 0)) 5000 0 ≠ (0, 0)) ∧
    (∀ d ∈ [(ana .print).set F.POS_STATUS_STABLE 1], d.reaches 5 = true ∧ d.mode = .print ∧ d.bit F.POS_STATUS_STABLE = true) ∧
    (∀ d ∈ [(ana .print).set F.POS_STATUS_STABLE 0], d.reaches 5 = true ∧ ¬ (d.mode = .calibrate ∨ d.mode = .print ∧ d.bit F.POS_STATUS_STABLE = true)) ∧
    (∀ d ∈ [{ ana .calibrate with pos := { meas := #v[some ⟨16777216, 9, some (Vector.replicate 4 (0, 0))⟩, none] } }], d.live 10 = true ∧
      d.pos.meas[(0 : Fin 2)] = some ⟨16777216, 9, some (Vector.replicate 4 (0, 0))⟩ ∧ (9 : Int).natAbs < 16777216) ∧
    (∀ d ∈ [{ ana .calibrate with pos := { meas := #v[some ⟨16777216, -16777216, some (Vector.replicate 4 (0, 0))⟩, none] } }],
      d.pos.meas[(0 : Fin 2)] = some ⟨16777216, -16777216, some (Vector.replicate 4 (0, 0))⟩ ∧ 16777216 = 4096 * 4096 ∧ 16777216 ≤ (-16777216 : Int).natAbs) ∧
    (∀ d ∈ [{ ana .calibrate with pos := { applying := #v[some 0, none], extrap := some { ch := 0, start := 0, speed := 0 } }, now := 10 }],
      d.pos.applying[(0 : Fin 2)] = some 0 ∧ d.pos.extrap = some { ch := 0, start := 0, speed := 0 } ∧ d.src = chOf2 0 ∧ d.mode = .calibrate ∧
      d.pos.turned = false ∧ d.pos.setAt ≠ some d.now) ∧
    (∀ d ∈ [(ana .idle).posCh 0 fun c => { c with phase := some 4095, low := 16 }], d.chRuns (chOf2 0) = true ∧ d.pos.ch[chOf2 0].phase = some 4095 ∧
      16 ≤ d.pos.ch[chOf2 0].low ∧ d.bit (F.POS_CH_STATUS_AMP_LOW (chOf2 0)) = false ∧ d.pos.applying[(0 : Fin 2)] = none ∧
      trimmed (d.rd (Reg.POS_TRIM_ACT 0)) 1 0 ≠ (0, 0)) ∧
    (∀ d ∈ [{ (ana .idle).posCh 0 fun c => { c with phase := some 0 } with pos := { applying := #v[some 0, none], ch := #v[{ phase := some 0 }, {}, {}, {}] } }],
      d.pos.applying[(0 : Fin 2)] ≠ none ∧ d.pos.ch[chOf2 0].phase = some 0) ∧
    (∀ d ∈ [((ana .idle).set (F.POS_CH_STATUS_AMP_LOW 0) 1).posCh 0 fun c => { c with phase := some 0 }],
      d.pos.ch[chOf2 0].phase = some 0 ∧ d.chRuns (chOf2 0) = true ∧ d.bit (F.POS_CH_STATUS_AMP_LOW (chOf2 0)) = true) ∧
    (run .idle).chRuns (chOf2 0) = false ∧
    ((3000 : Int) ^ 2 ≤ 3000 * 3000 + 0 * 0 ∧ (6500 : Int) * 6500 + 0 * 0 ≤ 6500 ^ 2 ∧ (2999 : Int) * 2999 + 0 * 0 < 3000 ^ 2) := by decide

theorem test_meets_LinesIssue :
    (∀ d ∈ [run .idle], d.live 10 = true ∧ d.dueLine 0 = none) ∧
    (∀ d ∈ [onLine .hold {}], (d.dueLine 0).map (·.1) = some ⟨0, 0, 5⟩ ∧ d.linesRun = false) ∧
    (∀ d ∈ [onLine .print { car := [⟨⟨0, 0, 5⟩, [], true, true, 0, 0, 0⟩], epWidth := 300 }], d.dueLine 0 = some (⟨0, 0, 5⟩, anEntry) ∧ (d.bar 0).issued = [] ∧ d.linesRun = true ∧
      d.reached 0 (d.kOf ⟨0, 0, 5⟩) = true ∧ d.gateOpen 0 ⟨0, 0, 5⟩ anEntry = true ∧ d.shuttling = false ∧ d.dpx.bars[(0 : Fin 12)].gap = none ∧
      d.mode = .print ∧ d.dual 0 = false ∧ (d.bar 0).skips = 0 ∧ (d.bar 0).tl = [] ∧ (d.bar 0).derAt = [] ∧
      (d.bar 0).epWidth = d.widthNow 0 ∧ d.buoyDue 0 = false ∧
      ((d.bar 0).car.find? fun t => t.pos = ⟨0, 0, 5⟩ && t.committed) = some ⟨⟨0, 0, 5⟩, [], true, true, 0, 0, 0⟩) ∧
    (∀ d ∈ [(onLine .shuttle {}).set F.LTC_SHU_MINSPD_SPEED 7], d.dueLine 0 = some (⟨0, 0, 5⟩, anEntry) ∧ d.linesRun = true ∧ d.shuttling = true ∧
      d.reached 0 (d.kOf ⟨0, 0, 5⟩) = true ∧ d.gateOpen 0 ⟨0, 0, 5⟩ anEntry = true ∧ d.get F.POS_SPEED_SPEED < d.get F.LTC_SHU_MINSPD_SPEED) ∧
    (∀ d ∈ [{ onLine .print {} with dpx := { bars := (onLine .print {}).dpx.bars.set 0 { gap := some 2000000 } } }], d.dueLine 0 = some (⟨0, 0, 5⟩, anEntry) ∧
      d.linesRun = true ∧ d.reached 0 (d.kOf ⟨0, 0, 5⟩) = true ∧ d.gateOpen 0 ⟨0, 0, 5⟩ anEntry = true ∧ d.dpx.bars[(0 : Fin 12)].gap = some 2000000 ∧
      d.now < 2000000) := by decide

theorem test_meets_LinesFire :
    (∀ d ∈ [onLine .print {}], d.live 10 = true ∧ (d.bar 0).issued = [] ∧ (d.bar 0).heldAt = none ∧ (d.bar 0).moved = false ∧ (d.bar 0).inc ≠ 0 ∧
      d.descending = false) ∧
    (∀ d ∈ [onLine .print { issued := [aLine false] }], ((d.bar 0).issued.find? fun i => !i.fired && decide (nearEdge i.fireAt ≤ d.now)) = some (aLine false) ∧
      d.mode ≠ .shadow ∧ ((d.bar 0).issued.find? fun x => x.fired) = none) ∧
    (∀ d ∈ [onLine .print { issued := [aLine true] }], ((d.bar 0).issued.find? fun i => i.fired && decide (i.endAt ≤ d.now)) = some (aLine true)) ∧
    (∀ d ∈ [onLine .print { heldAt := some 3 }], (d.bar 0).heldAt ≠ none ∧ d.toSafe = false ∧ d.bit ⟨Reg.LTC_STB_STATUS, 2, 1⟩ = false) ∧
    (∀ d ∈ [(run .idle).effSet (F.LTC_STB_CFG_EN 2) 1], (2 : Fin 8) ∈ d.stbOf 0) ∧ (run .safe).toSafe = true ∧
    (2 : Fin 8) ∈ [(2 : Fin 8)] := by decide

theorem test_meets_BuoysAndGatedLines :
    (∀ d ∈ [run .idle], d.live 10 = true ∧ d.clocksRun = false ∧ d.held 0 = false ∧ (d.bar 0).rowB = [] ∧ d.printing = false) ∧
    (∀ d ∈ [onLine .print { cross := true }], (st d).entryWaits = false ∧ d.boundaryDue 0 = false ∧ d.clocksRun = true ∧ d.buoyDue 0 = true ∧ d.curEntry 0 = some (anEntry, 0) ∧
      (d.encLine 0 anEntry 0).isSome = true ∧ d.printing = true ∧
      ((d.get F.LTC_REG_LIMIT : Int) * 2 ^ 26 < (2 ^ 60 : Int).natAbs)) ∧
    (∀ d ∈ [(onLine .print {}).set F.LTC_REG_ACTION 1], d.printing = true ∧ d.bit F.LTC_REG_ACTION = true ∧ d.sys.trans = none) ∧
    (∀ d ∈ [(onLine .print {}).set F.LTC_REG_ACTION 0], d.printing = true ∧ d.bit F.LTC_REG_ACTION = false) ∧
    (∀ d ∈ [{ onLine .print { heldAt := some 0 } with pos := {} }], (d.bar 0).heldAt = some 0 ∧ d.dueLine 0 = some (⟨0, 0, 5⟩, anEntry) ∧
      d.clocksRun = true ∧ d.held 0 = true ∧ 0 + 1000000 = d.now ∧ (d.bar 0).gatedEvt = false) ∧
    (∀ d ∈ [onLine .print { rowB := [⟨5, 0, 1004000⟩] }], (d.bar 0).rowB = [⟨5, 0, 1004000⟩] ∧ d.modeIn [.print, .shuttle, .hold] = true ∧
      1004000 ≤ d.now + 4000 ∧ d.gateAt 0 (d.get (F.LTC_BAR_PITCH_ACT_PITCH 0)) = true) := by decide

theorem test_meets_StrobeOutputsAndOffsets :
    (∀ d ∈ [run .idle], d.live 10 = true ∧ d.stb[(3 : Fin 8)].high = false ∧ d.reaches 6 = true ∧ d.modeIn [.idle, .calibrate] = true ∧ d.poolInUse 16383 = false ∧
      (4000000000#32).toNat ≤ 4000000000 ∧ 4000000000 < (4000000001#32).toNat) ∧
    (∀ d ∈ [{ run .print with stb := (run .print).stb.set 3 { high := true, rose := 0 }, now := 10000 }], d.stb[(3 : Fin 8)].high = true ∧
      d.stb[(3 : Fin 8)].rose + d.stbWdogNs 3 = d.now ∧ d.modeIn [.idle, .calibrate] = false) ∧
    (∀ d ∈ [((run .idle).set (F.LTC_CMP_CFG_MODE 1) 2).effSet (F.LTC_CMP_LIST_LEN 1) 1], d.reaches 6 = true ∧ d.poolInUse 0 = true) := by decide

theorem test_meets_CompareChannels :
    (∀ d ∈ [run .boot], d.live 10 = true ∧ d.cmpRuns = false ∧ d.cmp[(1 : Fin 32)].pulse = none) ∧
    (∀ d ∈ [run .idle], d.cmpRuns = true ∧ d.denDriven 1 = false ∧ d.lampDriven 1 = false ∧ d.cmpMode 1 = 0) ∧
    (∀ d ∈ [((run .idle).set (F.LTC_CMP_CFG_MODE 1) 1).effSet (F.LTC_CMP_LIST_LEN 1) 1], d.cmpRuns = true ∧ d.cmpMode 1 = 1 ∧
      d.cmpDue 1 (d.cmpX 1) = false) ∧
    (∀ d ∈ [{ ((((run .idle).set (F.LTC_CMP_CFG_MODE 1) 1).effSet (F.LTC_CMP_LIST_LEN 1) 1).set (F.LTC_CMP_STATUS_ARMED 1) 1).effWr
        (Reg.LTC_CMP_POOL_LO 0) 40 with pos := { web := 41 * 2 ^ 24 }, cmp := (run .idle).cmp.set 1 { x := 39 } }],
      d.cmpRuns = true ∧ d.denDriven 1 = false ∧ d.lampDriven 1 = false ∧ d.cmpMode 1 = 1 ∧ d.mode ≠ .shadow ∧ d.cmpTarget 1 = 0 ∧
      d.cmpDue 1 (d.cmpX 1) = true ∧ d.cmpNext 1 (d.get (F.LTC_CMP_PTR_PTR 1)) d.cmp[(1 : Fin 32)].pass = none) ∧
    (∀ d ∈ [{ run .idle with cmp := (run .idle).cmp.set 1 { pulse := some 7 }, now := 7 }], d.cmp[(1 : Fin 32)].pulse = some 7 ∧ 7 ≤ d.now) ∧
    (∀ d ∈ [{ run .idle with cmp := (run .idle).cmp.set 1 { pulse := some 7 }, now := 6 }], d.now < 7) := by decide
theorem test_meets_JobHostWrites :
    (∀ d ∈ [run .idle], d.reaches 7 = true ∧ d.mode = .idle ∧ d.mode ≠ .shadow ∧ (∀ b : Bar, (d.bar b).started = none) ∧ (st d).startsWaiting = []) ∧
    (∀ d ∈ [run .shadow], d.reaches 7 = true ∧ d.mode = .shadow) ∧
    (∀ d ∈ [onLine .print {}], d.reaches 7 = true ∧ d.mode ≠ .idle ∧ d.mode ≠ .shadow ∧ (d.bar 0).started = some (0, 0) ∧
      (∀ x : Bar, x ≠ 0 → (d.bar x).started = none) ∧ d.entry 0 = some anEntry ∧ anEntry.rep ≠ 0 ∧ anEntry.rep ≤ 0 + 1 ∧ (st d).startsWaiting = []) ∧
    (∀ d ∈ [onLine .print { scrFrom := some (0, 0) }], (⟨[.screenLine 0], d⟩ : State).startsWaiting = [(0, 0)]) ∧
    (∀ d ∈ [{ onLine .hold {} with job := { entries := [{ anEntry with rep := 0 }], final := some 0 } }], d.reaches 7 = true ∧ d.mode ≠ .shadow ∧
      (d.bar 0).started = some (0, 0) ∧ d.entry 0 = some { anEntry with rep := 0 } ∧ d.job.final.isSome = true ∧ d.printing = false) := by decide

/-- Ingest channel 1 enabled with a descriptor waiting. -/
def ingesting (d : Dev) : Dev := (((mem d).set (F.JOB_ING_CTL_EN 1) 1).set (F.JOB_ING_TAIL_INDEX 1) 1).set F.HST_STATUS_BME 1

theorem test_meets_IngestChannels :
    (∀ d ∈ [ingesting (run .idle)], [2, 4, 6, 7].all d.live = true ∧ d.live 2 = true ∧ d.ingestRuns = true ∧ d.bit (F.JOB_ING_CTL_EN 1) = true ∧
      d.bit (F.JOB_ING_STATUS_STOPPED 1) = false ∧ d.unitHeld 1 = false ∧ d.job.ing[(1 : Fin 4)].orphan = none ∧ d.job.ing[(1 : Fin 4)].desc = none ∧ d.bit F.HST_STATUS_BME = true ∧
      d.get (F.JOB_ING_HEAD_INDEX 1) % d.ingSize 1 ≠ d.get (F.JOB_ING_TAIL_INDEX 1) % d.ingSize 1 ∧
      (d.set (F.JOB_ING_STATUS_RUN 1) 1).ingError [0, 0, 0, 0, 64, 0, 0, 0] = 0 ∧ bits (ingWord [0, 0, 0, 0, 64, 0, 0, 0] 5) 28 2 = 0 ∧
      (d.set (F.JOB_ING_STATUS_RUN 1) 1).ingError [1, 0, 0, 0, 64, 0, 0, 0] ≠ 0) ∧
    (∀ d ∈ [{ ingesting (run .idle) with job := { ing := (run .idle).job.ing.set 1 { desc := some [0, 0, 0, 0, 64, 0, 0, 0], out := 64 } } }],
      d.job.ing[(1 : Fin 4)].desc = some [0, 0, 0, 0, 64, 0, 0, 0] ∧ d.job.ing[(1 : Fin 4)].bad = 0 ∧ d.job.ing[(1 : Fin 4)].orphan = none) ∧
    (∀ d ∈ [{ ingesting (run .idle) with job := { ing := (run .idle).job.ing.set 1 { orphan := some 0x40 } } }], d.job.ing[(1 : Fin 4)].orphan.isSome = true ∧
      d.job.ing[(1 : Fin 4)].desc = none) ∧
    (∀ d ∈ [{ ingesting (run .idle) with job := { ing := (run .idle).job.ing.set 1 { desc := some [1], orphan := some 0x40, bad := 5 } } }],
      d.job.ing[(1 : Fin 4)].desc = some [1] ∧ d.job.ing[(1 : Fin 4)].orphan.isSome = true) ∧
    (∀ d ∈ [{ ingesting (run .idle) with job := { ing := (run .idle).job.ing.set 1 { desc := some [1, 0, 0, 0, 64, 0, 0, 0], bad := 1 } } }],
      d.job.ing[(1 : Fin 4)].bad ≠ 0 ∧ d.job.ing[(1 : Fin 4)].bad < 8) ∧
    (∀ d ∈ [{ (ingesting (run .idle)).set (F.JOB_ING_CTL_TMO 1) 2 with
        now := 2000, job := { ing := (run .idle).job.ing.set 1 { desc := some [1, 0, 0, 0, 64, 0, 0, 0] } } }], d.job.ing[(1 : Fin 4)].desc.isSome = true ∧
      d.job.ing[(1 : Fin 4)].orphan = none ∧ .ingestDescriptorDone 1 ∉ (st d).pending ∧
      d.get (F.JOB_ING_CTL_TMO 1) ≠ 0 ∧ d.job.ing[(1 : Fin 4)].start + d.get (F.JOB_ING_CTL_TMO 1) * 1000 = d.now) := by decide

/-- A schedule of two entries, the second with an anchor. -/
def twoEntries (d : Dev) (pos : Nat) : Dev :=
  { d with job := { entries := [{ anEntry with last := false }, { anEntry with seq := 1, anchor := 1, j0 := some (pos * 256), desc := bitJob }], final := some 1 } }

theorem test_meets_ScheduleWalk :
    (∀ d ∈ [run .idle], d.live 4 = true ∧ d.live 5 = true ∧ d.fetchDue = false ∧ (st d).tailWaiting = none ∧ d.curEntry 0 = none ∧
      (⟨[.schedTailWrite 3], d⟩ : State).tailWaiting = some 3) ∧
    (∀ d ∈ [onLine .print {}], d.fetchDue = true ∧ d.job.entries.getLast? = some anEntry ∧ d.job.headSeq + d.schedLeft ≤ anEntry.seq + 1) ∧
    (∀ d ∈ [(stocked (onLine .print {})).set F.JOB_SCHED_TAIL_INDEX 2], d.fetchDue = true ∧ anEntry.seq + 1 < d.job.headSeq + d.schedLeft ∧
      (d.judge d.job.checked 1).isOk = true) ∧
    (∀ d ∈ [{ (stocked (onLine .print {})).set F.JOB_SCHED_TAIL_INDEX 2 with store := [] }], (d.judge d.job.checked 1).isOk = false) ∧
    (∀ d ∈ [twoEntries (onLine .print { limit := some 5 }) 10 ], d.live 5 = true ∧ (d.curEntry 0).map (·.2) = some 0 ∧ d.modeIn [.print, .shadow] = true ∧
      d.bit F.JOB_SCHED_CFG_MODE = false ∧ d.nextCopy 0 0 0 = some (1, 0) ∧ (d.entry 1).isSome = true ∧
      (∀ e ∈ d.entry 0, ∀ n ∈ d.entry 1, d.overlapped 0 e 0 (n, 0) = none ∧ d.copyOver 0 e 0 = true)) ∧
    (∀ d ∈ [twoEntries (onLine .print {}) 10000000 ], ∀ e ∈ d.entry 0, ∀ n ∈ d.entry 1, d.overlapped 0 e 0 (n, 0) = none ∧ d.copyOver 0 e 0 = false) ∧
    (∀ d ∈ [twoEntries (onLine .print { issued := [aLine false] }) 10 ], ∀ e ∈ d.entry 0, ∀ n ∈ d.entry 1, d.overlapped 0 e 0 (n, 0) = some 5 ∧
      (d.truncate 0 e 0 5).copyOver 0 e 0 = false) ∧
    (∀ d ∈ [{ onLine .print { limit := some 5 } with job := { entries := [anEntry], final := some 0 } }], d.nextCopy 0 0 0 = none ∧
      d.copyOver 0 anEntry 0 = true ∧ anEntry.has 0 0 = true) ∧
    (∀ d ∈ [{ onBar (run .print) { cur := some (0, 0), count := 99 * 2 ^ 32 } with
        job := { entries := [{ anEntry with desc := { aJob with planes := 2 } }], final := some 0 } }], ∀ e ∈ d.entry 0, d.nextCopy 0 0 0 = none ∧ d.copyOver 0 e 0 = true ∧ e.has 0 0 = false) := by decide +kernel

/-- Two source lines of 16 tones, four rows high, as a block row of ratio 0 in the job store. -/
def withRow (d : Dev) : Dev := d.storeData 0 (encRow 0 true true 16 4096 [List.range 16, List.range 16, List.replicate 16 9, List.replicate 16 0]).bytes

theorem test_meets_BlockRowsDecode :
    (∀ d ∈ [run .idle], [4, 5, 6, 7].all d.live = true ∧ d.screens = false) ∧
    (∀ d ∈ [withRow (mem (onLine .print { scrFrom := some (0, 0) }))], d.screens = true ∧ d.nextScr 0 = some ⟨0, 0, 0⟩ ∧ d.entry 0 = some anEntry ∧
      anEntry.desc.cls = 0 ∧ (d.rowsWanted 0 anEntry ⟨0, 0, 0⟩).contains 0 = true ∧ d.stagedRow 0 ⟨0, 0, 0⟩ 0 = none ∧
      (d.rowsWanted 0 anEntry ⟨0, 0, 0⟩).contains 9 = false ∧ anEntry.desc.plane 0 = 0 ∧ d.poison = [] ∧
      (decRow (d.bytes 0 64) 4096 16).isOk = true) ∧
    (∀ d ∈ [{ mem (onLine .print { scrFrom := some (0, 0) }) with poison := [0] }], d.nextScr 0 = some ⟨0, 0, 0⟩ ∧ d.poisonedIn 0 1 = true ∧
      d.poisonedIn 0 (max 1 (rowExtent (d.bytes 0 4096) 4096 (blocksOf 16) (blocksOf 16 + 1) 0 0)) = true) ∧
    (∀ d ∈ [mem (onLine .print { scrFrom := some (0, 0) })], d.nextScr 0 = some ⟨0, 0, 0⟩ ∧ (decRow (d.bytes 0 64) 4096 16).isOk = false) := by
  decide +kernel

theorem test_meets_RawRowsSurvive :
    (0 < 3 ∧ 3 ≤ 122880 ∧ maxRowBytes (blocksOf 3) 0 ≤ 64) ∧ (0 < 122880 ∧ maxRowBytes (blocksOf 122880) 0 ≤ 491552) ∧
    [List.range 3, [255, 0, 7], [0, 0, 0], [1, 1, 1]].length = 4 ∧
    (∀ l ∈ [List.range 3, [255, 0, 7], [0, 0, 0], [1, 1, 1]], l.length = 3 ∧ ∀ v ∈ l, v < 256) := by decide

theorem test_meets_ScreeningAndDensityArithmetic :
    ([5, 6] : List Nat)[0]? = some 5 ∧ 0 % 480 = 0 ∧ 11 < 12 ∧ 255 < 256 ∧ 2 ^ 32 - 1 < 2 ^ 32 ∧ (∀ q ∈ [3, 0, 2], q < 4) ∧ (100 ≤ 128 ∧ 128 ≤ 150) := by
  decide

theorem test_meets_ScreeningArray :
    (∀ d ∈ [run .idle], (d.halves 0).all d.live = true ∧ d.served = none ∧ (4 :: d.halves 0).all d.live = true ∧ d.screens = false) ∧
    (∀ d ∈ [off 7 (run .print)], (d.halves 0).all d.live = true) ∧
    (∀ d ∈ [{ onLine .print { scrFrom := some (0, 0) } with job := { entries := [{ anEntry with desc := bitJob }] } }], d.served = some (0, 2) ∧
      d.canScreen 0 = some ⟨0, 0, 0⟩ ∧ (d.entry 0).isSome = true) ∧
    (∀ d ∈ [onLine .print { scr := some ⟨0, 0, 4⟩, lastLine := some ⟨0, 0, 4⟩, paused := true, issued := [aLine false] }],
      d.served = some (0, 1) ∧ (d.bar 0).scr = some ⟨0, 0, 4⟩) ∧
    (∀ d ∈ [onLine .print { scr := some ⟨0, 0, 4⟩, replaying := true, replay := [⟨⟨0, 0, 3⟩, 3, none, ⟨1, 2, 3, 1, 1, 1, 1, 1, 0⟩, 0, 0, true, false⟩] }],
      d.served = some (0, 3) ∧ (d.bar 0).replay.length = 1) ∧
    (∀ d ∈ [(onLine .print { scrFrom := some (0, 0) }).effSet (F.SCR_BAR_CFG_GAIN_EN 0) 1], d.screens = true ∧ (d.bar 0).replaying = false ∧
      d.nextScr 0 = some ⟨0, 0, 0⟩ ∧ d.entry 0 = some anEntry ∧ d.gainNeeded 0 anEntry ⟨0, 0, 0⟩ = some 0 ∧ (d.bar 0).gain = none ∧ (d.bar 0).gainNext = []) ∧
    (∀ d ∈ [(onLine .print { scrFrom := some (0, 0), gain := some (0, []) }).effSet (F.SCR_BAR_CFG_GAIN_EN 0) 1],
      d.gainNeeded 0 anEntry ⟨0, 0, 0⟩ = some 0 ∧ (d.gainFor 0 ⟨0, 0, 0⟩).map (·.1) = some 0) ∧
    (∀ d ∈ [onLine .print { scrFrom := some (0, 0), gainNext := [(⟨0, 0, 7⟩, none)] }],
      ((d.bar 0).gainNext.find? fun x => x.2.isNone) = some (⟨0, 0, 7⟩, none) ∧ d.nextScr 0 = some ⟨0, 0, 0⟩) ∧
    (∀ d ∈ [(run .idle).set F.SCR_MAT_SEL_BAR 12], d.reaches 9 = true ∧ 12 ≤ d.get F.SCR_MAT_SEL_BAR) ∧
    (∀ d ∈ [(run .idle).set F.SCR_MAT_SEL_BAR 11], d.reaches 9 = true ∧ d.get F.SCR_MAT_SEL_BAR = 11 ∧ d.matBusy 11 (d.get F.SCR_MAT_SEL_MAT) = false) ∧
    (∀ d ∈ [run .print], d.reaches 9 = true ∧ d.get F.SCR_MAT_SEL_BAR = 0 ∧ d.matBusy 0 (d.get F.SCR_MAT_SEL_MAT) = true) := by
  and_intros <;> decide

theorem test_meets_CountersClear : ∀ b ∈ [2, 3, 8, 9, 10, 12, 13, 14, 15, 16, 17], (run .print).reaches b = true ∧ ((run .print).wr Reg.THM_PEAK 5).rd Reg.THM_PEAK ≠ Sparse.get resetWord (run .print).was Reg.THM_PEAK := by decide

theorem test_meets_NozzleCommands :
    (∀ d ∈ [run .shadow], d.reaches 10 = true ∧ d.mode = .shadow) ∧
    (∀ d ∈ [run .idle], d.reaches 10 = true ∧ d.mode ≠ .shadow ∧ d.outBusy 2 0 = false ∧ d.role ≠ 1 ∧ d.effGet (F.NOZ_BAR_CFG_OUT_BANK 2) = 0) ∧
    (∀ d ∈ [run .print], d.mode ≠ .shadow ∧ d.outBusy 2 0 = true ∧ d.outBusy 2 1 = false ∧ d.role ≠ 1 ∧ d.head 3 = none ∧ d.live 6 = true ∧
      d.now < d.noz.lastPersist + 1800000000000) ∧
    (∀ d ∈ [{ (run .print).set F.NOZ_CFG_OVT_REL 5 with noz := { heads := [aHead true 1] }, now := 5000000 }], d.head 3 = some (aHead true 1) ∧
      (aHead true 1).clearAt = some 0 ∧ d.get F.NOZ_CFG_OVT_REL ≠ 0 ∧ d.sendsMask = true ∧ 0 + d.get F.NOZ_CFG_OVT_REL * 1000000 = d.now ∧
      (aHead true 1).setsIn (st d).waiting.hot = false ∧ (aHead true 1).inhibit = true ∧ (aHead true 1).ovt = false ∧
      (aHead true 1).setsIn (⟨[.statusFrameReturn 0 0 true [0x8010000000000000]], d⟩ : State).waiting.hot = true ∧ d.prsQ = [] ∧ d.noz.heads = [] ++ aHead true 1 :: [] ∧ (aHead true 1).ctr ≠ (aHead true 1).saved ∧ (aHead true 1).savedAt = none) ∧
    (∀ d ∈ [{ (run .idle).set F.NOZ_HEAD_SEL_HEAD 3 with noz := { heads := [aHead false 0] }, now := 1800000000000 }], d.mode = .idle ∧
      d.head (d.get F.NOZ_HEAD_SEL_HEAD) = some (aHead false 0) ∧ d.noz.lastPersist + 1800000000000 = d.now ∧ (∀ x ∈ d.noz.heads, x.ctr = x.saved)) := by
  decide
/-- Lane 2 in a state, with what is given beside its registers. -/
def inLane (st : Nat) (l : LaneSt) (d : Dev) : Dev :=
  Dev.set { d with zxl := { d.zxl with lanes := d.zxl.lanes.set 2 l } } (F.ZXL_LANE_STATUS_STATE 2) st

/-- Chain 2 has one endpoint, 128, on bar 0. -/
def chained (d : Dev) : Dev := { d with image := some { bars := 1, nozzles := [16], eps := [⟨128, 0, 0, 0, 16⟩] } }

theorem test_meets_LaneBringUp :
    (∀ k ∈ [1, 2, 3, 4, 5, 6], ∀ d ∈ [inLane k {} (run .idle)], d.live (laneDom 2) = true ∧ d.laneSt 2 = k ∧ d.now < (d.lane 2).entered + 16384) ∧
    (∀ k ∈ [1, 2, 4, 5], ∀ d ∈ [{ inLane k {} (run .idle) with now := 10000000 }], d.laneSt 2 = k ∧ ¬ d.now < (d.lane 2).entered + 10000000) ∧
    (∀ d ∈ [{ (run .idle).set (F.ZXL_LANE_STATUS_STATE 17) 1 with now := 65536 }], d.live (laneDom 17) = true ∧ d.laneSt 17 = 1 ∧ 16 ≤ (17 : Lane).val ∧
      ¬ d.now < (d.lane 17).entered + 65536) ∧
    (∀ d ∈ [(inLane 2 {} (run .idle)).wr (Reg.ZXL_LANE_CFG 2) 0x80#32], d.get (F.ZXL_LANE_STATUS_ENDPOINTS 2) ≠ 4 ∧
      (0 : Nat) = d.get (F.ZXL_LANE_STATUS_ENDPOINTS 2)) ∧
    (∀ d ∈ [((inLane 2 {} (run .idle)).set (F.ZXL_LANE_CFG_EP_EXPECT 2) 4).set (F.ZXL_LANE_STATUS_ENDPOINTS 2) 4],
      4 = d.get (F.ZXL_LANE_STATUS_ENDPOINTS 2) ∧ 4 = d.get (F.ZXL_LANE_CFG_EP_EXPECT 2)) ∧
    (∀ d ∈ [(inLane 3 {} (run .idle)).set (F.ZXL_LANE_CFG_VER_MIN 2) 2], d.laneSt 2 = 3 ∧
      1 < d.get (F.ZXL_LANE_CFG_VER_MIN 2) ∧ d.get (F.ZXL_LANE_CFG_VER_MIN 2) ≤ 2 ∧
      ((0xC : Fin 16).val.testBit 3 = true ∧ 3 ≤ (d.lane 2).rateMax ∧ 3 ≤ (d.lane 2).cap) ∧
      (∀ r ∈ [1, 2, 3], ¬ ((0 : Fin 16).val.testBit r = true))) ∧
    (∀ d ∈ [(inLane 4 {} (run .idle)).set (F.ZXL_LANE_EQ_MODE 2) 2], d.laneSt 2 = 4 ∧ d.get (F.ZXL_LANE_EQ_MODE 2) = 2) ∧
    (∀ d ∈ [(inLane 4 {} (run .idle)).set (F.ZXL_LANE_EQ_MODE 2) 1], d.laneSt 2 = 4 ∧ d.get (F.ZXL_LANE_EQ_MODE 2) ≠ 2) ∧
    (∀ d ∈ [{ inLane 5 { entered := 100 } (run .idle) with now := 12000099 }], d.now < (d.lane 2).entered + laneLimit 5) ∧
    (∀ d ∈ [{ inLane 5 { entered := 100 } (run .idle) with now := 12000100 }], d.laneSt 2 = 5 ∧ ¬ d.now < (d.lane 2).entered + laneLimit 5 ∧
      [].any (Instr.endsState d 2) = false ∧ [Instr.alignPassed 2 0].any (Instr.endsState d 2) = true) ∧
    (∀ d ∈ [inLane 4 {} ((run .idle).set F.ZXL_CFG_RETRIES 2)], ¬ max 1 (d.get F.ZXL_CFG_RETRIES) ≤ (d.lane 2).fails + 1) ∧
    (∀ d ∈ [inLane 4 { fails := 1 } ((run .idle).set F.ZXL_CFG_RETRIES 2)], max 1 (d.get F.ZXL_CFG_RETRIES) ≤ (d.lane 2).fails + 1) := by and_intros <;> decide

theorem test_meets_LaneUpkeep :
    (∀ k ∈ [0, 6, 7, 8, 9, 11], ∀ d ∈ [{ inLane k {} (run .idle) with now := 10 }], d.live (laneDom 2) = true ∧ d.laneSt 2 = k ∧ (d.lane 2).exit = none ∧
      (d.lane 2).margin = none ∧ d.reaches 11 = true ∧ d.modeIn [.idle, .calibrate] = true ∧ d.mode = .idle ∧ d.sys.trans = none ∧
      (st d).waiting.losses = [] ∧ (d.lane 2).entered ≠ d.now ∧ d.unitHeld 0x32 = false ∧ [].any (Instr.endsState d 2) = false) ∧
    (∀ d ∈ [inLane 6 {} (run .idle)], (2 : Lane) ∈ (⟨[.lockLoss 2 16], d⟩ : State).waiting.losses ∧ (⟨[.modeRequest 7], d⟩ : State).waiting.leaves = true ∧
      (st d).waiting.leaves = false) ∧
    (∀ d ∈ [{ inLane 7 { entered := 100 } (run .idle) with now := 100099 }], d.now < (d.lane 2).entered + 100000) ∧
    (∀ d ∈ [{ inLane 7 { entered := 100 } (run .idle) with now := 1000099 }], d.laneSt 2 = 7 ∧ (d.lane 2).dark = false ∧ d.now < (d.lane 2).entered + 1000000 ∧
      (d.lane 2).entered + 100000 ≤ d.now ∧ [Instr.recoverDone 2].any (Instr.endsState d 2) = true) ∧
    (∀ d ∈ [{ inLane 7 { entered := 100 } (run .idle) with now := 1000101 }], (d.lane 2).entered + 1000000 < d.now) ∧
    (∀ d ∈ [{ inLane 7 { entered := 100, dark := true } (run .idle) with now := 2000099 }], (d.lane 2).dark = true ∧ d.now < (d.lane 2).entered + 2000000) ∧
    (∀ d ∈ [{ inLane 7 { entered := 100, dark := true } (run .idle) with now := 2000100 }], (d.lane 2).dark = true ∧ (d.lane 2).entered + 2000000 ≤ d.now) ∧
    (∀ d ∈ [{ (inLane 6 { margin := some 5 } (run .idle)).set (F.ZXL_LANE_EQ_MODE 2) 0 with now := 50000005 }], d.laneSt 2 = 6 ∧
      d.get (F.ZXL_LANE_EQ_MODE 2) = 0 ∧ (d.lane 2).margin = some 5 ∧ 5 + 50000000 ≤ d.now ∧ (d.lane 2).modeAt ≠ some d.now ∧
      (d.lane 2).lmsAt + blocksTime (d.get (F.ZXL_LANE_STATUS_RATE 2)) ≤ d.now ∧ [].any (writesEq 2) = false) ∧
    (∀ d ∈ [{ inLane 6 { margin := some 5 } (run .idle) with now := 50000004 }], d.now < 5 + 50000000) ∧
    (∀ d ∈ [(inLane 6 {} (run .idle)).set (F.ZXL_LANE_EQ_MODE 2) 2], d.get (F.ZXL_LANE_EQ_MODE 2) = 2) ∧
    (∀ d ∈ [{ inLane 9 { exit := some 100 } (run .idle) with now := 2000101 }], (d.lane 2).exit = some 100 ∧ d.laneSt 2 = 9 ∧ 100 + 2000000 < d.now) ∧
    (∀ d ∈ [{ inLane 9 { exit := some 100 } (run .idle) with now := 2000100 }], (d.lane 2).exit = some 100 ∧ 100 + 160000 ≤ d.now ∧ d.now ≤ 100 + 2000000) ∧
    (∀ d ∈ [{ inLane 9 { exit := some 100 } (run .idle) with now := 160099 }], d.now < 100 + 160000) ∧
    (∀ d ∈ [{ ((inLane 6 {} (run .idle)).set (F.ZXL_LANE_STATUS_LPM_OK 2) 1).set F.ZXL_LPM_L1_MS 3 with now := 3000000 }],
      d.get F.ZXL_LPM_L1_MS ≠ 0 ∧ d.mode = .idle ∧ d.sys.trans = none ∧ d.laneSt 2 = 6 ∧ (d.get (F.ZXL_LANE_STATUS_LPM_OK 2)).testBit 0 = true ∧
      d.laneTraffic 2 = false ∧ (d.lane 2).idleAt + d.get F.ZXL_LPM_L1_MS * 1000000 ≤ d.now ∧ (d.get (F.ZXL_LANE_STATUS_LPM_OK 2)).testBit 1 = false) ∧
    (∀ d ∈ [{ ((inLane 8 {} (run .idle)).set (F.ZXL_LANE_STATUS_LPM_OK 2) 2).set F.ZXL_LPM_L2_S 1 with now := 1000000000 }],
      d.get F.ZXL_LPM_L2_S ≠ 0 ∧ d.mode = .idle ∧ d.laneSt 2 = 8 ∧ (d.lane 2).exit = none ∧
      (d.get (F.ZXL_LANE_STATUS_LPM_OK 2)).testBit 1 = true ∧ (d.lane 2).entered + d.get F.ZXL_LPM_L2_S * 1000000000 ≤ d.now) ∧
    (∀ d ∈ [(inLane 6 { waitQ := [⟨0, [128], 0, 0, .dmark 2⟩] } (run .idle)).set (F.ZXL_LANE_STATUS_LPM_OK 2) 3], d.mode = .idle ∧ d.sys.trans = none ∧
      (∀ k ∈ [false, true], (d.get (F.ZXL_LANE_STATUS_LPM_OK 2)).testBit k.toNat = true) ∧ d.laneSt 2 = 6 ∧ d.laneTraffic 2 = true) ∧
    (∀ d ∈ [inLane 8 { exit := some 1 } (run .idle)], d.reaches 11 = true ∧ d.laneSt 2 = 8 ∧ (d.lane 2).exit.isSome = true) ∧
    (∀ d ∈ [{ inLane 6 {} (run .idle) with boot := { srcs := [⟨8, 0, some 0x32, none⟩] } }], d.unitHeld (0x30 + (2 : Lane).val) = true) ∧
    (∀ d ∈ [inLane 6 {} (run .print)], d.reaches 11 = true ∧ d.modeIn [.idle, .calibrate] = false) := by and_intros <;> decide

/-- Lane 2 carries the positions of bar 0. -/
def carrying (d : Dev) : Dev := (d.wr (Reg.ZXL_LANE_PIECE_FIRST 2 0) 0x80000000#32).set (F.ZXL_LANE_PIECE_COUNT_COUNT 2 0) 16

theorem test_meets_ZixlinkFrames :
    (∀ d ∈ [inLane 6 {} (carrying (onLine .print { car := [⟨⟨0, 0, 5⟩, [1, 2, 3], true, false, 0, 0, 0⟩] }))], d.live 8 = true ∧ d.modeIn [.ready, .hold, .print, .shuttle] = true ∧
      d.unsent 0 = some ⟨⟨0, 0, 5⟩, [1, 2, 3], true, false, 0, 0, 0⟩ ∧ (∀ y : Bar, y ≠ 0 → d.sendsBefore y 0 = false) ∧ d.lanesOf 0 = [2] ∧ d.active 2 = true ∧
      d.unsent 1 = none) ∧
    (∀ d ∈ [{ inLane 6 { beacAt := 100, statAt := some 100, statStart := some 100, statOld := some (3, 50, 50100) } (run .print) with now := 50099 }],
      d.live (laneDom 2) = true ∧ d.now < (d.lane 2).beacAt + d.beaconGap (d.lane 2).beacAt ∧ d.active 3 = false ∧ (d.lane 2).statStart = some 100 ∧
      d.now < 100 + 50000 ∧ (d.lane 2).statOld = some (3, 50, 50100) ∧ d.now ≤ 50100) ∧
    (∀ d ∈ [{ inLane 6 { beacAt := 100, statAt := some 100, statStart := some 100, statOld := some (3, 50, 50100) } (run .print) with now := 100101 }],
      d.live (laneDom 2) = true ∧ d.active 2 = true ∧ (d.lane 2).beacAt + d.beaconGap (d.lane 2).beacAt ≤ d.now ∧ d.sendsStatus = true ∧
      (d.lane 2).statStart = some 100 ∧ 100 + 50000 ≤ d.now ∧ (d.lane 2).statAt = some 100 ∧ (d.lane 2).statOld = some (3, 50, 50100) ∧ 50100 < d.now) ∧
    (run .sleep).sendsStatus = false ∧
    (∀ d ∈ [inLane 6 { statAt := some 100 } (run .print)], (d.lane 2).statOld = none ∧ (d.lane 2).statAt = some 100 ∧ (d.lane 2).statSeq ≠ 9) ∧
    (∀ d ∈ [{ run .print with now := 999999 }], d.live 8 = true ∧ d.now < d.zxl.winAt + 1000000) ∧
    (∀ d ∈ [{ run .print with now := 1000000 }], d.zxl.winAt + 1000000 ≤ d.now ∧ (st d).returnWaits = false ∧
      (⟨[.statusFrameReturn 2 0 true []], d⟩ : State).returnWaits = true ∧ ∀ c : Fin 7, d.zxl.win[c] = 0 ∧ d.zxl.prevWin[c] = 0) ∧
    (∀ d ∈ [(run .print).set F.ZXL_FSEL_CLASS 6], d.reaches 11 = true ∧ d.get F.ZXL_FSEL_CLASS < 7) ∧
    (∀ d ∈ [(run .print).set F.ZXL_FSEL_CLASS 7], d.reaches 11 = true ∧ 7 ≤ d.get F.ZXL_FSEL_CLASS) := by and_intros <;> decide

/-- A command to endpoint 128 in flight, sent at 100 under tag 9. -/
def aCmd (op tries : Nat) (waiting : Bool) : Ecmd :=
  { lane := 2, ep := 128, op := op, reg := 5, data := 77, at_ := 100, tries := tries, waiting := waiting, tag := 9 }

/-- The host's command in flight, the time-out 20 µs. -/
def asked (d : Dev) (op tries : Nat) (waiting : Bool) : Dev :=
  Dev.set { d with zxl := { d.zxl with ecmd := some (aCmd op tries waiting) } } F.ZXL_PCFG_CMD_TMO 2

theorem test_meets_EndpointCommands :
    (∀ d ∈ [inLane 6 {} (run .idle)], d.reaches 11 = true ∧ d.zxl.ecmd = none ∧ d.zxl.cmds = [] ∧ d.mode ≠ .shadow ∧
      d.laneSt (laneOf ((128 : Fin 1024).val / 64)) = 6 ∧ d.sendsCmd = true ∧ d.live 8 = true ∧ d.live (laneDom 2) = true) ∧
    (∀ d ∈ [run .shadow], d.reaches 11 = true ∧ d.mode = .shadow ∧ d.sendsCmd = false) ∧
    (∀ d ∈ [asked (inLane 6 {} (run .idle)) 1 0 false], d.reaches 11 = true ∧ d.live (laneDom 2) = true ∧ d.zxl.ecmd = some (aCmd 1 0 false) ∧
      (aCmd 1 0 false).lane = (2 : Lane).val ∧ (aCmd 1 0 false).tag = (9 : Fin 256).val ∧ (aCmd 1 0 false).waiting = false ∧
      d.now < 100 + d.get F.ZXL_PCFG_CMD_TMO * 10000) ∧
    (∀ k ∈ [2, 3], ∀ d ∈ [{ asked (inLane 6 {} (run .idle)) 2 k false with now := 20100 }], d.zxl.ecmd = some (aCmd 2 k false) ∧ d.zxl.cmds = [] ∧
      (aCmd 2 k false).at_ + d.get F.ZXL_PCFG_CMD_TMO * 10000 ≤ d.now ∧ (st d).pending = []) ∧
    (∀ d ∈ [{ (run .idle).set F.ZXL_PCFG_CMD_TMO 2 with zxl := { cmds := [aCmd 2 0 true, aCmd 2 3 false] }, now := 20100 }], d.zxl.ecmd = none ∧
      d.zxl.cmds = [aCmd 2 0 true] ++ aCmd 2 3 false :: [] ∧ (aCmd 2 0 true).waiting = true ∧ (aCmd 2 3 false).at_ + d.get F.ZXL_PCFG_CMD_TMO * 10000 ≤ d.now) ∧
    (∀ k ∈ [0, 8], ∀ d ∈ [inLane k {} (run .idle)], d.zxl.ecmd = none ∧ d.laneSt (laneOf ((128 : Fin 1024).val / 64)) = k) := by and_intros <;> decide

/-- A change of bar 0's mode fields, sent at 100 with target line 70. -/
def aChange (acked : List Nat) (aborting : Bool) : Mchg :=
  { vals := 0#32, l := 70, epoch := 1, at_ := 100, acked := acked, commit := true, aborting := aborting, set_ := 0 }

def changing (d : Dev) (m : Mchg) : Dev := { d with zxl := { d.zxl with mchg := d.zxl.mchg.set 0 (some m) } }

theorem test_meets_PushesDelaysAndModeChanges :
    (∀ d ∈ [{ inLane 6 { pushes := [⟨0, [128], 100, 2, .mask 2 0 5 0 []⟩] } (chained (run .print)) with now := 1000099 }], d.live (laneDom 2) = true ∧
      ∀ p ∈ (d.lane 2).pushes, d.now < p.at_ + 1000000) ∧
    (∀ k ∈ [2, 3], ∀ d ∈ [{ inLane 6 { pushes := [⟨0, [128], 100, k, .mask 2 0 5 0 []⟩, ⟨1, [128], 200, 0, .mask 2 0 5 1 []⟩] } (chained (run .print)) with now := 1000100 }],
      (d.lane 2).pushes = [] ++ ⟨0, [128], 100, k, .mask 2 0 5 0 []⟩ :: [⟨1, [128], 200, 0, .mask 2 0 5 1 []⟩] ∧
      (∀ q ∈ [] ++ [(⟨1, [128], 200, 0, .mask 2 0 5 1 []⟩ : Push)], d.now < q.at_ + 1000000 ∧ q.seq ≠ 0) ∧ 100 + 1000000 ≤ d.now ∧
      ([] ++ [(⟨1, [128], 200, 0, .mask 2 0 5 1 []⟩ : Push)]).length < 127) ∧
    (∀ d ∈ [{ inLane 6 { dmeas := some 100 } (chained (run .idle)) with now := 630100 }], (d.lane 2).dmeas = some 100 ∧ 100 + 630000 ≤ d.now ∧
      d.active 2 = true ∧ d.mode ≠ .boot ∧ (d.lane 3).dmeas = none ∧ d.reaches 11 = true ∧ d.modeIn [.idle, .calibrate] = true ∧ d.epsOn 2 ≠ []) ∧
    (∀ d ∈ [{ inLane 6 { dmeas := some 100 } (chained (run .print)) with now := 630099 }], (d.lane 2).dmeas = some 100 ∧ d.now < 100 + 630000 ∧
      d.reaches 11 = true ∧ d.modeIn [.idle, .calibrate] = false) ∧
    (∀ d ∈ [{ (changing (chained (run .idle)) (aChange [] false)).set F.ZXL_PCFG_DEADLINE 1 with now := 1000100 }], d.live 8 = true ∧ d.mchg 0 = some (aChange [] false) ∧
      d.mchg 1 = none ∧ (aChange [] false).prepared = true ∧ d.modeAcked 0 (aChange [] false) = false ∧ 100 + d.mchgDeadline * 1000000 ≤ d.now ∧ (st d).pending = []) ∧
    (∀ d ∈ [{ changing (chained (run .idle)) (aChange [128] false) with now := 1000100 }], d.modeAcked 0 (aChange [128] false) = true) ∧
    (∀ d ∈ [{ changing (chained (run .idle)) (aChange [] true) with now := 1000100 }], d.mchg 0 = some (aChange [] true) ∧ 100 + 1000000 ≤ d.now) ∧
    (∀ d ∈ [{ changing (chained (onLine .print {})) { aChange [] true with commit := false, l := 7000 } with now := 100 }], d.issues 0 = true ∧
      d.mchg 0 = some { aChange [] true with commit := false, l := 7000 } ∧ ¬ 7000 ≤ d.get (F.ZXL_BAR_WIRE_COUNT 0) + d.mchgGuard) ∧
    (∀ d ∈ [{ chained (run .idle) with zxl := { inh := [⟨128, 3, 90, none⟩, ⟨128, 2, 100, none⟩] }, now := 10000100 }], d.live 8 = true ∧
      d.inhOf (128 : Fin 1024) false = some ⟨128, 2, 100, none⟩ ∧ d.epImg (128 : Fin 1024) = some ⟨128, 0, 0, 0, 16⟩ ∧ d.sendsCmd = true ∧
      100 + 10000000 ≤ d.now ∧ d.inhOf (129 : Fin 1024) false = none) ∧
    (∀ d ∈ [{ chained (run .idle) with zxl := { inh := [⟨128, 2, 100, none⟩] }, now := 10000099 }], d.now < 100 + 10000000) := by and_intros <;> decide

/-- Port p on, with what it holds. -/
def cam (m : Mode) (p : Port) (x : VisPort) : Dev :=
  let d := (run m).effSet (F.VIS_CAM_CFG_EN p) 1
  { d with vis := { d.vis with ports := d.vis.ports.set p x }, now := 1000 }

/-- A frame in progress. -/
def aFrame (p : Port) (slot : Option Nat) : VFrame := { port := p, num := 4, tag := 0, start := 500, web := 0, time := {}, slot := slot }

theorem test_meets_CameraFrames :
    (∀ d ∈ [run .idle], [11, 6, 7].all d.live = true ∧ d.portOn 0 = false ∧ (d.port 0).frame = none ∧ (d.port 0).ended = none ∧ (d.port 0).line = none) ∧
    (∀ d ∈ [(cam .idle 0 {}).effSet (F.VIS_CAM_CFG_FSTART 0) 1], d.effBit (F.VIS_CAM_CFG_FSTART 0) = true ∧ (d.port 0).trig = false ∧
      [11, 6, 7].all d.live = true) ∧
    (∀ d ∈ [cam .idle 0 {}], d.portOn 0 = true ∧ d.effBit (F.VIS_CAM_CFG_FSTART 0) = false ∧ (d.port 0).frame = none ∧ (d.port 0).sets = []) ∧
    (∀ d ∈ [cam .idle 2 { slots := [0] }], d.portOn 2 = true ∧ d.effBit (F.VIS_CAM_CFG_FSTART 2) = false ∧ (d.port 2).frame = none ∧
      (d.port 2).sets = [] ∧ ((List.range (d.slotCount 2)).find? fun i => !(d.port 2).slots.contains i) = some 1) ∧
    (∀ d ∈ [cam .idle 2 { slots := [0, 1] }], d.portOn 2 = true ∧ ((List.range (d.slotCount 2)).find? fun i => !(d.port 2).slots.contains i) = none) ∧
    (∀ d ∈ [(cam .idle 2 { frame := some (aFrame 2 none) }).set (F.VIS_CAM_FRAMING_LINES 2) 1], (d.port 2).frame = some (aFrame 2 none) ∧
      (aFrame 2 none).lines.length < d.frameLines 2 ∧ d.effBit (F.VIS_CAM_CFG_FSTART 2) = false) ∧
    (∀ d ∈ [((cam .idle 2 { frame := some (aFrame 2 none) }).set (F.VIS_CAM_FRAMING_LINES 2) 1).effSet (F.VIS_CAM_CFG_FSTART 2) 1],
      (aFrame 2 none).lines.length < d.frameLines 2 ∧ d.effBit (F.VIS_CAM_CFG_FSTART 2) = true) ∧
    (∀ d ∈ [(cam .idle 2 { frame := some { aFrame 2 none with lines := [{ web := 0, time := {} }] } }).set (F.VIS_CAM_FRAMING_LINES 2) 1],
      d.portOn 2 = true ∧ d.frameLines 2 ≤ 1) ∧
    (∀ d ∈ [cam .idle 2 { frame := some (aFrame 2 none), line := some { web := 0, time := {} } }], d.portOn 2 = true ∧
      (d.port 2).line = some { web := 0, time := {} } ∧ d.effBit (F.VIS_CAM_CFG_CRC_EN 2) = false ∧ (aFrame 2 none).lineByLine 2 = false ∧
      (∀ x ∈ [5, 255], x < 2 ^ ((aFrame 2 none).pixFmt 2).nbits)) ∧
    (∀ d ∈ [(cam .idle 2 { tmoFrom := some 100, exp := some 1000 }).set (F.VIS_CAM_FRAMING_TMO 2) 1], d.live 11 = true ∧
      (d.port 2).tmoFrom = some 100 ∧ d.now < 100 + d.get (F.VIS_CAM_FRAMING_TMO 2) * 10000 ∧ (d.port 2).exp = some 1000 ∧ 1000 ≤ d.now) ∧
    (∀ d ∈ [{ (cam .idle 2 { tmoFrom := some 100, exp := some 20000 }).set (F.VIS_CAM_FRAMING_TMO 2) 1 with now := 10100 }], d.portOn 2 = true ∧
      d.get (F.VIS_CAM_FRAMING_TMO 2) ≠ 0 ∧ .frameStart 2 ∉ (st d).pending ∧ d.startsFrame 2 = true ∧ d.shareZ 3 = false ∧ 100 + d.get (F.VIS_CAM_FRAMING_TMO 2) * 10000 ≤ d.now ∧ d.now < 20000) ∧
    (∀ d ∈ [cam .idle 2 {}], (d.port 2).exp = none ∧ (d.port 2).tmoFrom = none) := by and_intros <;> decide

/-- A set whose sensor list of one entry is being sent. -/
def listing (wide : Option Bool) : VisSet := { seq := 1, fields := [], reached := true, list := some [0x81000000], wide := wide, at_ := 5 }

theorem test_meets_CameraControlAndTables :
    (∀ d ∈ [cam .idle 2 {}], d.reaches 12 = true ∧ (d.port 2).i2c = none ∧ (d.port 2).sets = [] ∧ d.live 11 = true ∧ d.listNow 2 = none ∧
      [11, 4, 6, 7].all d.live = true ∧ d.vis.m2m = none ∧ d.vis.waiting = []) ∧
    (∀ k ∈ [none, some true], ∀ d ∈ [cam .idle 2 { sets := [listing k] }], (d.port 2).i2c = none ∧ d.listNow 2 = some (listing k) ∧ bits 0x81000000 31 1 = 1 ∧
      (listing k).list = some [0x81000000] ∧ d.i2cBusy 2 = false) ∧
    (∀ k ∈ [false, true], ∀ d ∈ [cam .idle 2 { i2c := some ⟨true, 1, 2, 3, k⟩ }], (d.port 2).i2c = some ⟨true, 1, 2, 3, k⟩ ∧ d.listNow 2 = none ∧
      d.shareZ 3 = false ∧ d.i2cBusy 2 = k) ∧
    (∀ d ∈ [{ run .idle with vis := { waiting := [aFrame 2 (some 0), { aFrame 3 (some 1) with start := 600 }] } }], d.vis.m2m = none ∧ d.visRuns = true ∧
      d.vis.waiting = aFrame 2 (some 0) :: [{ aFrame 3 (some 1) with start := 600 }] ∧
      ∀ x ∈ [{ aFrame 3 (some 1) with start := 600 }], (aFrame 2 (some 0)).start < x.start) ∧
    (∀ d ∈ [{ run .idle with vis := { m2m := some (aFrame 2 (some 0)) } }], d.vis.m2m = some (aFrame 2 (some 0)) ∧ (aFrame 2 (some 0)).slot = some 0 ∧
      (aFrame 2 (some 0)).port < 4) ∧
    visMask 1 1025 = 0 ∧ visMask 1 1024 ≠ 0 ∧
    (∀ d ∈ [(run .idle).set F.VIS_TAB_SEL_TABLE 1], d.reaches 12 = true ∧ d.modeIn [.idle, .calibrate] = true) ∧
    (∀ d ∈ [(run .print).set F.VIS_TAB_SEL_TABLE 1], d.reaches 12 = true ∧ d.modeIn [.idle, .calibrate] = false) ∧
    (∀ d ∈ [(run .print).set F.VIS_TAB_SEL_TABLE 5], d.bankSelected (Fin.ofNat 4 (d.get F.VIS_TAB_SEL_UNIT)) (5 - 4) = false) := by and_intros <;> decide

/-- A band of bar 0 that is over, and an update of its bar. -/
def aBand (done : Bool) (bad : Nat) : DenBand := { seq := 0, copy := 0, bar := 0, y0 := 0, h := 1, skip := 0, minl := 1, pitch := 1, done := done, bad := bad }

def anUpd (gains : Option (List Nat)) (host : Bool) : DenUpd := { bar := 0, y0 := 0, pitch := 5418667, gains := gains, tofs := some 3, dT := 3, host := host, since := 100 }

/-- The density loop on, with what it holds. -/
def den (m : Mode) (x : DenSt) : Dev := { (run m).effSet F.DEN_CFG_EN 1 with den := x, now := 1000 }

theorem test_meets_DensityLoop :
    (∀ d ∈ [den .idle {}], d.reaches 13 = true ∧ d.bit (F.DEN_BAR_STATUS_PREV_VALID 0) = false ∧ [11, 6, 7].all d.live = true ∧ d.den.bands = [] ∧
      [11, 4, 6, 7].all d.live = true ∧ d.den.upds = []) ∧
    (∀ d ∈ [(den .safe {}).set (F.DEN_BAR_STATUS_PREV_VALID 0) 1], d.bit (F.DEN_BAR_STATUS_PREV_VALID 0) = true ∧
      d.modeIn [.idle, .ready, .print, .hold, .shuttle, .calibrate] = false) ∧
    (∀ d ∈ [{ (den .idle {}).set (F.DEN_BAR_STATUS_PREV_VALID 0) 1 with job := { sets := List.replicate 8 aSet } }],
      d.bit (F.DEN_BAR_STATUS_PREV_VALID 0) = true ∧ d.modeIn [.idle, .ready, .print, .hold, .shuttle, .calibrate] = true ∧ 8 ≤ d.job.sets.length) ∧
    (∀ d ∈ [{ (den .idle {}).set (F.DEN_BAR_STATUS_PREV_VALID 0) 1 with job := { sets := List.replicate 7 aSet } }], d.job.sets.length < 8 ∧
      ∀ u ∈ d.den.upds, u.bar ≠ (0 : Bar).val) ∧
    (∀ d ∈ [den .print { bands := [aBand true 8] }], d.den.bands = aBand true 8 :: [] ∧ d.denOn = true ∧ (aBand true 8).done = true ∧ (aBand true 8).bad ≠ 0) ∧
    (∀ d ∈ [den .idle { bands := [aBand true 0] }], d.denOn = true ∧ d.modeIn [.print, .hold] = false) ∧
    (∀ d ∈ [den .print { bands := [aBand false 0] }], d.den.bands = aBand false 0 :: []) ∧
    (∀ d ∈ [{ (den .print { upds := [anUpd (some []) false] }) with now := 10000100 }], d.live 11 = true ∧ d.den.upds = anUpd (some []) false :: [] ∧
      d.gainBusy 0 (d.otherBank 0) = false) ∧
    (∀ d ∈ [{ onLine .print { tl := [(⟨0, 0, 0⟩, Reg.SCR_BAR_CFG 0, (F.SCR_BAR_CFG_GAIN_BANK 0).into 0 1, 1)], cur := some (0, 0), lastLine := some ⟨0, 0, 4⟩ } with
        den := { upds := [anUpd (some []) false] }, now := 10000100 }],
      d.gainBusy 0 (d.otherBank 0) = true ∧ 100 + 10000000 ≤ d.now ∧ d.mode = .print ∧ d.bit (F.DEN_BAR_STATUS_PAUSED 0) = false) ∧
    (∀ d ∈ [den .hold { upds := [anUpd none false] }], [11, 4, 6, 7].all d.live = true ∧ d.den.upds = anUpd none false :: [] ∧ d.mode ≠ .print) ∧
    (∀ d ∈ [den .print { upds := [anUpd none true] }], d.mode = .print ∧ (anUpd none true).host = true) ∧
    (∀ d ∈ [(den .print { upds := [anUpd none false] }).set (F.DEN_BAR_STATUS_PREV_VALID 0) 1], d.restoreWhy 0 = 0 ∧
      (0 : Bar) ∈ [Instr.denRestore 0].filterMap Instr.restores ∧ (0 : Bar) ∉ (st d).pending.filterMap Instr.restores ∧ (st d).pending.any Instr.pulsesSet = false ∧
      (anUpd none false).host = false ∧ d.den.setAt ≠ some d.now) ∧
    (∀ d ∈ [(den .print { upds := [anUpd none false] }).set (F.DEN_BAR_STATUS_PAUSED 0) 1], d.bit (F.DEN_BAR_STATUS_PAUSED 0) = true) ∧
    (∀ d ∈ [{ den .print { upds := [anUpd none false] } with job := { sets := List.replicate 8 aSet } }], d.bit (F.DEN_BAR_STATUS_PAUSED 0) = false ∧
      ((anUpd none false).gains.isSome && d.gainBusy 0 (d.otherBank 0)) = false ∧ 8 ≤ d.job.sets.length) ∧
    (∀ d ∈ [den .print { upds := [anUpd none false] }], d.bit (F.DEN_BAR_STATUS_PAUSED 0) = false ∧ d.job.sets.length < 8) := by and_intros <;> decide

/-- Lamp module 3 enabled, with what it and the block hold. -/
def lamp (m : Mode) (x : LampMod) (l : LmpSt) : Dev :=
  let d := (((run m).effSet F.LMP_CFG_EN 1).effSet F.LMP_CFG_MODS 8).effSet (F.LMP_MOD_CFG_SEGS 3) 1
  { d with lmp := { l with mods := l.mods.set 3 x }, now := 1000000000 }

theorem test_meets_Lamps :
    (∀ d ∈ [run .idle], d.live 10 = true ∧ d.busDriven = false ∧ d.reaches 14 = true ∧ d.lmpen = false ∧ d.lmp.secAt + 1000000000 > d.now ∧
      (∀ m : Fin 16, (d.rd (Reg.LMP_MOD_HOURS m)).toNat = (d.lampMod m).saved)) ∧
    (∀ d ∈ [lamp .idle { staged := some [0] } {}], d.busDriven = true ∧ d.lmp.sets = [] ∧ d.lampDiff = []) ∧
    (∀ d ∈ [lamp .idle {} {}], d.busDriven = true ∧ d.role ≠ 1 ∧ d.lmp.sets = [] ∧ d.lampDiff ≠ [] ∧ d.lmp.due = none) ∧
    (∀ d ∈ [lamp .idle { staged := some [0] } { due := some 999999000, late := true }], d.lmp.due = some 999999000 ∧ d.busDriven = true ∧ d.lampStaged = true ∧
      d.lmp.respEnd ≤ d.now ∧ d.lmp.late = true ∧ d.lmp.lateAt = none) ∧
    (∀ d ∈ [lamp .idle { staged := some [0] } { due := some 1000000000 }], d.lampStaged = true ∧ d.lmp.respEnd ≤ d.now ∧ d.lmp.late = false) ∧
    (∀ d ∈ [(((lamp .print {} {}).effSet (F.LMP_MOD_CTL_MODE 3) 1).effSet (F.LMP_MOD_CFG_BAR 3) 0).wr Reg.LMP_COV_STEP 1000#32], d.mode = .print ∧
      d.busDriven = true ∧ d.covMods = [3] ∧ d.rd Reg.LMP_COV_STEP ≠ 0 ∧ d.covDue 3 (d.tickAt d.lmp.tick) = 0) ∧
    (∀ d ∈ [lamp .idle {} { pollAt := some 999900000 }], d.lmp.pollAt = some 999900000 ∧ d.now < 999900000 + max 250 (d.effGet F.LMP_BUS_POLL) * 1000) ∧
    (∀ d ∈ [lamp .idle {} { pollAt := some 0 }], d.busDriven = true ∧ 0 + max 250 (d.effGet F.LMP_BUS_POLL) * 1000 ≤ d.now ∧ (2 : Fin 16) ∉ d.lampsOn ∧
      (3 : Fin 16) ∈ d.lampsOn ∧ d.lmp.ask = none) ∧
    (∀ c ∈ [3, 4], ∀ d ∈ [lamp .idle {} { ask := some (3, c, 0) }], d.busDriven = true ∧ d.lmp.ask = some ((3 : Fin 16).val, c, 0) ∧
      0 + d.effGet F.LMP_BUS_RSP_TMO * 100 ≤ d.now ∧ d.lampLost 3 = false ∧ d.mode ≠ .boot ∧ (st d).pending = []) ∧
    (∀ d ∈ [(lamp .idle { miss := 1 } {}).effSet F.LMP_BUS_MISS 2], max 1 (d.effGet F.LMP_BUS_MISS) ≤ (d.lampMod 3).miss + 1) ∧
    (∀ d ∈ [((lamp .idle {} {}).effSet F.LMP_BUS_MISS 2).set (F.LMP_MOD_STATUS_STATE 3) 2],
      ¬ max 1 (d.effGet F.LMP_BUS_MISS) ≤ (d.lampMod 3).miss + 1 ∧ d.lampLost 3 = true) ∧
    (∀ d ∈ [(lamp .idle {} { ask := some (3, 3, 1000000000) }).effSet F.LMP_BUS_RSP_TMO 1], d.now < 1000000000 + d.effGet F.LMP_BUS_RSP_TMO * 100) ∧
    (∀ d ∈ [lamp .idle {} { queue := [⟨3, 3, []⟩], respEnd := 1000000000 }], d.busDriven = true ∧ d.lmp.sending = none ∧ d.lmp.ask = none ∧
      d.lmp.respEnd ≤ d.now ∧ d.lmp.restAt ≤ d.now ∧ d.lmp.breakEnd ≤ d.now ∧ d.lmp.due = none ∧ d.lmp.queue = ⟨3, 3, []⟩ :: []) ∧
    (∀ k ∈ [2, 5], ∀ d ∈ [lamp .idle {} { sending := some (⟨3, 3, []⟩, k, 1000000000) }], d.busDriven = true ∧
      d.lmp.sending = some (⟨3, 3, []⟩, k, 1000000000) ∧ 1000000000 ≤ d.now) ∧ 2 + 1 < ([] : List Nat).length + 6 ∧ ([] : List Nat).length + 6 ≤ 5 + 1 ∧
    (∀ d ∈ [lamp .idle {} { due := some 5, respEnd := 1000000001 }], d.now < d.lmp.respEnd) ∧
    (∀ d ∈ [lamp .idle { lit := [0x80010001] } {}], d.lmp.secAt + 1000000000 ≤ d.now ∧ d.lmpen = true ∧ (3 : Fin 16) ∈ d.lampsOn ∧
      (d.lampMod 3).lit.any lampLit = true) ∧
    (∀ d ∈ [(run .idle).set F.LMP_PNL_CFG_EN 1], d.lmp.rowNext ≤ d.now ∧ (d.bit F.LMP_PNL_CFG_EN && decide (2 ≤ d.mode.code) && decide (d.mode.code ≤ 9)) = true) ∧
    (∀ d ∈ [(run .idle).wr (Reg.LMP_MOD_HOURS 3) 7#32], d.reaches 14 = true ∧ (d.rd (Reg.LMP_MOD_HOURS 3)).toNat ≠ (d.lampMod 3).saved ∧
      ∀ n : Fin 16, n ≠ 3 → (d.rd (Reg.LMP_MOD_HOURS n)).toNat = (d.lampMod n).saved) := by and_intros <;> decide

/-- A request that waits. -/
def aReq (who : Client) : MemReq := { who := who, u := 2, act := false, e := .clean }

theorem test_meets_MemoryTraffic :
    (∀ d ∈ [(run .idle).effSet F.DRC_SCRUB_EN 0], d.live 4 = true ∧ d.memServes = false ∧ d.memTakes = false ∧ d.effBit F.DRC_SCRUB_EN = false) ∧
    (∀ d ∈ [mem (run .idle)], d.memTakes = true ∧ d.memServes = true ∧ 0xFFC0 + [(1 : BitVec 8), 2].length ≤ d.cap ∧ 0xFFC0 % 64 + 2 ≤ 64 ∧ 1023 * 64 < d.cap ∧
      d.cap ≤ 1024 * 64 ∧ d.poison.contains 1023 = false ∧ d.effGet F.DRC_SPARE_CE_LIMIT = 0 ∧ d.spareOf 0 ≠ 2 ∧ isMgmt .scrub = false ∧
      d.drc.ch[(3 : Fin 4)].wrote ≠ some (1023, d.now)) ∧
    (∀ d ∈ [((mem (run .idle)).effSet F.DRC_SPARE_UE_LIMIT 3).set (F.DRC_DI_STATE_SPARE 0) 1], d.poison.contains 8 = false ∧ d.spareOf (8 % 4 / 2) = 1 ∧
      d.drc.ueRank[ifaceOf 8] + 1 < max 1 (d.effGet F.DRC_SPARE_UE_LIMIT)) ∧
    (∀ d ∈ [{ mem (run .idle) with poison := [7] }], d.poison.contains 7 = true) ∧
    (∀ d ∈ [(mem (run .idle)).set (F.DRC_DI_STATE_SPARE 0) 1], max 1 (d.effGet F.DRC_SPARE_UE_LIMIT) ≤ d.drc.ueRank[ifaceOf 8] + 1 ∧ d.spareOf (8 % 4 / 2) = 1) ∧
    (∀ d ∈ [(mem (run .idle)).effSet F.DRC_SCRUB_EN 1], d.memServes = true ∧ d.effBit F.DRC_SCRUB_EN = true ∧ d.cap / 64 ≠ 0 ∧
      d.drc.scrubFrom + d.drc.scrubAt * (max 1 (d.effGet F.DRC_SCRUB_HOURS) * 3600000000000) / (d.cap / 64) ≤ d.now ∧
      d.drc.ch[chanOf d.drc.scrubAt].wrote ≠ some (d.drc.scrubAt, d.now)) ∧
    (∀ d ∈ [((mem (run .idle)).set (F.DRC_DI_STATE_SPARE 1) 2).wr (Reg.DRC_DI_MIG 1) 6#32], d.spareOf (1 : Fin 2) = 2 ∧ d.memServes = true ∧
      d.drc.migLeft[(1 : Fin 2)] = 0 ∧ (d.rd (Reg.DRC_DI_MIG 1)).toNat % 8 = 6 ∧ 8 / 8 * 7 + 8 % 8 < d.chanData) ∧
    (∀ d ∈ [((mem (run .idle)).set (F.DRC_DI_STATE_SPARE 1) 2).wr (Reg.DRC_DI_MIG 1) 291#32], d.spareOf (1 : Fin 2) = 2 ∧
      d.chanData ≤ 292 / 8 * 7 + 292 % 8) ∧
    (∀ c ∈ [Client.bar 0, .schedule, .scrub], ∀ d ∈ [{ (mem (run .idle)).set F.JOB_RT_RES_MBPS 32000 with
        drc := { ch := (run .idle).drc.ch.set 2 { waiting := [aReq c] } } }],
      d.pick 2 0 = some (aReq c) ∧ d.rtWithin 2 0 = true ∧ d.mgmtWithin 0 = true ∧ d.bankFree (d.rowOf 2).1 (d.rowOf 2).2.1 0 = true) := by
  and_intros <;> decide

theorem test_meets_MemoryTraffic_idle : ∀ k : Fin 4, (mem (run .idle)).memIdle k := by
  unfold Dev.memIdle
  decide

/-- Channel-rank 5 as given. -/
def chan (c : ChanRank) (d : Dev) : Dev := { d with drc := { d.drc with cr := d.drc.cr.set 5 c } }

theorem test_meets_MemoryUpkeep :
    (∀ d ∈ [run .idle], d.live 4 = true ∧ d.memServes = false ∧ d.memTakes = false ∧ d.bit F.DRC_STATUS_FC_BUSY = false) ∧
    (∀ d ∈ [{ chan { debt := 1 } ((mem (run .idle)).set F.DRC_REF_POSTPONE 2) with now := 100000000 }], d.memServes = true ∧ d.hasRank 4 = true ∧ d.hasRank 5 = false ∧
      (d.chRank 4).dueAt + d.refreshNs (d.chRank 4).cls ≤ d.now ∧ d.rtWaits 4 = false ∧ d.canRefresh 4 d.now = true ∧ (d.chRank 4).must = 0 ∧
      d.now < d.now + d.timing.rfc ∧ (d.chRank 4).polledAt + max 1 (d.get F.DRC_TEMP_POLL) * 1000000 ≤ d.now ∧
      d.drc.fcAt = none ∧ (d.chRank 0).driftEvt = false ∧ d.get F.DRC_TRACK_LIMIT < max 3 100000 ∧ d.drc.wckAt + 100000000 ≤ d.now) ∧
    (∀ d ∈ [{ chan { debt := 1, cls := 1 } (((mem (run .idle)).set F.DRC_REF_POSTPONE 2).set F.DRC_CFG_RANKS 2) with now := 1000 }], d.hasRank 5 = true ∧
      d.now < (d.chRank 5).polledAt + max 1 (d.get F.DRC_TEMP_POLL) * 1000000 ∧ d.now < (d.chRank 5).winAt + trackNs (d.chRank 5).cls) ∧
    (∀ d ∈ [{ chan { debt := 1, refAt := some 100000000 } (((mem (run .idle)).set F.DRC_REF_POSTPONE 2).set F.DRC_CFG_RANKS 2) with now := 100000000 }],
      d.memServes = true ∧ d.hasRank 5 = true ∧ (d.chRank 5).dueAt + d.refreshNs (d.chRank 5).cls ≤ d.now ∧ d.canRefresh 5 d.now = false ∧
      (d.chRank 5).pay = none ∧ (d.chRank 5).debt < d.debtLimit (d.chRank 5).cls) ∧
    (∀ d ∈ [{ chan { debt := 2, refAt := some 100000000, cls := 2, cool := some 1, pay := some ⟨100000000, true, 3, 2⟩ }
        (((mem (run .idle)).set F.DRC_REF_POSTPONE 2).set F.DRC_CFG_RANKS 2) with now := 100000000 }], d.debtLimit (d.chRank 5).cls ≤ (d.chRank 5).debt ∧
      (d.chRank 5).pay = some ⟨d.now, true, 3, 2⟩ ∧ d.memTakes = true ∧ (d.chRank 5).polledAt + max 1 (d.get F.DRC_TEMP_POLL) * 1000000 ≤ d.now ∧
      1 < (d.chRank 5).cls ∧ (d.chRank 5).cool = some 1 ∧ (d.chRank 5).cool ≠ some 0 ∧ (d.chRank 5).winAt + trackNs (d.chRank 5).cls ≤ d.now) ∧
    (∀ d ∈ [chan { pay := some ⟨0, false, 1, 2⟩ } (run .idle)], (d.chRank 5).pay = some ⟨0, false, 1, 2⟩ ∧ (d.chRank 5).must = 0 ∧ (d.chRank 5).refAt = none) ∧
    (∀ d ∈ [chan { debt := 5 } ((mem (run .idle)).set F.DRC_REF_POSTPONE 8)], d.debtLimit (1 : Fin 4).val < (d.chRank 5).debt ∧ (d.chRank 5).cls < (1 : Fin 4).val ∧
      d.debtLimit (1 : Fin 4).val ≥ (d.chRank 4).debt) ∧
    (∀ d ∈ [{ (mem (run .idle)).set F.DRC_STATUS_FC_BUSY 1 with drc := { fcAt := some 0 }, now := 11000 }], d.bit F.DRC_STATUS_FC_BUSY = true ∧
      d.drc.fcAt = some 0 ∧ 0 + 11000 ≤ d.now ∧ 0 + 1000 ≤ d.now ∧ (∀ i : Fin 8, (d.chRank i).late = none) ∧
      d.printing = false ∧ d.memTakes = true ∧ d.mode ≠ .boot) ∧
    (∀ d ∈ [mem (run .print)], d.reaches 15 = true ∧ d.printing = true ∧ d.modeIn [.idle, .calibrate] = false ∧ d.mode ≠ .idle) ∧
    (∀ d ∈ [{ (mem (run .idle)).set F.JOB_BUDGET_RATE 100000 with job := { checked := [{ aJob with width := 16384000000 }] } }],
      d.bit F.DRC_STATUS_FC_BUSY = false ∧
      (d.set F.JOB_RT_RES_MBPS (min (d.effGet F.DRC_RT_RES) 16000)).overBudget d.job.checked = true) ∧
    (∀ d ∈ [(mem (run .idle)).set F.DRC_STATUS_OP1_ONLY 1], d.bit F.DRC_STATUS_OP1_ONLY = true) ∧
    (∀ d ∈ [(mem (run .idle)).set F.DRC_STATUS_OP 1], d.get F.DRC_STATUS_OP = true.toNat ∧ d.get F.DRC_STATUS_OP ≠ false.toNat ∧
      (d.set F.JOB_RT_RES_MBPS (min (d.effGet F.DRC_RT_RES) 16000)).overBudget d.job.checked = false ∧ d.bit F.DRC_STATUS_OP1_ONLY = false) ∧
    (∀ k ∈ [0, 1, 2, 3], ∀ d ∈ [(mem (run .idle)).set (F.DRC_DI_STATE_SPARE 1) k], d.reaches 15 = true ∧ d.mode = .idle ∧ d.spareOf (1 : Fin 2) = k ∧
      d.drc.noSpare[(1 : Fin 2)] = false) := by and_intros <;> decide
/-- A member of a duplex pair in a role and a sync state, MIR0 up. -/
def paired (m : Mode) (role state : Nat) : Dev :=
  (((run m).effSet F.DPX_CFG_ROLE role).set (F.ZXL_LANE_STATUS_STATE 16) 6).set F.DPX_STATUS_STATE state

def aPos (web : Nat) : PosRec := { web := web, sec := 0, ns := 0, speed := 0, counts := [], ptrs := [], epochs := [], denLast := 0 }

theorem test_meets_PairRecords :
    (∀ d ∈ [run .print], d.live 8 = true ∧ d.role ≠ 1 ∧ d.mirrorsUp = [] ∧ d.mode ≠ .shadow) ∧
    (∀ d ∈ [{ paired .print 1 4 with dpx := { hbTx := some 100, posTx := some 100 }, now := 100099 }], d.dpx.hbTx = some 100 ∧ d.now < 100 + 100000 ∧
      d.dpx.posTx = some 100 ∧ d.now < 100 + 1000000 ∧ d.role = 1) ∧
    (∀ d ∈ [{ paired .print 1 4 with dpx := { hbTx := some 100, posTx := some 100 }, now := 1000100 }], d.role = 1 ∧ 100 + 100000 ≤ d.now ∧
      100 + 1000000 ≤ d.now ∧ d.mirrorsUp ≠ [] ∧ d.dpx.seen.contains 5 = false) ∧
    (∀ d ∈ [paired .shadow 2 2], d.live 8 = true ∧ d.mirrorsUp ≠ [] ∧ d.dpx.seen.contains 5 = false ∧ d.role = 2 ∧ d.mode = .shadow ∧
      d.get F.DPX_STATUS_STATE = 2 ∧ (d.dpx.bars[(0 : Bar)].own.find? fun o => o.1 = 7) = none) ∧
    (∀ d ∈ [{ paired .shadow 2 2 with dpx := { seen := [5], bars := (run .idle).dpx.bars.set 0 { own := [(7, 9)] } } }],
      d.dpx.seen.contains 5 = true ∧ (d.dpx.bars[(0 : Bar)].own.find? fun o => o.1 = 7) = some (7, 9)) ∧
    (∀ d ∈ [(paired .shadow 2 2).wr Reg.DPX_POS_TOL 5], d.dpx.divAt = none ∧
      (webDiff (((d.web : Int) - d.speedI * d.sinceNs 0 0 / 1000000000) % (webMod : Int)).toNat (aPos 5).web).natAbs ≤ (d.rd Reg.DPX_POS_TOL).toNat ∧
      (d.rd Reg.DPX_POS_TOL).toNat < (webDiff (((d.web : Int) - d.speedI * d.sinceNs 0 0 / 1000000000) % (webMod : Int)).toNat (aPos 6).web).natAbs) ∧
    (∀ d ∈ [paired .shadow 2 1], d.mode = .shadow ∧ d.get F.DPX_STATUS_STATE = 1) := by and_intros <;> decide

/-- A digest that is the device's own, and one that is not. -/
theorem test_meets_PairRecords_digests (d : Dev) (r : SyncRec) :
    ({ r with digest := d.cfgDigest } : SyncRec).digest = d.cfgDigest ∧ ({ r with digest := d.cfgDigest + 1 } : SyncRec).digest ≠ d.cfgDigest :=
  ⟨rfl, Nat.succ_ne_self _⟩

/-- A shadow that may take over. -/
def ready (d : Dev) : Dev := d.set F.DPX_STATUS_PMODE 4

/-- A late comparison of bar 0. -/
def compared (d : Dev) : Dev := { d with dpx := { d.dpx with bars := d.dpx.bars.set 0 { mism := [(5, 6, 7)] } } }

theorem test_meets_TakeOvers :
    (∀ d ∈ [ready (paired .shadow 2 2)], d.reaches 16 = true ∧ (st d).takeCause = none ∧ (st d).heartbeatWaits = false ∧ (st d).lossWaits = false ∧ d.takeBlock = 0 ∧ d.scheduledBars.all d.guarded = true ∧ d.live 8 = true) ∧
    (∀ d ∈ [{ ready (paired .shadow 2 2) with job := { entries := [anEntry] } }], d.takeBlock = 0 ∧ d.scheduledBars.all d.guarded = false) ∧
    (∀ d ∈ [run .idle], d.takeBlock ≠ 0 ∧ d.reaches 16 = true ∧ d.mode = .idle ∧ d.dpx.syncAt = none ∧ d.dpx.held = [] ∧ d.dpx.recs = [] ∧
      d.dpx.bars[(0 : Bar)].mism = []) ∧
    (∀ d ∈ [run .print], d.reaches 16 = true ∧ d.mode ≠ .idle) ∧
    (∀ x ∈ [(4, 0, 0), (4, 0xFFFF, 3), (5, 0, 1)],
      ∀ d ∈ [{ (((paired .shadow 2 2).set F.DPX_STATUS_PMODE x.1).set F.DPX_CLAIM_PARTNER x.2.1).effSet F.DPX_CFG_HB_TAKE 1 with
        dpx := { hbAt := some 100 }, now := 310100 }],
      d.dpx.hbAt = some 100 ∧ 100 + 310000 ≤ d.now ∧ d.mode = .shadow ∧ d.dpx.lost = false ∧ d.effBit F.DPX_CFG_HB_TAKE = true ∧ d.takeBlock = x.2.2) ∧
    (∀ d ∈ [{ paired .shadow 2 1 with dpx := { syncAt := some 100 }, now := 100000100 }], d.dpx.syncAt = some 100 ∧ d.mode = .shadow ∧
      d.get F.DPX_STATUS_STATE = 1 ∧ 100 + 100000000 ≤ d.now) ∧
    (∀ d ∈ [{ paired .shadow 2 1 with dpx := { syncAt := some 100 }, now := 100000099 }], d.dpx.syncAt = some 100 ∧ d.now < 100 + 100000000) ∧
    (∀ d ∈ [{ (paired .shadow 2 2).effSet F.DPX_CFG_SETTMO 1 with dpx := { recs := [⟨1, 2, true, [], 100⟩] }, now := 1000100 }], d.dpx.held = [] ∧
      d.dpx.recs = ⟨1, 2, true, [], 100⟩ :: [] ∧ 100 + max 1 (d.effGet F.DPX_CFG_SETTMO) * 1000000 ≤ d.now) ∧
    (∀ d ∈ [{ (paired .shadow 2 2).effSet F.DPX_CFG_SETTMO 1 with dpx := { held := [⟨aSet, 2, 100⟩] }, now := 1000100 }], d.dpx.held = ⟨aSet, 2, 100⟩ :: [] ∧
      d.dpx.recs = [] ∧ 100 + max 1 (d.effGet F.DPX_CFG_SETTMO) * 1000000 ≤ d.now) ∧
    (∀ d ∈ [compared (run .print)], d.dpx.bars[(0 : Bar)].mism = (5, 6, 7) :: [] ∧ d.mode ≠ .shadow) ∧
    (∀ d ∈ [((compared (paired .shadow 2 2)).set F.DPX_STATUS_GUARDED 1).effSet F.DPX_CFG_CRC_TAKE 1], d.dpx.bars[(0 : Bar)].mism = (5, 6, 7) :: [] ∧
      d.mode = .shadow ∧ d.guarded 0 = true ∧ d.get (F.ZXL_BAR_WIRE_COUNT 0) < 5 ∧ min 15 (d.get (F.DPX_BAR_MISM_RUN 0) + 1) < 4) ∧
    (∀ d ∈ [(((compared (paired .shadow 2 2)).set F.DPX_STATUS_GUARDED 1).effSet F.DPX_CFG_CRC_TAKE 1).set (F.DPX_BAR_MISM_RUN 0) 3],
      4 ≤ min 15 (d.get (F.DPX_BAR_MISM_RUN 0) + 1) ∧ d.effBit F.DPX_CFG_CRC_TAKE = true ∧ d.guarded 0 = true) ∧
    (∀ d ∈ [{ ready ((paired .shadow 2 2).effSet F.DPX_CFG_HB_TAKE 1) with dpx := { hbAt := some 100 }, now := 310100 }],
      (⟨[.heartbeatTimeout], d⟩ : State).takeCause = some 1 ∧ (⟨[.heartbeatRx 5 ⟨4, 1, 0, 0, []⟩], d⟩ : State).heartbeatWaits = true) ∧
    (∀ d ∈ [{ ready (paired .shadow 2 2) with sys := { mode := .shadow, trans := some { dest := .idle, cause := 0, host := false } } }], d.mode = .shadow ∧
      d.takeBlock ≠ 0) ∧
    (∀ d ∈ [(paired .shadow 2 2).effSet F.DPX_CFG_SHARE 11], d.mode = .shadow ∧ Nat.testBit (d.effGet F.DPX_CFG_SHARE) 0 = true ∧
      Nat.testBit (d.effGet F.DPX_CFG_SHARE) 1 = true ∧ Nat.testBit (d.effGet F.DPX_CFG_SHARE) 3 = true) ∧
    (∀ k ∈ [1, 2], ∀ d ∈ [{ paired .print 1 4 with dpx := { passValid := 2, passOther := k } }], d.dpx.passValid ≠ 0) ∧
    (∀ d ∈ [paired .print 1 4], d.role = 1 ∧ 2 ≤ d.mode.code ∧ d.mode.code ≤ 8 ∧ d.mode ≠ .idle ∧ devSource .safe d.mode = true ∧ d.sys.trans = none) := by
  and_intros <;> decide +kernel

/-- Network time on, in a role. -/
def ptp (m : Mode) (master : Nat) (x : Ptp) : Dev :=
  { ((run m).effSet F.PTP_CFG_EN 1).effSet F.PTP_CFG_ROLE master with ptp := x, now := 1000 }

def aSync (port : Fin 2) (domain : Nat) (two : Bool) : SyncMsg :=
  { port := port, domain := domain, src := 9, seq := 4, twoStep := two, ago := 0, origin := 0, corr := 0 }

def aDelay (domain : Nat) : DelayMsg := { port := 0, domain := domain, src := 9, seq := 4, p2p := false, ago := 0, rx := 0, tx := 0, corr := 0 }

def aDelayReq (domain : Nat) : ReqMsg := { port := 0, domain := domain, src := 9, seq := 4, p2p := false, ago := 0, corr := 0 }

theorem test_meets_TheServo :
    (∀ d ∈ [run .idle], d.live 3 = true ∧ d.ptpEn = false) ∧
    (∀ d ∈ [ptp .idle 0 { master := some 9, req := some (4, 0), last := some (0, 0), wait := some (4, 0, 0) }], d.live 3 = true ∧ d.ptpEn = true ∧
      (aSync 1 0 false).port.val ≠ d.ptpPort ∧ (aSync 0 0 false).port.val = d.ptpPort ∧ (aSync 0 1 false).domain ≠ d.effGet F.PTP_CFG_DOMAIN ∧
      (aSync 0 0 false).domain = d.effGet F.PTP_CFG_DOMAIN ∧ d.ptpMaster = false ∧ d.ptp.master = some (aSync 0 0 true).src ∧
      (aSync 0 0 true).twoStep = true ∧ (aSync 0 0 false).twoStep = false ∧ d.ptp.wait = some (4, 0, 0) ∧ (aDelay 0).domain = d.effGet F.PTP_CFG_DOMAIN ∧
      (aDelay 0).p2p = false ∧ d.effBit F.PTP_CFG_P2P = false ∧ d.ptp.req = some ((aDelay 0).seq, 0) ∧ d.ptp.last = some (0, 0) ∧
      d.ptp.master.isSome = true ∧ d.ptp.txReq = none) ∧
    (∀ d ∈ [(ptp .idle 0 { idleStep := true, step := 7 }).set F.PTP_STATUS_STEP_PEND 1], d.ptp.idleStep = true ∧ d.bit F.PTP_STATUS_STEP_PEND = true ∧
      (st d).syncWaits = false ∧ (⟨[.ptpSync (aSync 0 0 false)], d⟩ : State).syncWaits = true) ∧
    (∀ d ∈ [ptp .idle 0 {}], d.ptp.req = none ∧ d.ptp.master = none ∧ d.bit F.PTP_STATUS_STEP_PEND = false ∧
      (1000 * 2 ^ 16 : Int).natAbs ≤ 1000 * 2 ^ 16 ∧ 1000 * 2 ^ 16 < (1000 * 2 ^ 16 + 1 : Int).natAbs ∧
      d.modeIn [.print, .shuttle, .hold, .shadow] = false) ∧
    (∀ d ∈ [(ptp .print 0 { big := 2, ahead := true }).set F.PTP_SERVO_STEP_CONF 3], d.bit F.PTP_STATUS_STEP_PEND = false ∧
      max 1 (d.get F.PTP_SERVO_STEP_CONF) ≤ (if d.ptp.ahead = decide ((0 : Int) < 70000000) then d.ptp.big + 1 else 1) ∧
      d.modeIn [.print, .shuttle, .hold, .shadow] = true) ∧
    (∀ d ∈ [(ptp .print 0 { big := 1, ahead := true }).set F.PTP_SERVO_STEP_CONF 3],
      (if d.ptp.ahead = decide ((0 : Int) < 70000000) then d.ptp.big + 1 else 1) < max 1 (d.get F.PTP_SERVO_STEP_CONF)) ∧
    (∀ d ∈ [ptp .idle 1 { txAnn := some 999 }], d.ptpEn = true ∧ d.ptpMaster = true ∧ d.ptp.txSync = none ∧ d.ptp.txAnn = some 999 ∧
      d.now < 999 + d.annNs ∧ d.effBit F.PTP_CFG_TWOSTEP = false ∧ (aDelayReq 0).port.val = d.ptpPort ∧ (aDelayReq 0).domain = d.effGet F.PTP_CFG_DOMAIN ∧
      (aDelayReq 0).p2p = false ∧ d.effBit F.PTP_CFG_P2P = false) := by and_intros <;> decide

def anAnn : AnnMsg :=
  { port := 0, domain := 0, src := 9, prio1 := 1, class_ := 1, accuracy := 1, variance := 1, prio2 := 1, gm := 1, steps := 1 }

theorem test_meets_MastersAndTime :
    (∀ d ∈ [run .idle], d.live 3 = true ∧ d.ptpEn = false ∧ d.reaches 17 = true ∧ d.ptpMaster = false) ∧
    (∀ d ∈ [ptp .idle 0 { master := some 9, annAt := 0, syncAt := 0 }], d.ptpEn = true ∧ anAnn.port.val = d.ptpPort ∧
      anAnn.domain = d.effGet F.PTP_CFG_DOMAIN ∧ d.ptpMaster = false ∧ d.ptp.master.isSome = true ∧ d.now < d.ptp.annAt + d.annTmo ∧
      d.now < d.ptp.syncAt + 4 * d.syncNs) ∧
    (∀ d ∈ [{ ptp .idle 0 { master := some 9, annAt := 0, syncAt := 0 } with now := 100000000000 }], d.ptp.annAt + d.annTmo ≤ d.now ∧
      d.ptp.syncAt + 4 * d.syncNs ≤ d.now) ∧
    (∀ d ∈ [ptp .idle 0 { master := some 9, foreign := [⟨9, annKey anAnn, 1, 0⟩] }], d.fromMaster anAnn = true ∧
      d.fromMaster { anAnn with port := 1 } = false) ∧
    (∀ d ∈ [ptp .idle 1 {}], d.ptpMaster = true ∧ d.reaches 17 = true ∧ d.modeIn [.print, .shuttle, .hold, .shadow] = false) ∧
    (∀ d ∈ [ptp .print 1 {}], d.ptpMaster = true ∧ d.reaches 17 = true ∧ d.modeIn [.print, .shuttle, .hold, .shadow] = true) := by
  and_intros <;> decide

/-- Slot 2 armed for second 0, the mode READY. -/
def armed (m : Mode) (state : Nat) : Dev := ((run m).set (F.PTP_ACT_CTL_STATE 2) state).set (F.PTP_ACT_CTL_TARGET 2) 3

theorem test_meets_ActionSlots :
    (∀ d ∈ [run .boot], d.reaches 17 = true ∧ d.mode = .boot) ∧
    (∀ d ∈ [armed .idle 1], d.reaches 17 = true ∧ d.mode ≠ .boot ∧ d.actState 2 = 1 ∧ d.live 1 = true ∧ d.live 3 = true ∧ d.frz = none ∧
      d.actFires 2 = true ∧ d.get F.SYS_MODE_REQ_RESULT ≠ 1 ∧ d.sys.halt = false ∧ (3 : Fin 16).val = d.get (F.PTP_ACT_CTL_TARGET 2)) ∧
    (∀ d ∈ [(armed .idle 1).set F.SYS_MODE_REQ_RESULT 1], d.actFires 2 = true ∧ d.get F.SYS_MODE_REQ_RESULT = 1) ∧
    (∀ d ∈ [(armed .idle 0).effWr (Reg.PTP_ACT_SEC_LO 2) 1#32], d.actState 2 ≠ 1 ∧ d.time.units + 10000 * 2 ^ 16 ≤ d.actTarget 2) ∧
    (∀ d ∈ [(armed .idle 1).effWr (Reg.PTP_ACT_SEC_LO 2) 1#32], d.actState 2 = 1 ∧ d.actDue 2 = false ∧ d.time.units < d.actTarget 2) ∧
    (∀ d ∈ [armed .idle 1], d.actDue 2 = true) ∧
    (∀ d ∈ [armed .idle 0], d.actState 2 ≠ 1 ∧ d.actTarget 2 < d.time.units + 10000 * 2 ^ 16) ∧
    (∀ d ∈ [{ armed .idle 1 with ptp := { act := some (2, 0) } }], d.ptp.act = some ((2 : Fin 4).val, (d.time.units - d.actTarget 2) / 2 ^ 16)) := by
  and_intros <;> decide

/-- In a step of boot. -/
def booting (n : Nat) : Dev := { up .boot with boot := { por := false, perst := false, step := n, at_ := 100 }, now := 1000 }

theorem test_meets_WideResets :
    (∀ d ∈ [State.reset.dev], d.boot.por = true ∧ d.doms[(1 : Fin 12)].st = .off ∧ d.doms[(1 : Fin 12)].src = 0) ∧
    (∀ d ∈ [run .print], d.boot.por = false ∧ d.runs 1 = true ∧ d.mode ≠ .frozen ∧ d.doms[(0 : Fin 12)].st ≠ .off ∧ d.doms[(1 : Fin 12)].st ≠ .off ∧
      d.doms[(10 : Fin 12)].st ≠ .off ∧ d.reaches 1 = true ∧ d.mode ≠ .sleep ∧ d.sys.trans = none ∧ d.live 1 = true ∧ devSource .safe d.mode = true) ∧
    (∀ k ∈ [0, 2], ∀ d ∈ [(run .print).set ⟨Reg.RPC_CRIT, 2, 2⟩ k], d.boot.critAt = none ∧ d.critReach 2 = k ∧ d.critCovered k = false) ∧
    (∀ d ∈ [{ run .print with boot := { (run .print).boot with critAt := some (0, 2) } }], d.critCovered 1 = true) ∧
    (∀ d ∈ [(run .print).set F.RPC_WDOG_MS 2], ¬ d.boot.dogAt + 1000000 * d.get F.RPC_WDOG_MS ≤ d.now) ∧
    (∀ d ∈ [{ (run .print).set F.RPC_WDOG_MS 2 with now := 2000000 }], d.boot.dogAt + 1000000 * d.get F.RPC_WDOG_MS ≤ d.now) ∧
    (∀ d ∈ [{ up .boot with boot := { por := false, failed := true, retryAt := 100 }, now := 99 }], d.now < d.boot.retryAt) ∧
    (∀ d ∈ [run .frozen], d.mode = .frozen) ∧ (∀ d ∈ [off 5 (run .idle)], d.doms[(5 : Fin 12)].st = .off) ∧
    (∀ d ∈ [{ up .boot with boot := { por := false, failed := true, retryAt := 100 }, now := 100 }], d.mode = .boot ∧ d.boot.failed = true ∧ d.boot.retryAt ≤ d.now) ∧
    (∀ d ∈ [{ run .idle with sys := { mode := .idle, trans := some { dest := .sleep, cause := 0, host := true } } }],
      d.sys.trans = some { dest := .sleep, cause := 0, host := true } ∧ d.mode ≠ .sleep) ∧
    (∀ d ∈ [run .sleep], d.mode = .sleep) := by and_intros <;> decide

theorem test_meets_DomainsAndClocks :
    (∀ d ∈ [run .idle], d.boot.por = false ∧ d.boot.perst = false ∧ d.doms[(2 : Fin 12)].st ≠ .off ∧ d.mode ≠ .frozen ∧
      (∀ p : Fin 12, syncDom p = true → d.clocked p = true) ∧ d.runs 2 = true ∧ d.reaches 1 = true ∧ d.domReason .net 2 false = 0 ∧
      d.domReason .pcie 4 false = 0 ∧ d.domReason .net 4 true = 0 ∧ d.domReason .pcie 2 false ≠ 0 ∧ d.doms[(4 : Fin 12)].st ≠ .off ∧
      d.domReason .pcie 10 true ≠ 0 ∧ blockTarget 3 = some (.ingest 3) ∧ d.blockReason 3 = 0 ∧ d.blockReason 255 ≠ 0 ∧ d.doms[(5 : Fin 12)].st ≠ .pending ∧
      (∀ x ∈ d.boot.srcs, ∀ t, x.until_ = some t → d.now < t) ∧ d.doms[(5 : Fin 12)].st ≠ .releaseWait ∧ d.clkGood 5 = true ∧ d.live 1 = true ∧
      d.boot.released = true) ∧
    (∀ d ∈ [off 4 (run .idle)], d.doms[(4 : Fin 12)].st = .off ∧ d.doms[(4 : Fin 12)].src = 0 ∧ d.domReason .net 4 true = 0) ∧
    (∀ d ∈ [{ run .idle with boot := { (run .idle).boot with srcs := [{ bit := 4, mask := 32 }] }, doms := (run .idle).doms.set 5 { st := .reset, src := 16 } }],
      d.doms[(5 : Fin 12)].st = .reset ∧ ∀ x ∈ d.boot.srcs, x.bit = 4 ∨ Nat.testBit x.mask (5 : Fin 12).val = false) ∧
    (∀ d ∈ [{ run .idle with doms := (run .idle).doms.set 5 { st := .pending } }], d.doms[(5 : Fin 12)].st = .pending ∧ d.clocked 5 = true) ∧
    (∀ d ∈ [run .idle], d.releasable 5 = false ∧ d.clkGood 9 = true ∧ (d.wr Reg.RPC_CLK 0).clkGood 9 = false) ∧
    (∀ d ∈ [{ booting 6 with doms := (booting 6).doms.set 5 { st := .releaseWait }, now := 1000000000 }], d.releasable 5 = true ∧
      (∀ x ∈ d.boot.srcs, ∀ t, x.until_ = some t → d.now < t) ∧
      d.boot.step ≠ 0 ∧ d.boot.step ≠ 11 ∧ d.boot.released = false) ∧
    (∀ d ∈ [off 2 (run .idle)], d.runs 2 = false) := by and_intros <;> decide

theorem test_meets_BootSteps :
    (∀ n ∈ [1, 2, 3, 4, 5, 8, 9, 10], ∀ d ∈ [booting n], d.booting = true ∧ d.boot.step = n ∧ d.sys.trans = none ∧ d.now < d.boot.at_ + stepLimit n) ∧
    (∀ n ∈ [1, 2, 3, 4, 5, 8], ∀ d ∈ [{ booting n with now := 2000000100 }], d.booting = true ∧ d.boot.at_ + stepLimit n ≤ d.now) ∧
    (∀ d ∈ [off 2 (booting 4)], d.booting = true ∧ d.failCount 4 = 0 ∧ d.failCount 5 < 3 ∧ d.img.pcie = true ∧ d.doms[(2 : Fin 12)].st = .off ∧
      d.doms[(2 : Fin 12)].src = 0) ∧
    (∀ d ∈ [((booting 2).set F.RPC_FUSE_SECURE 1).set F.RPC_STATUS_VIO 6], d.booting = true ∧ d.bit F.RPC_FUSE_SECURE = true ∧ ¬ d.get F.RPC_STATUS_VIO % 2 = 1) ∧
    (∀ d ∈ [(booting 2).set F.RPC_STATUS_VIO 7], d.get F.RPC_STATUS_VIO % 2 = 1 ∧ d.bit F.RPC_FUSE_SECURE = false ∧
      populationOk { bars := 1, nozzles := [122881] } = false ∧ populationOk {} = true) ∧
    (∀ d ∈ [{ booting 7 with image := some { lanes := [{ en := true }] } }], d.booting = true ∧ d.boot.step = 7 ∧ d.lanesOpen ≠ []) ∧
    (∀ d ∈ [run .idle], d.booting = false ∧ d.reaches 1 = true ∧ d.get F.RPC_SPI_CTL_RESULT ≠ 1 ∧ d.mode = .idle ∧ d.live 1 = true ∧ d.boot.spi = none) ∧
    (∀ d ∈ [(run .idle).set F.RPC_SPI_CTL_RESULT 1], d.reaches 1 = true ∧ d.get F.RPC_SPI_CTL_RESULT = 1) ∧
    (∀ d ∈ [run .print], d.reaches 1 = true ∧ d.mode ≠ .idle ∧ d.sys.halt = false) ∧
    (∀ x ∈ [(true, 4), (false, 4)], ∀ d ∈ [{ run .idle with boot := { (run .idle).boot with spi := some x } }], d.live 1 = true ∧ d.boot.spi = some x) := by
  and_intros <;> decide +kernel

/-- The sixteen sensors trimmed alike. -/
def trimmed (d : Dev) : Dev := (List.finRange 16).foldl (fun (d : Dev) (n : Fin 16) => (d.set (F.THM_TS_TRIM_C30 n) 1000).set (F.THM_TS_TRIM_C110 n) 1500) d

/-- What a sample of counts leaves in the sensors' registers. -/
def sampled (d : Dev) (c : Nat) : Dev := (List.finRange 16).foldl (fun (x : Dev) (n : Fin 16) => x.takeCount n c) d

theorem test_meets_Temperature :
    1000 < 1500 ∧ 1568 ≤ 1599 ∧ 1648 ≤ 1679 ∧
    (∀ d ∈ [run .print], d.bit F.THM_STATUS_STOP = false ∧ d.modeIn [.shutdown, .sleep, .frozen] = false ∧ d.live 1 = true ∧ d.sys.trans = none ∧
      d.reaches 2 = true ∧ d.mode ≠ .shutdown) ∧
    (∀ d ∈ [trimmed (run .print)], d.live 0 = true ∧ d.thm.nextAt ≤ d.now ∧ (sampled d 1000).hottest = some 0 ∧ d.thm.tripped = false ∧
      (sampled d 1000).tsTemp 0 < 1488 ∧ d.bit F.THM_STATUS_FAST = false ∧ d.bit F.THM_STATUS_WARN = false ∧ d.bit F.THM_STATUS_THROT = false ∧
      (sampled d 1600).hottest = some 0 ∧ 2000 ≤ (sampled d 1600).tsTemp 0) ∧
    (∀ d ∈ [(run .print).set F.THM_EXCL_EXCL 0xFFFF], d.hottest = none ∧ (sampled d 0).hottest = none) ∧
    (∀ d ∈ [{ run .print with thm := { nextAt := 7 }, now := 6 }], d.now < d.thm.nextAt) ∧ (run .shutdown).mode = .shutdown ∧
    (∀ x ∈ [{ dest := .shutdown, cause := 5, host := false }], ∀ d ∈ [{ run .print with sys := { mode := .print, trans := some x } }],
      d.sys.trans = some x ∧ x.dest = .shutdown ∧ x.stop = 0 ∧ x.stopAt ≤ d.now ∧ d.firesOver x = true ∧
      Dev.firesOver { d with bars := d.bars.set 0 { issued := [aLine false] } } x = false) ∧
    (∀ d ∈ [run .idle], d.reaches 2 = true ∧ d.thm.at_ ≠ some d.now ∧ d.thm.nextAt ≤ d.now ∧
      ∃ cs, Instr.thermalSample cs ∈ (⟨[.thermalSample []], d⟩ : State).pending) ∧
    (∀ d ∈ [{ run .idle with thm := { at_ := some 0 } }], d.thm.at_ = some d.now) := by
  refine ⟨by decide, by decide, by decide, by decide +kernel, by decide +kernel, by decide +kernel, by decide +kernel, by decide, by decide +kernel, ?_, by decide⟩
  intro d hd
  cases List.mem_singleton.mp hd
  exact ⟨by decide, by decide, by decide, [], by decide⟩

/-- Unit 3 as given. -/
def crc (src : Nat) (go : Bool) : Dev := ((run .print).set (F.CRC_U_CFG_SRC 3) src).set (F.CRC_U_STATUS_RUN 3) go.toNat

theorem test_meets_CheckValues :
    (∀ d ∈ [crc 0 true], d.reaches 4 = true ∧ d.crcRun 3 = true ∧ d.crcSrc 3 = 0 ∧ 2 ≤ d.mode.code ∧ d.mode.code ≤ 9 ∧ d.unitHeld (0x10 + 3) = false ∧ d.live 1 = true) ∧
    (∀ d ∈ [crc 0 false], d.reaches 4 = true ∧ d.crcRun 3 = false ∧ d.crcSrc 3 = 0 ∧ 2 ≤ d.mode.code ∧ d.mode.code ≤ 9) ∧
    (∀ d ∈ [run .shutdown], d.reaches 4 = true ∧ d.crcRun 3 = false ∧ ¬ d.mode.code ≤ 9) ∧
    (∀ d ∈ [(crc 1 false).set (F.CRC_U_LEN_BYTES 3) 64], d.crcRun 3 = false ∧ d.crcSrc 3 = 1 ∧ d.cap < d.crcAddr 3 + d.crcLen 3) ∧
    (∀ d ∈ [off 4 (crc 1 true)], d.crcRun 3 = true ∧ d.crcSrc 3 = 1 ∧ d.live 4 = false ∧ d.live 1 = true) ∧
    (∀ d ∈ [crc 1 true], d.crcRun 3 = true ∧ d.crcSrc 3 = 1 ∧ d.live 4 = true ∧ d.poison = [] ∧ d.crcLen 3 ≤ d.crcFed 3) ∧
    (∀ d ∈ [(crc 1 true).set (F.CRC_U_LEN_BYTES 3) 64], d.crcRun 3 = true ∧ d.crcSrc 3 = 1 ∧ d.live 4 = true ∧ d.crcFed 3 < d.crcLen 3) ∧
    (∀ d ∈ [(crc 0 true).set (F.CRC_U_CFG_CMP_EN 3) 1], d.bit (F.CRC_U_CFG_CMP_EN 3) = true) ∧
    (∃ t1 t2 t3 t4 u1 u2 : State, exec (.crcAbort 3 0 []) (st (crc 0 true)) = .next t1 ∧ exec (.crcResume 3) t1 = .next t2 ∧
      exec (.crcData 3 5#32) t2 = .next t3 ∧ exec (.crcFinish 3) t3 = .next t4 ∧ exec (.crcData 3 5#32) (st (crc 0 true)) = .next u1 ∧
      exec (.crcFinish 3) u1 = .next u2) := by
  refine ⟨by decide, by decide, by decide, by decide, by decide, by decide, by decide, by decide, ⟨_, _, _, _, _, _, rfl, rfl, rfl, rfl, rfl, rfl⟩⟩

theorem test_meets_PersistentWords :
    (0 < 0x1800 ∧ 0x1800 ≤ (0x1800 : Fin 8192).val) ∧
    (∀ d ∈ [run .idle], d.reaches 3 = true ∧ d.prsFailed.contains 0x1800 = false ∧ 1#32 ≠ d.rd (Reg.PRS_WORD 0x1800) ∧
      d.get (F.PRS_WEAR_WRITES 0x1800) < 500000 ∧ 0 < d.get F.PRS_STATUS_SPARES ∧ d.live 0 = true ∧ d.prsQ = []) ∧
    (∀ d ∈ [(run .idle).set (F.PRS_WEAR_WRITES 0x1800) 500000], 500000 ≤ d.get (F.PRS_WEAR_WRITES 0x1800)) ∧
    (∀ d ∈ [(run .idle).set F.PRS_STATUS_SPARES 0], d.get F.PRS_STATUS_SPARES = 0 ∧ d.get (F.PRS_WEAR_WRITES 0x1800) < 500000) ∧
    (∀ d ∈ [{ run .idle with prsFailed := [0x1800] }], d.prsFailed.contains 0x1800 = true) ∧
    (∀ d ∈ [{ run .idle with prsQ := [(0x90, 1#32)] }], d.prsQ = ((0x90 : Fin 8192).val, 1#32) :: [] ∧ (Dev.lifeWrite { d with prsQ := [] } 0x90 1#32).2 ≠ d.rd (Reg.PRS_WORD 0x90) ∧
      (Dev.lifeWrite { d with prsQ := [] } 0x90 0#32).2 = d.rd (Reg.PRS_WORD 0x90) ∧ (st d).pending.any Instr.writesPrs = false ∧
      (⟨[.prsWrite 0x1800 5 false], d⟩ : State).pending.any Instr.writesPrs = true ∧
      d.get (F.PRS_WEAR_WRITES 0x90) < 500000) := by and_intros <;> decide

/-- A freeze being entered. -/
def freezing (d : Dev) : Dev := { d with frz := some ⟨5, 4, 0, false⟩ }

theorem test_meets_FreezeAndTap :
    (∀ d ∈ [run .print], d.boot.por = false ∧ d.mode ≠ .frozen ∧ d.frz = none ∧ d.mode ≠ .sleep ∧ d.mode ≠ .shutdown ∧ d.sys.trans = none ∧
      d.reaches 20 = true ∧ d.jtag.rstReq = none ∧ d.wideNow = false) ∧
    (∀ d ∈ [off 1 (run .shutdown)], d.boot.por = false ∧ d.frz = none ∧ d.mode = .shutdown ∧ d.runs 1 = false) ∧
    (∀ d ∈ [{ up .boot with boot := { por := false, wideAt := some (0, ⟨5, 4, 0, false⟩, true) } }], d.boot.por = false ∧ d.frz = none ∧ d.mode = .boot ∧
      d.boot.wideAt = some (d.now, ⟨5, 4, 0, false⟩, true)) ∧
    (∀ d ∈ [run .sleep], d.boot.por = false ∧ d.frz = none ∧ d.mode = .sleep) ∧
    F.DBG_FREEZE_KEY.of 0xF0E50001#32 = 0xF0E5 ∧ F.DBG_FREEZE_GO.of 0xF0E50001#32 = 1 ∧ F.DBG_FREEZE_GO.of 0xF0E50000#32 = 0 ∧
    F.DBG_FREEZE_KEY.of 0#32 ≠ 0xF0E5 ∧
    (∀ d ∈ [freezing (run .print)], d.frz = some ⟨5, 4, 0, false⟩ ∧ ∀ n : Fin 8, d.stb[n].high = false) ∧
    (∀ d ∈ [{ freezing (run .print) with stb := (run .print).stb.set 1 { high := true } }], ∃ n : Fin 8, d.stb[n].high = true) ∧
    (∀ d ∈ [run .frozen], d.jtag.rstReq = none ∧ d.mode = .frozen ∧ d.jtag.sramMem < 4) ∧
    (∀ d ∈ [{ run .frozen with jtag := { sramMem := 4 } }], d.jtag.sramMem = 4 ∧ d.jtag.sramAddr < 8192) ∧
    (∀ d ∈ [{ run .frozen with jtag := { sramMem := 5 } }], 5 ≤ d.jtag.sramMem) ∧
    (∀ d ∈ [{ run .frozen with jtag := { rstReq := some true } }], d.jtag.rstReq = some true ∧ d.boot.por = false) := by and_intros <;> decide

/-- The host may be written to; egress channel 1 holds a record and has room. -/
def egressing (x : EgrRec) : Dev :=
  let d := (((run .idle).set F.HST_STATUS_BME 1).set (F.HST_EGR_CTL_EN 1) 1).set (F.HST_EGR_TAIL_INDEX 1) 1
  { d with egress := d.egress.set 1 [x] }

theorem test_meets_HostInterface :
    (∀ d ∈ [run .idle], d.live 2 = true ∧ d.live 1 = true ∧ d.sigs = [] ∧ d.egress[(1 : Fin 2)] = [] ∧ d.reaches 18 = true ∧ d.frz = none ∧
      d.bit F.HST_STATUS_D3 = false ∧ d.memTakes = false ∧ d.hostOpen = false ∧ (st d).lastWrite (Reg.HST_EGR_TAIL 1) = none ∧
      (⟨[.registerWrite (Reg.HST_EGR_TAIL 1) 7 15], d⟩ : State).lastWrite (Reg.HST_EGR_TAIL 1) = some 7) ∧
    (∀ d ∈ [off 2 { run .idle with sigs := [7] }], d.sigs = 7 :: [] ∧ d.live 2 = false) ∧
    (∀ d ∈ [((run .idle).set F.HST_STATUS_BME 1).set F.HST_STATUS_MSIX 1 |>.set (F.HST_MSIX_CTRL_MASK 7) 0], d.bit F.HST_STATUS_MSIX = true ∧ d.vecOpen 7 = true ∧
      d.bit (vecFld Reg.HST_INT_PEND_LO 7) = false) ∧
    (∀ d ∈ [{ (run .idle).set F.HST_STATUS_MSIX 1 with sigs := [7] }], d.sigs = 7 :: [] ∧ d.live 2 = true ∧ d.bit F.HST_STATUS_MSIX = true ∧
      d.vecOpen 7 = false ∧ d.hst.held.contains 7 = false) ∧
    (∀ d ∈ [(run .idle).effSet (vecFld Reg.HST_RT_NOTIFY_LO 7) 1], d.bit (vecFld Reg.HST_INT_PEND_LO 7) = false ∧ d.effBit (vecFld Reg.HST_RT_NOTIFY_LO 7) = true ∧
      d.bit F.HST_STATUS_MSIX = false) ∧
    (∀ d ∈ [egressing ⟨1, [5]⟩], d.egress[(1 : Fin 2)] = ⟨1, [5]⟩ :: [] ∧ d.hostOpen = true ∧ d.bit (F.HST_EGR_CTL_EN 1) = true ∧
      d.bit (F.HST_EGR_STATUS_STOPPED 1) = false ∧ 1 ≤ d.egrFree 1 ∧ descGood [64, 0, 64, 0] = true ∧ [(5 : BitVec 8)].length ≤ descSize [64, 0, 64, 0] ∧
      Nat.testBit ([64, 0, 64, 0].getD 2 0) 31 = false ∧ descGood [1, 0, 64, 0] = false) ∧
    (∀ d ∈ [(egressing ⟨1, [5]⟩).set (F.HST_EGR_CTL_EN 1) 0], (EgrRec.mk 1 [5]).src ≠ 0x10 ∧ d.bit (F.HST_EGR_CTL_EN 1) = false) ∧
    (∀ d ∈ [mem (run .idle)], d.live 4 = true ∧ d.memTakes = true ∧ d.winAddr 0 + 0x10000 ≤ d.cap ∧ d.cap < d.winAddr 0 + 0x10001 ∧ d.poison = [] ∧
      d.winAddr 0xFFFF + [(1 : BitVec 8)].length ≤ d.cap ∧ d.cap < d.winAddr 0xFFFF + [(1 : BitVec 8), 2].length) := by and_intros <;> decide

/-- The register transport on, port 1 up under address 9. -/
def transport (d : Dev) : Dev :=
  (((d.effSet F.HST_RT_CFG_EN 1).set (F.NET_P_STATUS_UP 1) 1).set (F.NET_P_IP_IP 1) 9).effSet F.HST_RT_CFG_UDP 5

def aMsg (ops : List RtOp) (udp : Nat) : RtMsg :=
  { port := 1, src := 3, ip := 9, udp := udp, header := true, seq := 1, ops := ops }

theorem test_meets_RegisterTransport :
    (∀ d ∈ [run .idle], d.rtEn = false ∧ d.rt.last = none) ∧
    (∀ d ∈ [transport (mem (run .idle))], d.rtEn = true ∧ d.live 1 = true ∧ d.frz = none ∧ Reg.POS_BACKLASH < 0x1500000 ∧ d.on (blkOf Reg.POS_BACKLASH) = true ∧
      d.live 4 = true ∧ d.memTakes = true ∧ d.rt.queue = [] ∧ d.rt.busy ≤ d.now ∧ lenOk 64 = true ∧ lenOk 63 = false ∧ 0xFFC0 + 64 ≤ d.cap ∧ d.poison = [] ∧
      d.bit (F.NET_P_STATUS_UP 0) = false ∧ d.bit (F.NET_P_STATUS_UP 1) = true ∧ 9 = d.get (F.NET_P_IP_IP 1) ∧
      (aMsg [.wr Reg.POS_BACKLASH 1] 5).udp = d.effGet F.HST_RT_CFG_UDP ∧ (aMsg [.wr Reg.POS_BACKLASH 1] 4).udp ≠ d.effGet F.HST_RT_CFG_UDP ∧
      (aMsg [.wr Reg.POS_BACKLASH 1] 5).ops ≠ [] ∧ (aMsg [.wr Reg.POS_BACKLASH 1] 5).ops.length ≤ 100 ∧
      (d.rt.srcs.find? fun y => y.port = 1 && y.src = 3 && y.seq = 1) = none ∧ (d.hostWrite .net Reg.POS_BACKLASH 1 15).live 3 = true ∧
      (aMsg [.bad 0] 5).ops = .bad 0 :: [] ∧ d.live 3 = true ∧ ipBytes [.bad 0] reqBytes ≤ 9000 ∧ ipBytes [.bad 0] respBytes ≤ 9000 ∧
      ¬ ipBytes [.rdStore 0 8192, .rdStore 0 1024] respBytes ≤ 9000) ∧ (∀ i ∈ [Instr.wake], i ≠ .snapCapture) ∧
    (∀ d ∈ [{ transport (run .idle) with rt := { busy := 1 } }], d.now < d.rt.busy) ∧
    (∀ d ∈ [off 10 (transport (run .idle))], d.on (blkOf Reg.POS_BACKLASH) = false) ∧
    (∀ d ∈ [{ transport (run .idle) with rt := { srcs := [⟨1, 3, 1, [7]⟩] } }],
      (d.rt.srcs.find? fun y => y.port = 1 && y.src = 3 && y.seq = 1) = some ⟨1, 3, 1, [7]⟩ ∧ d.live 2 = true) ∧
    (∀ d ∈ [{ transport (run .idle) with rt := { last := some (1, 3), fresh := true, notifyAt := some 100 }, now := 100099 }], d.rt.last = some (1, 3) ∧
      d.rt.notifyAt = some 100 ∧ d.now < 100 + 100000) ∧
    (∀ d ∈ [{ transport (run .idle) with rt := { last := some (1, 3), fresh := true, notifyAt := some 100 }, now := 100100 }], d.rt.last = some (1, 3) ∧
      d.rtEn = true ∧ d.rt.fresh = true ∧ d.live 2 = true ∧ d.rt.notifyAt = some 100 ∧ 100 + 100000 ≤ d.now) := by and_intros <;> decide

theorem test_meets_StandingStillKeepsTheMachine :
    (run .frozen).still ∧ ({ run .sleep with doms := (Vector.replicate 12 ({ st := .off } : Dom)).set 0 { st := .run } } : Dev).still ∧
    (∀ c ∈ ({ st (run .frozen) with pending := [.powerOn] } : State).pending.head?, leaves c = false) ∧
    step { st (run .frozen) with pending := [.powerOn] } = .next (st (run .frozen)) := by
  refine ⟨?_, ?_, ?_, rfl⟩
  · unfold Dev.still; decide
  · unfold Dev.still; decide
  · decide
/-! ### Commands that cannot occur -/

theorem test_wf_refuses :
    (∀ c ∈ ([.registerWrite (2 ^ 25) 0 15, .posCfgWrite 4 0, .analogSample 0 10001 0, .ssiWord 1 (2 ^ 27) 0, .ingestDescriptorStart 0 [1] [],
      .blockRowDecode 0 (2 ^ 30)] : List Instr), c.wf = false) ∧
    (∀ c ∈ ([.ringClosed 0 128, .alignPassed 0 256, .laneStateTimeout 0 256, .lmsUpdate 0 [1], .marginDone 0 65536 0,
      .statusFrameReturn 0 65536 true [], .delayMeasureDone 0 0 (List.replicate 65 ⟨0, 0, 0⟩), .sensorListDone 0 [64]] : List Instr), c.wf = false) ∧
    (∀ c ∈ ([.memoryRead .scrub 0 ⟨false, .clean⟩, .memoryWrite (.bar 0) (2 ^ 35) [0] ⟨false, .clean⟩, .heartbeatRx 0 ⟨4, 1, 0, 0, []⟩, .setrecRx 0 0 0 true [],
      .gainsRx 0 0 0 [] none 0 none, .takeoverRx 0 0 (2 ^ 48)] : List Instr), c.wf = false) ∧
    (∀ c ∈ ([.clockLoss 11, .clockGood 11, .spiDone (List.replicate 257 0), .thermalSample [], .thmSample [], .bar2Read 0 0, .bar2Write 0 [],
      .egressRecord 0 [[0]], .rtReadRegister (2 ^ 32), .rtWriteRegister (2 ^ 32) 0, .rtReadJobStore (2 ^ 64) 64, .rtWriteJobStore (2 ^ 64) [],
      .rtArp 0 (2 ^ 32), .rtIcmpEcho 0 (2 ^ 32) [], .rtDatagram { aMsg [] 0 with seq := 2 ^ 32 },
      .syncRx 0 { digest := 0, hb := ⟨4, 1, 0, 0, []⟩, pos := aPos 0, sched := [], noz := [], lamp := ⟨[], []⟩, cur := [] }] : List Instr), c.wf = false) := by
  and_intros <;> decide +kernel

/-- No row of the table gives bits. -/
theorem test_no_word_spells_a_command : decodeTableWord 32 5 = none ∧ State.reset.withFetchWord 32 5 = State.reset := ⟨rfl, rfl⟩

/-! ### The examples of the spec -/

/-- spec/01_architecture.md: PRINT requested in IDLE. -/
theorem test_modeRequest_refused : ((after (.modeRequest 4) (run .idle)).map fun d => (d.rd Reg.SYS_MODE_REQ, d.mode, d.raised.map (·.detail))) =
    some (0xC0010004, .idle, [[0x00010202]]) := by decide

/-- spec/02_web_position.md: the mark before the wrap, the web after it. -/
theorem test_web_after_the_wrap : webDiff 0x40 0xFFFFFFFFFF00 = 320 ∧ webAfter 0x40 0xFFFFFFFFFF00 = true := by decide

/-- spec/02_web_position.md, Worked example: 3,551 counts in 100 µs. -/
theorem test_speed_of_3551_counts : speedOf (3551 * 800000000) (speedWinNs 10) = 1693248749 := by decide

/-- R45: a difference of 2^47 is before. -/
theorem test_web_order_at_half : webAfter (2 ^ 47 - 1) 0 = true ∧ webAfter (2 ^ 47) 0 = false ∧ webDiff (2 ^ 47) 0 < 0 := by decide

/-- spec/05_block_code.md, Example: a plane 24 pixels wide at 8:3. -/
theorem test_block_row : (decRow ([0x60#8, 0x03#8, 0x00#8, 0x04#8, 0x42#8, 0x8C#8, 0x80#8, 0x5A#8, 0xF0#8, 0x5A#8, 0xF0#8, 0x5A#8, 0xF0#8, 0x5A#8, 0xF0#8,
      0x00#8, 0xF0#8, 0x00#8, 0x02#8, 0x00#8] ++ List.replicate 44 0#8) 64 24).toOption.map (blockLines 24) =
    some (List.replicate 4 ([40, 40, 93, 93, 147, 147, 200, 200] ++ List.replicate 16 200)) := by decide +kernel

/-- spec/06_screening.md, Example: nozzle 960 of bar 2 on print line 5,000. -/
theorem test_screening : toned 522 (-6) = 516 ∧ gained 516 140 = 540 ∧ threshold 540 900 2200 3400 = 1 ∧ noiseSeed 2 2 5000 = 0x858549D2 ∧
    lfsrStep 0x858549D2 = 0x42C2A4E9 ∧ noiseOf 0x42C2A4E9 16 = -8 ∧ [7, 3, 5, 1].map (part (-67)) = [-29, -13, -21, -4] := by decide

/-- spec/07_rows_and_nozzles.md, Example: positions 1,000 and 1,001 are out, here as 2 and 3 of six. -/
theorem test_spread : spreadLine (resetWord (Reg.NOZ_BAR_SPREAD 3)).toNat 2 6 7 [2, 3] [1, 2, 3, 2, 3, 0] = ([1, 3, 0, 0, 3, 2], 2, 0) := by decide

/-- spec/09_zixlink_protocol.md, Example: the delays of endpoints 0 and 47, in 1/16 ns. -/
theorem test_delays : chainDelays (3016 * 16) [⟨3001 * 16, 0, 0⟩] 0 = [120] ∧ chainDelays (3016 * 16) [⟨40 * 16, 0, 0⟩] (-376 * 16) = [1676 * 16] := by decide

/-- spec/11_density_loop.md, Worked example: the thirteen updates. -/
theorem test_gain_updates : [(128, 3932), (126, 3389), (124, 2846), (123, 2575), (122, 2304), (121, 2032), (120, 1761), (119, 1489), (118, 1218), (117, 947),
    (116, 675), (115, 404), (114, 133)].map (fun t => (newGain t.1 (t.2 : Nat) 8 32 224).1) = [126, 124, 123, 122, 121, 120, 119, 118, 117, 116, 115, 114, 114] := by
  decide

/-- spec/12_lamps.md, Example: the duty at 40 % coverage. -/
theorem test_coverage_duty : covDuty 6554 52429 2124000 5310000 = 24904 := by decide

/-- spec/13_dram.md, Example: address 0x1C40. -/
theorem test_unit_place : unitAt (0x1C40 / 64) = (0, 1, 32) := by decide

/-- R407: CRC-32C over "123456789", and what VALUE then reads. -/
theorem test_crc32c : crc32c [0x31, 0x32, 0x33, 0x34, 0x35, 0x36, 0x37, 0x38, 0x39] = 0xE3069283 ∧
    crcBits 32 0x1EDC6F41 0xFFFFFFFF (byteBits true [0x31, 0x32, 0x33, 0x34, 0x35, 0x36, 0x37, 0x38, 0x39]) = 0x3EB69F38 := by decide +kernel

/-- R16: a read of a register in a stopped domain gives 0, and the write is dropped with one REG_DOMAIN_OFF. -/
theorem test_write_to_a_stopped_domain :
    ((after (.registerWrite Reg.POS_BACKLASH 5 15) (off 10 (run .idle))).map fun d => (d.rd Reg.POS_BACKLASH, d.raised.length + d.coal.length)) =
    some (resetWord Reg.POS_BACKLASH, 1) := by decide

/-- R208: CRC-8 of polynomial 0x07 over "123456789". -/
theorem test_crc8 : crc8 [0x31, 0x32, 0x33, 0x34, 0x35, 0x36, 0x37, 0x38, 0x39] = 0xF4 := by decide +kernel

/-- R179: the tables of IEEE 802.3 clause 36: K28.5 at either disparity, K27.7, D0.0, D17.7 with its second form, D21.5. -/
theorem test_8b10b : enc10 true 0xBC false = (0b0011111010, true) ∧ enc10 true 0xBC true = (0b1100000101, false) ∧
    enc10 true 0xFB false = (0b1101101000, false) ∧ enc10 false 0x00 false = (0b1001110100, false) ∧
    enc10 false 0xF1 false = (0b1000110111, true) ∧ enc10 false 0xB5 true = (0b1010101010, true) := by decide


end Sys2Proof.Tests
end

section
/-!
R16, R415, R417: a host access of a register block that does not answer. The commands of the table are all one shape, `Dev.host` on their block;
the reads and writes of BAR0 go through `Dev.hostRead` and `Dev.hostWrite`.
-/
namespace Sys2Proof.Machine

/-! ### One access -/

/-- Without the register fabric, or once a freeze has begun, an access is lost (R415). -/
theorem Dev.host_lost (d : Dev) (b : Nat) (f : Dev → Dev) (h : d.live 1 = false ∨ d.frz.isSome = true) : d.host b f = d := by
  obtain hdead | hfrz := h
  · simp [Dev.host, hdead]
  · simp [Dev.host, hfrz]

theorem Dev.hostRead_off (d : Dev) (a : Nat) (h1 : d.live 1 = true) (h2 : d.frz = none) (ha : a < 0x1500000) (h3 : d.on (blkOf a) = false) :
    d.hostRead a = (d.domainOff (blkOf a), 0) := by
  simp [Dev.hostRead, h1, h2, h3, Nat.not_le.2 ha]

theorem Dev.hostWrite_off (d : Dev) (via : Master) (a : Nat) (v : Word) (w : Waiting) (h1 : d.live 1 = true) (h2 : d.frz = none)
    (ha : a < 0x1500000) (h4 : a % 4 = 0) (h3 : d.on (blkOf a) = false) : d.hostWrite via a v 15 w = d.domainOff (blkOf a) := by
  simp [Dev.hostWrite, h1, h2, h3, h4, Nat.not_le.2 ha]

/-! ### The commands of the table -/

/-- DBG_FREEZE is an access of block 20, but in the cycle of a reset of wide reach (R417). -/
theorem exec_dbgFreeze_host (v : Word) (s : State) (h : s.dev.wideNow = false) :
    exec (.dbgFreeze v) s = .next (s.withDev (s.dev.host 20 (·.dbgFreeze v))) :=
  congrArg s.dest (if_neg (Bool.eq_false_iff.1 h))

/-- Every host command of the table is an access of its block: what it does there, `f`, happens only where the block answers. The other commands
have no block, which `hc` excludes. -/
theorem exec_hostCommand (c : Instr) (b : Nat) (s : State) (hc : hostBlock c = some b) (hw : b = 20 → s.dev.wideNow = false) :
    ∃ f, exec c s = .next (s.withDev (s.dev.host b f)) := by
  cases c with
  | dbgFreeze v =>
    cases hc
    exact ⟨_, exec_dbgFreeze_host v s (hw rfl)⟩
  | _ => cases hc <;> exact ⟨_, rfl⟩

/-- A PCIe write of a word in a block that does not answer; a write of SYS_MODE_REQ is the command MODE_REQUEST, of block 0. -/
theorem exec_registerWrite_off (s : State) (a : Nat) (v : Word) (h1 : s.dev.live 1 = true) (h2 : s.dev.frz = none)
    (ha : a < 0x1500000) (h4 : a % 4 = 0) (h3 : s.dev.on (blkOf a) = false) :
    exec (.registerWrite a v 15) s = .next (s.withDev (s.dev.domainOff (blkOf a))) := by
  change execRegisterWrite a v 15 s = _
  by_cases hreq : a = Reg.SYS_MODE_REQ
  · subst hreq
    exact congrArg s.dest (Dev.host_off _ _ _ h1 h2 h3)
  · rw [execRegisterWrite, if_neg (by simp [hreq])]
    exact congrArg s.dest (Dev.hostWrite_off _ _ _ _ _ h1 h2 ha h4 h3)

/-- Settles O3: a host command, a read and a write each go through an access of one block. -/
theorem accessOfABlockThatDoesNotAnswer : Obligations.AccessOfABlockThatDoesNotAnswer := by
  intro s off
  refine ⟨fun c b hc hw => ?_, fun a h1 h2 ha h3 => ⟨?_, fun v h4 => ?_⟩⟩
  · obtain ⟨f, hf⟩ := exec_hostCommand c b s hc hw
    rw [hf]
    constructor
    · intro hlost
      rw [Dev.host_lost _ _ _ hlost, State.withDev_self]
    · intro h1 h2 h3
      rw [Dev.host_off _ _ _ h1 h2 h3]
      rfl
  · exact Dev.hostRead_off s.dev a h1 h2 ha h3
  · exact exec_registerWrite_off s a v h1 h2 ha h4 h3

end Sys2Proof.Machine
end

section
/-!
R45: the order of web coordinates, modulo 2^48. The difference forward from b to a decides: below half the range `webDiff` is that difference, and
from half the range on it is a negative number.
-/
namespace Sys2Proof.Machine

/-- How far a lies forward of b, modulo 2^48. -/
def webGap (a b : Nat) : Nat := (a % webMod + webMod - b % webMod) % webMod

theorem webGap_lt (a b : Nat) : webGap a b < webMod := Nat.mod_lt _ (by decide)

theorem webDiff_of_lt_half {a b : Nat} (h : webGap a b < 2 ^ 47) : webDiff a b = webGap a b := if_pos h

theorem webDiff_of_half_le {a b : Nat} (h : 2 ^ 47 ≤ webGap a b) : webDiff a b = (webGap a b : Int) - webMod := if_neg (Nat.not_lt.2 h)

/-- From half the range on, a is before b: the difference is less than the whole range, so that `webDiff` stays below 0. -/
theorem webDiff_neg_of_half_le {a b : Nat} (h : 2 ^ 47 ≤ webGap a b) : webDiff a b < 0 := by
  rw [webDiff_of_half_le h]
  exact Int.sub_neg_of_lt (Int.ofNat_lt.2 (webGap_lt a b))

theorem webDiff_neg_iff (a b : Nat) : webDiff a b < 0 ↔ 2 ^ 47 ≤ webGap a b := by
  obtain hlt | hge := Nat.lt_or_ge (webGap a b) (2 ^ 47)
  · rw [webDiff_of_lt_half hlt]
    omega
  · exact iff_of_true (webDiff_neg_of_half_le hge) hge

theorem webDiff_eq_zero_iff (a b : Nat) : webDiff a b = 0 ↔ webGap a b = 0 := by
  obtain hlt | hge := Nat.lt_or_ge (webGap a b) (2 ^ 47)
  · rw [webDiff_of_lt_half hlt, Int.natCast_eq_zero]
  · have hneg := webDiff_neg_of_half_le hge
    omega

theorem webAfter_iff (a b : Nat) : webAfter a b = true ↔ 1 ≤ webGap a b ∧ webGap a b ≤ 2 ^ 47 - 1 := by
  rw [webAfter, decide_eq_true_iff]
  obtain hlt | hge := Nat.lt_or_ge (webGap a b) (2 ^ 47)
  · rw [webDiff_of_lt_half hlt]
    omega
  · have hneg := webDiff_neg_of_half_le hge
    omega

/-- Only the residues modulo 2^48 of the two positions count. -/
theorem webDiff_congr {a a' b b' : Nat} (ha : a % webMod = a' % webMod) (hb : b % webMod = b' % webMod) : webDiff a b = webDiff a' b' := by
  rw [webDiff, ha, hb, webDiff]

/-- Settles O13: the difference forward decides, and whole turns of the range leave it as it is. -/
theorem positionsCompareModulo : Obligations.PositionsCompareModulo := by
  intro a b k
  exact ⟨webAfter_iff a b, webDiff_eq_zero_iff a b, webDiff_neg_iff a b,
    webDiff_congr (Nat.add_mul_mod_self_left a webMod k) rfl, webDiff_congr rfl (Nat.add_mul_mod_self_left b webMod k)⟩

end Sys2Proof.Machine
end

section
/-!
R404: the arithmetic of a check-value unit. The model shifts bits in through `crcBits`; here it is followed byte by byte, as the spec writes the
loop, and the numbers it gives stay below 2^w.
-/
namespace Sys2Proof.Machine

theorem crcBit_lt (w poly r : Nat) (b : Bool) : crcBit w poly r b < 2 ^ w := by
  have hs : r * 2 % 2 ^ w < 2 ^ w := Nat.mod_lt _ (Nat.two_pow_pos w)
  simp only [crcBit]
  split
  · exact Nat.xor_lt_two_pow hs (Nat.mod_lt _ (Nat.two_pow_pos w))
  · exact hs

/-- One bit into r, as the loop of R404 takes it. -/
theorem crcBit_eq (w p r : Nat) (b : Bool) : crcBit w (p % 2 ^ w) r b =
    if (r.testBit (w - 1) != b) = true then Nat.xor (2 * r % 2 ^ w) (p % 2 ^ w) else 2 * r % 2 ^ w := by
  simp only [crcBit, Nat.mod_mod, Nat.mul_comm r 2]
  rfl

theorem crcBits_lt (w poly : Nat) (l : List Bool) : ∀ r, r < 2 ^ w → crcBits w poly r l < 2 ^ w := by
  induction l with
  | nil => exact fun r h => h
  | cons b l ih => exact fun r _ => ih _ (crcBit_lt w poly r b)

theorem foldl_bits_lt (l : List Bool) : ∀ a, l.foldl (fun a b => 2 * a + b.toNat) a < (a + 1) * 2 ^ l.length := by
  induction l with
  | nil => intro a; simp
  | cons b l ih =>
    intro a
    have hb : b.toNat ≤ 1 := Bool.toNat_le b
    calc l.foldl (fun a b => 2 * a + b.toNat) (2 * a + b.toNat)
        < (2 * a + b.toNat + 1) * 2 ^ l.length := ih _
      _ ≤ (2 * (a + 1)) * 2 ^ l.length := Nat.mul_le_mul_right _ (by omega)
      _ = (a + 1) * 2 ^ (l.length + 1) := by rw [Nat.mul_comm 2, Nat.mul_assoc, Nat.pow_succ']

theorem reflect_lt (w r : Nat) : reflect w r < 2 ^ w := by
  simpa [reflect, ofBitsMsb, bitsLsb] using foldl_bits_lt (bitsLsb w r) 0

theorem reflect_eq_foldl (w r : Nat) : reflect w r = (List.range w).foldl (fun a k => 2 * a + (r.testBit k).toNat) 0 :=
  List.foldl_map

/-- The bits of one byte, lowest first when reflected. -/
theorem crcBits_byte (w poly r : Nat) (refin : Bool) (b : BitVec 8) :
    crcBits w poly r (if refin then bitsLsb 8 b.toNat else bitsMsb 8 b.toNat) =
      (List.range 8).foldl (fun r i => crcBit w poly r (b.getLsbD (if refin then i else 7 - i))) r := by
  cases refin
  · exact List.foldl_map
  · exact List.foldl_map

/-- The loop of R404: bytes in feed order, and in each byte its eight bits. -/
theorem crcBits_byteBits (w poly : Nat) (refin : Bool) (bs : List (BitVec 8)) (r : Nat) :
    crcBits w poly r (byteBits refin bs) =
      bs.foldl (fun r b => (List.range 8).foldl (fun r i => crcBit w poly r (b.getLsbD (if refin then i else 7 - i))) r) r := by
  simp only [crcBits, byteBits, List.foldl_flatMap]
  congr 1
  funext r b
  exact crcBits_byte w poly r refin b

end Sys2Proof.Machine
end

section
/-!
R404 to R407: what the operations of a check-value unit write, and that its parameters are not among it.
-/
namespace Sys2Proof.Machine

/-! ### Fields and pairs -/

theorem Dev.get_congr {d e : Dev} (h : d.regs = e.regs) (f : Fld) : d.get f = e.get f := congrArg f.of (Dev.rd_congr h f.reg)

theorem Dev.bit_congr {d e : Dev} {f g : Fld} (h : d.get f = e.get g) : d.bit f = e.bit g := congrArg (fun k => decide (k ≠ 0)) h

theorem Dev.bit_of_get_one {d : Dev} {f : Fld} (h : d.get f = 1) : d.bit f = true := by simp [Dev.bit, h]

theorem Dev.bit_setB_same (d : Dev) (f : Fld) (b : Bool) (hw : f.w = 1) (h : f.lo + f.w ≤ 32) : (d.setB f b).bit f = b := by
  cases b <;> simp [Dev.bit, Dev.setB, Dev.get_set_same _ _ _ h, hw]

/-- A bit of a field, as a field of its own. -/
theorem Dev.testBit_get (d : Dev) (f : Fld) (i : Nat) (hi : i < f.w) : Nat.testBit (d.get f) i = d.bit ⟨f.reg, f.lo + i, 1⟩ := by
  rw [Dev.get, Fld.of, Nat.testBit_mod_two_pow, Nat.testBit_div_two_pow, Nat.testBit_eq_decide_div_mod_eq, Nat.add_comm i]
  simp [Dev.bit, Dev.get, Fld.of, hi]

theorem Dev.pair_eq {d : Dev} {lo hi v : Nat} (hlo : d.rd lo = BitVec.ofNat 32 v) (hhi : d.rd hi = BitVec.ofNat 32 (v / 2 ^ 32)) (hv : v < 2 ^ 64) :
    d.pair lo hi = v := by
  simp only [Dev.pair, hlo, hhi, BitVec.toNat_ofNat]
  omega

theorem Dev.rd_wrPair_lo (d : Dev) (lo hi v : Nat) (hne : lo ≠ hi) : (d.wrPair lo hi v).rd lo = BitVec.ofNat 32 v := by
  rw [Dev.wrPair, Dev.rd_wr_ne _ _ _ _ hne, Dev.rd_wr_same]

theorem Dev.rd_wrPair_hi (d : Dev) (lo hi v : Nat) : (d.wrPair lo hi v).rd hi = BitVec.ofNat 32 (v / 2 ^ 32) := Dev.rd_wr_same _ _ _

theorem Dev.pair_wrPair_same (d : Dev) (lo hi v : Nat) (hne : lo ≠ hi) (hv : v < 2 ^ 64) : (d.wrPair lo hi v).pair lo hi = v :=
  Dev.pair_eq (d.rd_wrPair_lo lo hi v hne) (d.rd_wrPair_hi lo hi v) hv

theorem Dev.rd_wrPair_ne (d : Dev) (lo hi v a : Nat) (hlo : a ≠ lo) (hhi : a ≠ hi) : (d.wrPair lo hi v).rd a = d.rd a := by
  rw [Dev.wrPair, Dev.rd_wr_ne _ _ _ _ hhi, Dev.rd_wr_ne _ _ _ _ hlo]

theorem Dev.event_congr {d e : Dev} (hp : d.pos = e.pos) (ht : d.time = e.time) (k : EvKind) (bar : Nat) (ep : Option Nat) (l : List Nat) :
    d.event k bar ep l = e.event k bar ep l := by
  simp only [Dev.event, hp, ht]

/-! ### What a unit writes -/

/-- The registers that the operations of a unit write. -/
def crcWrites (n : Fin 8) : List Nat :=
  [Reg.CRC_STATUS, Reg.CRC_U_STATUS n, Reg.CRC_U_VALUE_LO n, Reg.CRC_U_VALUE_HI n, Reg.CRC_U_RESULT_LO n, Reg.CRC_U_RESULT_HI n, Reg.CRC_U_COUNT n]

/-- From `d` to `e` a unit has worked: of the registers only its own have changed, and beside the registers only its start time, the records
raised and the interrupts signalled. -/
structure Dev.CrcFrame (n : Fin 8) (d e : Dev) : Prop where
  rd : ∀ a, a ∉ crcWrites n → e.rd a = d.rd a
  rest : e = { d with regs := e.regs, crcAt := e.crcAt, raised := e.raised, sigs := e.sigs }

namespace Dev.CrcFrame
variable {n : Fin 8} {d e f : Dev}

theorem refl (n : Fin 8) (d : Dev) : d.CrcFrame n d := ⟨fun _ _ => rfl, rfl⟩

theorem trans (h : d.CrcFrame n e) (h' : e.CrcFrame n f) : d.CrcFrame n f :=
  ⟨fun a ha => (h'.rd a ha).trans (h.rd a ha),
    h'.rest.trans (congrArg (fun x : Dev => { x with regs := f.regs, crcAt := f.crcAt, raised := f.raised, sigs := f.sigs }) h.rest)⟩

theorem wr (h : d.CrcFrame n e) {a : Nat} (ha : a ∈ crcWrites n) (v : Word) : d.CrcFrame n (e.wr a v) :=
  h.trans ⟨fun _ hb => Dev.rd_wr_ne _ _ _ _ (fun hba => hb (hba ▸ ha)), rfl⟩

theorem set (h : d.CrcFrame n e) {g : Fld} (hg : g.reg ∈ crcWrites n) (v : Nat) : d.CrcFrame n (e.set g v) := h.wr hg _

theorem wrPair (h : d.CrcFrame n e) {lo hi : Nat} (hlo : lo ∈ crcWrites n) (hhi : hi ∈ crcWrites n) (v : Nat) :
    d.CrcFrame n (e.wrPair lo hi v) := (h.wr hlo _).wr hhi _

theorem setCrcRun (h : d.CrcFrame n e) (r : Bool) : d.CrcFrame n (e.setCrcRun n r) :=
  (h.set (g := F.CRC_U_STATUS_RUN n) (by simp [crcWrites, F.CRC_U_STATUS_RUN]) _).set (by simp [crcWrites]) _

/-- A register beside those that a unit writes. -/
theorem get (h : d.CrcFrame n e) {g : Fld} (hg : g.reg ∉ crcWrites n) : e.get g = d.get g := congrArg g.of (h.rd g.reg hg)

/-! The rest of the device, as far as a unit looks at it. -/

theorem eff (h : d.CrcFrame n e) : e.eff = d.eff := (congrArg Dev.eff h.rest :)
theorem sys (h : d.CrcFrame n e) : e.sys = d.sys := (congrArg Dev.sys h.rest :)
theorem frz (h : d.CrcFrame n e) : e.frz = d.frz := (congrArg Dev.frz h.rest :)
theorem doms (h : d.CrcFrame n e) : e.doms = d.doms := (congrArg Dev.doms h.rest :)
theorem boot (h : d.CrcFrame n e) : e.boot = d.boot := (congrArg Dev.boot h.rest :)
theorem pos (h : d.CrcFrame n e) : e.pos = d.pos := (congrArg Dev.pos h.rest :)
theorem time (h : d.CrcFrame n e) : e.time = d.time := (congrArg Dev.time h.rest :)

theorem event (h : d.CrcFrame n e) (k : EvKind) (l : List Nat) : e.event k 15 none l = d.event k 15 none l :=
  Dev.event_congr h.pos h.time k 15 none l

/-- A unit's parameters, and what else it looks at, are not what it writes. -/
theorem notMem_crcWrites (n : Fin 8) :
    ∀ a ∈ [Reg.CRC_U_CFG n, Reg.CRC_U_LEN n, Reg.DRC_CAP_LO, Reg.DRC_CAP_HI, Reg.RPC_CLK], a ∉ crcWrites n := by
  revert n
  decide

theorem get_cfg (h : d.CrcFrame n e) (lo w : Nat) : e.get ⟨Reg.CRC_U_CFG n, lo, w⟩ = d.get ⟨Reg.CRC_U_CFG n, lo, w⟩ :=
  h.get (notMem_crcWrites n _ (by simp))

theorem bit_cfg (h : d.CrcFrame n e) (lo w : Nat) : e.bit ⟨Reg.CRC_U_CFG n, lo, w⟩ = d.bit ⟨Reg.CRC_U_CFG n, lo, w⟩ :=
  Dev.bit_congr (h.get_cfg lo w)

theorem crcW (h : d.CrcFrame n e) : e.crcW n = d.crcW n := congrArg (· + 1) (h.get_cfg _ _)

theorem crcSrc (h : d.CrcFrame n e) : e.crcSrc n = d.crcSrc n := congrArg (· % 3) (h.get_cfg _ _)

theorem crcLen (h : d.CrcFrame n e) : e.crcLen n = d.crcLen n := h.get (notMem_crcWrites n _ (by simp [F.CRC_U_LEN_BYTES]))

theorem effPair (h : d.CrcFrame n e) (lo hi : Nat) : e.effPair lo hi = d.effPair lo hi := by simp only [Dev.effPair, Dev.effRd, h.eff]

theorem crcPair (h : d.CrcFrame n e) (lo hi : Nat) : e.crcPair n lo hi = d.crcPair n lo hi := by
  simp only [Dev.crcPair, h.effPair, h.crcW]

theorem crcAddr (h : d.CrcFrame n e) : e.crcAddr n = d.crcAddr n := h.effPair _ _

theorem cap (h : d.CrcFrame n e) : e.cap = d.cap := by
  simp only [Dev.cap, Dev.pair, h.rd _ (notMem_crcWrites n _ (by simp : Reg.DRC_CAP_LO ∈ _)), h.rd _ (notMem_crcWrites n _ (by simp : Reg.DRC_CAP_HI ∈ _))]

theorem clkGood (h : d.CrcFrame n e) : e.clkGood = d.clkGood := by
  funext k
  simp only [Dev.clkGood, h.get (g := F.RPC_CLK_GOOD) (notMem_crcWrites n _ (by simp [F.RPC_CLK_GOOD]))]

theorem live (h : d.CrcFrame n e) (p : Fin 12) : e.live p = d.live p := by
  simp only [Dev.live, Dev.runs, Dev.clocked, Dev.ticking, h.doms, h.sys, h.frz, h.clkGood]

theorem reaches (h : d.CrcFrame n e) (b : Nat) : e.reaches b = d.reaches b := by
  simp only [Dev.reaches, Dev.on, h.live, h.frz, h.sys]

end Dev.CrcFrame
end Sys2Proof.Machine
end

section
/-!
R404 to R407: what each operation of a check-value unit leaves in the registers.
-/
namespace Sys2Proof.Machine
variable (d : Dev) (n : Fin 8)

/-- The registers in which a unit's numbers stand. -/
def crcNumbers (n : Fin 8) : List Nat :=
  [Reg.CRC_U_VALUE_LO n, Reg.CRC_U_VALUE_HI n, Reg.CRC_U_RESULT_LO n, Reg.CRC_U_RESULT_HI n, Reg.CRC_U_COUNT n]

theorem crcNumbers_ne (n : Fin 8) : ∀ a ∈ crcNumbers n, a ≠ Reg.CRC_STATUS ∧ a ≠ Reg.CRC_U_STATUS n := by
  revert n
  decide

theorem mem_crcNumbers_of_value {n : Fin 8} {a : Nat} (ha : a ∈ [Reg.CRC_U_VALUE_LO n, Reg.CRC_U_VALUE_HI n]) : a ∈ crcNumbers n :=
  List.mem_append_left [Reg.CRC_U_RESULT_LO n, Reg.CRC_U_RESULT_HI n, Reg.CRC_U_COUNT n] ha

/-! ### The running bit, in STATUS of the unit and in CRC_STATUS -/

theorem Reg.CRC_U_STATUS_ne (n : Fin 8) : Reg.CRC_U_STATUS n ≠ Reg.CRC_STATUS := by
  simp only [Reg.CRC_U_STATUS, Reg.CRC_STATUS]
  omega

/-- The running bit leaves the unit's numbers. -/
theorem Dev.rd_setCrcRun (r : Bool) {a : Nat} (ha : a ∈ crcNumbers n) : (d.setCrcRun n r).rd a = d.rd a :=
  (Dev.rd_set_ne _ _ _ _ (crcNumbers_ne n a ha).1).trans (Dev.rd_set_ne _ _ _ _ (crcNumbers_ne n a ha).2)

/-- So does a flag of STATUS. -/
theorem Dev.rd_setFlag (lo w v : Nat) {a : Nat} (ha : a ∈ crcNumbers n) : (d.set ⟨Reg.CRC_U_STATUS n, lo, w⟩ v).rd a = d.rd a :=
  Dev.rd_set_ne _ _ _ _ (crcNumbers_ne n a ha).2

/-- The other fields of STATUS keep their values. -/
theorem Dev.get_setCrcRun (r : Bool) (lo w : Nat) (h : lo + w ≤ 31) :
    (d.setCrcRun n r).get ⟨Reg.CRC_U_STATUS n, lo, w⟩ = d.get ⟨Reg.CRC_U_STATUS n, lo, w⟩ :=
  (Dev.get_set_ne _ _ _ _ (Reg.CRC_U_STATUS_ne n)).trans (Dev.get_set_disj _ _ _ _ rfl (Nat.le_succ_of_le h) (.inr h))

@[simp] theorem Dev.crcRun_setCrcRun (r : Bool) : (d.setCrcRun n r).crcRun n = r := by
  have hother : (d.setCrcRun n r).get (F.CRC_U_STATUS_RUN n) = (d.setB (F.CRC_U_STATUS_RUN n) r).get (F.CRC_U_STATUS_RUN n) :=
    Dev.get_set_ne _ _ _ _ (Reg.CRC_U_STATUS_ne n)
  rw [Dev.crcRun, Dev.bit, hother]
  exact Dev.bit_setB_same d (F.CRC_U_STATUS_RUN n) r rfl (Nat.le_refl 32)

@[simp] theorem Dev.testBit_setCrcRun (r : Bool) : Nat.testBit ((d.setCrcRun n r).get F.CRC_STATUS_RUN) n = r := by
  rw [Dev.testBit_get _ F.CRC_STATUS_RUN n n.isLt]
  simp only [F.CRC_STATUS_RUN, Nat.zero_add, Dev.setCrcRun]
  exact Dev.bit_setB_same _ ⟨Reg.CRC_STATUS, n, 1⟩ r rfl (by simp only; omega)

/-! ### Feeding -/

theorem Dev.crcW_le : d.crcW n ≤ 64 := by
  have h : d.get (F.CRC_U_CFG_WIDTH n) < 2 ^ 6 := Nat.mod_lt _ (Nat.two_pow_pos 6)
  simp only [Dev.crcW]
  omega

theorem Dev.lt_of_lt_crcW {r : Nat} (h : r < 2 ^ d.crcW n) : r < 2 ^ 64 :=
  Nat.lt_of_lt_of_le h (Nat.pow_le_pow_right (by decide) (d.crcW_le n))

theorem Dev.crcValue_lt : d.crcValue n < 2 ^ d.crcW n := Nat.mod_lt _ (Nat.two_pow_pos _)

theorem Dev.crcPair_lt (lo hi : Nat) : d.crcPair n lo hi < 2 ^ d.crcW n := Nat.mod_lt _ (Nat.two_pow_pos _)

/-- r after bytes (R404). -/
def Dev.crcAfter (r : Nat) (bs : List (BitVec 8)) : Nat :=
  crcBits (d.crcW n) (d.crcPair n (Reg.CRC_U_POLY_LO n) (Reg.CRC_U_POLY_HI n)) r (byteBits (d.bit (F.CRC_U_CFG_REFIN n)) bs)

theorem Dev.crcAfter_lt {r : Nat} (h : r < 2 ^ d.crcW n) (bs : List (BitVec 8)) : d.crcAfter n r bs < 2 ^ d.crcW n :=
  crcBits_lt _ _ _ r h

theorem Dev.crcFeed_eq (bs : List (BitVec 8)) :
    d.crcFeed n bs = (d.wrPair (Reg.CRC_U_VALUE_LO n) (Reg.CRC_U_VALUE_HI n) (d.crcAfter n (d.crcValue n) bs)).add (F.CRC_U_COUNT_BYTES n) bs.length :=
  rfl

theorem Dev.crcFeed_frame (bs : List (BitVec 8)) : d.CrcFrame n (d.crcFeed n bs) :=
  ((Dev.CrcFrame.refl n d).wrPair (by simp [crcWrites]) (by simp [crcWrites]) _).set (by simp [crcWrites, F.CRC_U_COUNT_BYTES]) _

/-- A pair of VALUE that holds a number of the unit's width is r. -/
theorem Dev.crcValue_eq {d e : Dev} {n : Fin 8} (hf : d.CrcFrame n e) {r : Nat} (hr : r < 2 ^ d.crcW n)
    (hp : e.pair (Reg.CRC_U_VALUE_LO n) (Reg.CRC_U_VALUE_HI n) = r) : e.crcValue n = r := by
  rw [Dev.crcValue, hp, hf.crcW, Nat.mod_eq_of_lt hr]

/-- VALUE unchanged is r unchanged. -/
theorem Dev.crcValue_congr {d e : Dev} {n : Fin 8} (hf : d.CrcFrame n e)
    (h : ∀ a ∈ [Reg.CRC_U_VALUE_LO n, Reg.CRC_U_VALUE_HI n], e.rd a = d.rd a) : e.crcValue n = d.crcValue n := by
  simp only [Dev.crcValue, Dev.pair, hf.crcW, h _ (List.mem_cons_self ..), h _ (List.mem_cons_of_mem _ (List.mem_cons_self ..))]

theorem Dev.crcValue_crcFeed (bs : List (BitVec 8)) : (d.crcFeed n bs).crcValue n = d.crcAfter n (d.crcValue n) bs := by
  have hr := d.crcAfter_lt n (d.crcValue_lt n) bs
  refine Dev.crcValue_eq (d.crcFeed_frame n bs) hr ?_
  rw [Dev.crcFeed_eq, Dev.add, Dev.pair, Dev.rd_set_ne _ _ _ _ (by simp [F.CRC_U_COUNT_BYTES, Reg.CRC_U_COUNT, Reg.CRC_U_VALUE_LO]),
    Dev.rd_set_ne _ _ _ _ (by simp [F.CRC_U_COUNT_BYTES, Reg.CRC_U_COUNT, Reg.CRC_U_VALUE_HI])]
  exact Dev.pair_wrPair_same d _ _ _ (by simp [Reg.CRC_U_VALUE_LO, Reg.CRC_U_VALUE_HI]) (d.lt_of_lt_crcW n hr)

theorem Dev.count_crcFeed (bs : List (BitVec 8)) :
    (d.crcFeed n bs).get (F.CRC_U_COUNT_BYTES n) = (d.get (F.CRC_U_COUNT_BYTES n) + bs.length) % 2 ^ 32 := by
  have hcount : ∀ v, (d.wrPair (Reg.CRC_U_VALUE_LO n) (Reg.CRC_U_VALUE_HI n) v).get (F.CRC_U_COUNT_BYTES n) = d.get (F.CRC_U_COUNT_BYTES n) := fun v =>
    congrArg (F.CRC_U_COUNT_BYTES n).of (Dev.rd_wrPair_ne d _ _ v _
      (by simp [F.CRC_U_COUNT_BYTES, Reg.CRC_U_COUNT, Reg.CRC_U_VALUE_LO]) (by simp [F.CRC_U_COUNT_BYTES, Reg.CRC_U_COUNT, Reg.CRC_U_VALUE_HI]))
  rw [Dev.crcFeed_eq, Dev.add, Dev.get_set_same _ _ _ (by simp [F.CRC_U_COUNT_BYTES]), hcount]
  rfl

/-! ### The end -/

/-- What an end makes of r (R404). -/
def Dev.crcResult (r : Nat) : Nat :=
  Nat.xor (if d.bit (F.CRC_U_CFG_REFOUT n) then reflect (d.crcW n) r else r) (d.crcPair n (Reg.CRC_U_XOROUT_LO n) (Reg.CRC_U_XOROUT_HI n))

theorem Dev.crcResult_lt {r : Nat} (h : r < 2 ^ d.crcW n) : d.crcResult n r < 2 ^ d.crcW n := by
  refine Nat.xor_lt_two_pow ?_ (d.crcPair_lt n _ _)
  split
  · exact reflect_lt _ r
  · exact h

/-- A unit that stops with a result, before the comparison. -/
def Dev.crcEnding (x : Nat) : Dev :=
  ((d.wrPair (Reg.CRC_U_RESULT_LO n) (Reg.CRC_U_RESULT_HI n) x).set (F.CRC_U_STATUS_DONE n) 1).setCrcRun n false

theorem Dev.crcEnding_frame (x : Nat) : d.CrcFrame n (d.crcEnding n x) :=
  (((Dev.CrcFrame.refl n d).wrPair (by simp [crcWrites]) (by simp [crcWrites]) _).set (by simp [crcWrites, F.CRC_U_STATUS_DONE]) _).setCrcRun _

/-- What an end compares, CMP_EN and EXPECT, it does not write itself. -/
theorem Dev.crcEnding_compares (x : Nat) : (d.crcEnding n x).bit (F.CRC_U_CFG_CMP_EN n) = d.bit (F.CRC_U_CFG_CMP_EN n) ∧
    ∀ lo hi, (d.crcEnding n x).crcPair n lo hi = d.crcPair n lo hi :=
  ⟨(d.crcEnding_frame n x).bit_cfg 10 1, (d.crcEnding_frame n x).crcPair⟩

/-- The comparison at an end (R406), of a result with EXPECT: flags, record and interrupt. -/
def Dev.crcCompare (x : Nat) : Dev :=
  let differs := d.bit (F.CRC_U_CFG_CMP_EN n) && !decide (x = d.crcPair n (Reg.CRC_U_EXPECT_LO n) (Reg.CRC_U_EXPECT_HI n))
  let e := d.setB ⟨Reg.CRC_STATUS, 8 + n, 1⟩ differs
  if differs then
    let f := (e.set (F.CRC_U_STATUS_MISMATCH n) 1).raise Ev.CRC_MISMATCH 15 none [n.val, x % 2 ^ 32, x / 2 ^ 32]
    if d.get (F.CRC_U_CFG_IRQ n) = 0 then f else f.signal (f.get (F.CRC_U_CFG_VEC n))
  else
    let f := if d.bit (F.CRC_U_CFG_CMP_EN n) then e.set (F.CRC_U_STATUS_MATCH n) 1 else e
    if 2 ≤ d.get (F.CRC_U_CFG_IRQ n) then f.signal (f.get (F.CRC_U_CFG_VEC n)) else f

theorem Dev.crcEnd_eq : d.crcEnd n = (d.crcEnding n (d.crcResult n (d.crcValue n))).crcCompare n (d.crcResult n (d.crcValue n)) := rfl

theorem Dev.crcCompare_of_eq (x : Nat) (hc : d.bit (F.CRC_U_CFG_CMP_EN n) = true)
    (hx : x = d.crcPair n (Reg.CRC_U_EXPECT_LO n) (Reg.CRC_U_EXPECT_HI n)) :
    (d.crcCompare n x).regs = ((d.setB ⟨Reg.CRC_STATUS, 8 + n, 1⟩ false).set (F.CRC_U_STATUS_MATCH n) 1).regs ∧
      (d.crcCompare n x).raised = d.raised := by
  simp [Dev.crcCompare, hc, ← hx, apply_ite Dev.regs, apply_ite Dev.raised, Dev.setB]

theorem Dev.crcCompare_of_ne (x : Nat) (hc : d.bit (F.CRC_U_CFG_CMP_EN n) = true)
    (hx : x ≠ d.crcPair n (Reg.CRC_U_EXPECT_LO n) (Reg.CRC_U_EXPECT_HI n)) :
    (d.crcCompare n x).regs = ((d.setB ⟨Reg.CRC_STATUS, 8 + n, 1⟩ true).set (F.CRC_U_STATUS_MISMATCH n) 1).regs ∧
      (d.crcCompare n x).raised = d.raised ++ [d.event Ev.CRC_MISMATCH 15 none [n.val, x % 2 ^ 32, x / 2 ^ 32]] := by
  simp only [Dev.crcCompare, hc, decide_eq_false hx, Bool.not_false, Bool.and_true, if_true, apply_ite Dev.regs, apply_ite Dev.raised,
    Dev.signal_regs, Dev.signal_raised, ite_self]
  exact ⟨rfl, rfl⟩

theorem Dev.crcCompare_of_none (x : Nat) (hc : d.bit (F.CRC_U_CFG_CMP_EN n) = false) :
    (d.crcCompare n x).regs = (d.setB ⟨Reg.CRC_STATUS, 8 + n, 1⟩ false).regs := by
  simp [Dev.crcCompare, hc, apply_ite Dev.regs]

/-- Beside its bit in CRC_STATUS a comparison writes nothing, or one of two flags of STATUS. -/
theorem Dev.crcCompare_regs (x : Nat) : ∃ b : Bool, let e := d.setB ⟨Reg.CRC_STATUS, 8 + n, 1⟩ b
    (d.crcCompare n x).regs = e.regs ∨ ∃ lo, lo + 1 ≤ 30 ∧ (d.crcCompare n x).regs = (e.set ⟨Reg.CRC_U_STATUS n, lo, 1⟩ 1).regs := by
  by_cases hc : d.bit (F.CRC_U_CFG_CMP_EN n) = true
  · by_cases hx : x = d.crcPair n (Reg.CRC_U_EXPECT_LO n) (Reg.CRC_U_EXPECT_HI n)
    · exact ⟨false, .inr ⟨29, Nat.le_refl 30, (d.crcCompare_of_eq n x hc hx).1⟩⟩
    · exact ⟨true, .inr ⟨28, Nat.le_succ 29, (d.crcCompare_of_ne n x hc hx).1⟩⟩
  · exact ⟨false, .inl (d.crcCompare_of_none n x (Bool.eq_false_iff.2 hc))⟩

/-- From `d` to `e` nothing has changed but flags of the unit: lower bits of its STATUS, and bits of CRC_STATUS other than its running bit. -/
structure Dev.CrcFlagsOnly (n : Fin 8) (d e : Dev) : Prop where
  rd : ∀ a, a ≠ Reg.CRC_STATUS → a ≠ Reg.CRC_U_STATUS n → e.rd a = d.rd a
  high : ∀ lo w, 30 ≤ lo → lo + w ≤ 32 → e.get ⟨Reg.CRC_U_STATUS n, lo, w⟩ = d.get ⟨Reg.CRC_U_STATUS n, lo, w⟩
  running : Nat.testBit (e.get F.CRC_STATUS_RUN) n = Nat.testBit (d.get F.CRC_STATUS_RUN) n

theorem Dev.CrcFlagsOnly.trans {n : Fin 8} {d e f : Dev} (h : d.CrcFlagsOnly n e) (h' : e.CrcFlagsOnly n f) : d.CrcFlagsOnly n f :=
  ⟨fun a hs hu => (h'.rd a hs hu).trans (h.rd a hs hu), fun lo w hlo hw => (h'.high lo w hlo hw).trans (h.high lo w hlo hw),
    h'.running.trans h.running⟩

theorem Dev.CrcFlagsOnly.of_regs {n : Fin 8} {d e : Dev} (h : e.regs = d.regs) : d.CrcFlagsOnly n e :=
  ⟨fun a _ _ => Dev.rd_congr h a, fun _ _ _ _ => Dev.get_congr h _, congrArg (Nat.testBit · n) (Dev.get_congr h _)⟩

theorem Dev.crcFlagsOnly_set (lo v : Nat) (h : lo + 1 ≤ 30) : d.CrcFlagsOnly n (d.set ⟨Reg.CRC_U_STATUS n, lo, 1⟩ v) :=
  ⟨fun _ _ hu => Dev.rd_set_ne _ _ _ _ hu, fun _ _ hlo hw => Dev.get_set_disj _ _ _ _ rfl hw (.inl (Nat.le_trans h hlo)),
    congrArg (Nat.testBit · n) (Dev.get_set_ne _ _ _ _ (Reg.CRC_U_STATUS_ne n).symm)⟩

theorem Dev.crcFlagsOnly_setB (b : Bool) : d.CrcFlagsOnly n (d.setB ⟨Reg.CRC_STATUS, 8 + n, 1⟩ b) where
  rd _ hs _ := Dev.rd_set_ne _ _ _ _ hs
  high _ _ _ _ := Dev.get_set_ne _ _ _ _ (Reg.CRC_U_STATUS_ne n)
  running := by
    rw [Dev.testBit_get _ F.CRC_STATUS_RUN n n.isLt, Dev.testBit_get _ F.CRC_STATUS_RUN n n.isLt]
    refine Dev.bit_congr (Dev.get_set_disj _ _ _ _ rfl ?_ (.inr ?_))
    · simp only [F.CRC_STATUS_RUN]
      omega
    · simp only [F.CRC_STATUS_RUN]
      omega

theorem Dev.crcCompare_flagsOnly (x : Nat) : d.CrcFlagsOnly n (d.crcCompare n x) := by
  obtain ⟨b, h | ⟨lo, hlo, h⟩⟩ := d.crcCompare_regs n x
  · exact (d.crcFlagsOnly_setB n b).trans (.of_regs h)
  · exact ((d.crcFlagsOnly_setB n b).trans (Dev.crcFlagsOnly_set _ n lo 1 hlo)).trans (.of_regs h)

theorem Dev.crcEnd_flagsOnly : (d.crcEnding n (d.crcResult n (d.crcValue n))).CrcFlagsOnly n (d.crcEnd n) := by
  rw [d.crcEnd_eq n]
  exact Dev.crcCompare_flagsOnly _ n _

theorem Dev.crcEnd_stopped : (d.crcEnd n).crcRun n = false ∧ Nat.testBit ((d.crcEnd n).get F.CRC_STATUS_RUN) n = false := by
  have h := d.crcEnd_flagsOnly n
  refine ⟨?_, h.running.trans (Dev.testBit_setCrcRun _ n false)⟩
  exact (Dev.bit_congr (h.high 31 1 (by decide) (by decide))).trans (Dev.crcRun_setCrcRun _ n false)

theorem Dev.crcEnd_done : (d.crcEnd n).bit (F.CRC_U_STATUS_DONE n) = true := by
  have h := d.crcEnd_flagsOnly n
  refine Dev.bit_of_get_one ((h.high 30 1 (Nat.le_refl 30) (by decide)).trans ?_)
  exact (Dev.get_setCrcRun _ n false 30 1 (Nat.le_refl 31)).trans (Dev.get_set_same _ _ _ (Nat.le_succ 31))

/-- RESULT, its two words. -/
theorem Dev.crcEnd_words : (d.crcEnd n).rd (Reg.CRC_U_RESULT_LO n) = BitVec.ofNat 32 (d.crcResult n (d.crcValue n)) ∧
    (d.crcEnd n).rd (Reg.CRC_U_RESULT_HI n) = BitVec.ofNat 32 (d.crcResult n (d.crcValue n) / 2 ^ 32) := by
  have h := d.crcEnd_flagsOnly n
  generalize d.crcResult n (d.crcValue n) = x at h ⊢
  have keep : ∀ a ∈ crcNumbers n, (d.crcEnd n).rd a = (d.wrPair (Reg.CRC_U_RESULT_LO n) (Reg.CRC_U_RESULT_HI n) x).rd a := fun a ha => by
    obtain ⟨hs, hu⟩ := crcNumbers_ne n a ha
    rw [h.rd a hs hu, Dev.crcEnding, Dev.rd_setCrcRun _ _ _ ha]
    exact Dev.rd_setFlag _ n 30 1 1 ha
  rw [keep _ (by simp [crcNumbers]), keep _ (by simp [crcNumbers])]
  exact ⟨Dev.rd_wrPair_lo d _ _ x (by simp [Reg.CRC_U_RESULT_LO, Reg.CRC_U_RESULT_HI]), Dev.rd_wrPair_hi d _ _ x⟩

theorem Dev.pair_crcEnd : (d.crcEnd n).pair (Reg.CRC_U_RESULT_LO n) (Reg.CRC_U_RESULT_HI n) = d.crcResult n (d.crcValue n) :=
  Dev.pair_eq (d.crcEnd_words n).1 (d.crcEnd_words n).2 (d.lt_of_lt_crcW n (d.crcResult_lt n (d.crcValue_lt n)))

theorem Dev.crcEnd_of_eq (hc : d.bit (F.CRC_U_CFG_CMP_EN n) = true)
    (hx : d.crcResult n (d.crcValue n) = d.crcPair n (Reg.CRC_U_EXPECT_LO n) (Reg.CRC_U_EXPECT_HI n)) :
    (d.crcEnd n).bit (F.CRC_U_STATUS_MATCH n) = true ∧ (d.crcEnd n).raised = d.raised := by
  obtain ⟨hcmp, hexp⟩ := d.crcEnding_compares n (d.crcResult n (d.crcValue n))
  obtain ⟨hregs, hraised⟩ := Dev.crcCompare_of_eq _ n _ (hcmp.trans hc) (hx.trans (hexp _ _).symm)
  rw [d.crcEnd_eq n]
  exact ⟨Dev.bit_of_get_one ((Dev.get_congr hregs _).trans (Dev.get_set_same _ _ _ (by simp [F.CRC_U_STATUS_MATCH]))), hraised⟩

theorem Dev.crcEnd_of_ne (hc : d.bit (F.CRC_U_CFG_CMP_EN n) = true)
    (hx : d.crcResult n (d.crcValue n) ≠ d.crcPair n (Reg.CRC_U_EXPECT_LO n) (Reg.CRC_U_EXPECT_HI n)) :
    (d.crcEnd n).bit (F.CRC_U_STATUS_MISMATCH n) = true ∧ (d.crcEnd n).raised = d.raised ++
      [d.event Ev.CRC_MISMATCH 15 none [n.val, d.crcResult n (d.crcValue n) % 2 ^ 32, d.crcResult n (d.crcValue n) / 2 ^ 32]] := by
  obtain ⟨hcmp, hexp⟩ := d.crcEnding_compares n (d.crcResult n (d.crcValue n))
  obtain ⟨hregs, hraised⟩ := Dev.crcCompare_of_ne _ n _ (hcmp.trans hc) (fun h => hx (h.trans (hexp _ _)))
  rw [d.crcEnd_eq n]
  exact ⟨Dev.bit_of_get_one ((Dev.get_congr hregs _).trans (Dev.get_set_same _ _ _ (by simp [F.CRC_U_STATUS_MISMATCH]))), hraised⟩

/-! ### Stopping before the end -/

theorem Dev.crcFail_regs (err : Nat) : (d.crcFail n err).regs = ((d.set (F.CRC_U_STATUS_ERR n) err).setCrcRun n false).regs := by
  simp only [Dev.crcFail, apply_ite Dev.regs, Dev.signal_regs, Dev.raise_regs, ite_self]

theorem Dev.crcFail_raised (err : Nat) : (d.crcFail n err).raised = d.raised ++ [d.event Ev.CRC_ERROR 15 none [n.val, err]] := by
  simp only [Dev.crcFail, apply_ite Dev.raised, Dev.signal_raised, ite_self]
  rfl

theorem Dev.crcRun_crcFail (err : Nat) : (d.crcFail n err).crcRun n = false :=
  (Dev.bit_congr (Dev.get_congr (d.crcFail_regs n err) _)).trans (Dev.crcRun_setCrcRun _ n false)

theorem Dev.err_crcFail (err : Nat) : (d.crcFail n err).get (F.CRC_U_STATUS_ERR n) = err % 8 := by
  rw [Dev.get_congr (d.crcFail_regs n err)]
  exact (Dev.get_setCrcRun _ n false 24 3 (by decide)).trans (Dev.get_set_same _ _ _ (by simp [F.CRC_U_STATUS_ERR]))

/-- A stream unit stopped by ABORT: the flag is set, and r stays (R406). -/
def Dev.crcAborted : Dev := (d.set (F.CRC_U_STATUS_ABORTED n) 1).setCrcRun n false

theorem Dev.crcAborted_frame : d.CrcFrame n (d.crcAborted n) :=
  ((Dev.CrcFrame.refl n d).set (by simp [crcWrites, F.CRC_U_STATUS_ABORTED]) _).setCrcRun _

theorem Dev.crcAbort_stream (hrun : d.crcRun n = true) (hsrc : d.crcSrc n = 0) (k : Nat) (bs : List (BitVec 8)) :
    d.crcAbort n k bs = d.crcAborted n := by
  simp [Dev.crcAbort, hrun, hsrc, Dev.crcAborted]

theorem Dev.crcAborted_flag : (d.crcAborted n).bit (F.CRC_U_STATUS_ABORTED n) = true :=
  Dev.bit_of_get_one ((Dev.get_setCrcRun _ n false 27 1 (by decide)).trans (Dev.get_set_same _ _ _ (by simp [F.CRC_U_STATUS_ABORTED])))

theorem Dev.crcValue_crcAborted : (d.crcAborted n).crcValue n = d.crcValue n := by
  refine Dev.crcValue_congr (d.crcAborted_frame n) fun a ha => ?_
  have hnum := mem_crcNumbers_of_value ha
  exact (Dev.rd_setCrcRun _ n false hnum).trans (Dev.rd_setFlag d n 27 1 1 hnum)

/-! ### Starting -/

/-- The flags that a start clears (R406). -/
def crcFlags : List Fld :=
  [F.CRC_U_STATUS_DONE n, F.CRC_U_STATUS_MATCH n, F.CRC_U_STATUS_MISMATCH n, F.CRC_U_STATUS_ABORTED n, F.CRC_U_STATUS_ERR n]

def Dev.crcCleared : Dev := (crcFlags n).foldl (fun (d : Dev) f => d.set f 0) d

theorem crcFlags_below {f : Fld} (hf : f ∈ crcFlags n) : f.reg = Reg.CRC_U_STATUS n ∧ f.lo + f.w ≤ 31 := by
  simp only [crcFlags, List.mem_cons, List.not_mem_nil, or_false] at hf
  rcases hf with rfl | rfl | rfl | rfl | rfl <;> exact ⟨rfl, Nat.le_of_ble_eq_true rfl⟩

theorem Dev.get_crcCleared {f : Fld} (hf : f ∈ crcFlags n) : (d.crcCleared n).get f = 0 := by
  simp only [crcFlags, List.mem_cons, List.not_mem_nil, or_false] at hf
  rcases hf with rfl | rfl | rfl | rfl | rfl <;>
    simp [Dev.crcCleared, crcFlags, Dev.get_set_same, Dev.get_set_disj, F.CRC_U_STATUS_DONE, F.CRC_U_STATUS_MATCH, F.CRC_U_STATUS_MISMATCH,
      F.CRC_U_STATUS_ABORTED, F.CRC_U_STATUS_ERR]

theorem Dev.rd_foldl_clear (a : Nat) (fs : List Fld) : ∀ d : Dev, (∀ f ∈ fs, a ≠ f.reg) →
    (fs.foldl (fun (d : Dev) f => d.set f 0) d).rd a = d.rd a := by
  induction fs with
  | nil => exact fun _ _ => rfl
  | cons f fs ih =>
    intro d h
    obtain ⟨hf, hfs⟩ := List.forall_mem_cons.1 h
    exact (ih _ hfs).trans (Dev.rd_set_ne _ _ _ _ hf)

theorem Dev.crcFrame_foldl_clear (fs : List Fld) : ∀ d : Dev, (∀ f ∈ fs, f.reg ∈ crcWrites n) →
    d.CrcFrame n (fs.foldl (fun (d : Dev) f => d.set f 0) d) := by
  induction fs with
  | nil => exact fun d _ => .refl n d
  | cons f fs ih =>
    intro d h
    obtain ⟨hf, hfs⟩ := List.forall_mem_cons.1 h
    exact ((Dev.CrcFrame.refl n d).set hf 0).trans (ih _ hfs)

/-- The start times of the units, written. -/
def Dev.withCrcAt (v : Vector Nat 8) : Dev := { d with crcAt := v }

theorem Dev.rd_withCrcAt (v : Vector Nat 8) (a : Nat) : (d.withCrcAt v).rd a = d.rd a := rfl

theorem Dev.withCrcAt_frame (v : Vector Nat 8) : d.CrcFrame n (d.withCrcAt v) := ⟨fun _ _ => rfl, rfl⟩

/-- The unit runs, its flags and COUNT cleared. -/
def Dev.crcReady : Dev := (((d.crcCleared n).set (F.CRC_U_COUNT_BYTES n) 0).setCrcRun n true).withCrcAt (d.crcAt.set n d.now)

theorem Dev.rd_crcReady (a : Nat) : (d.crcReady n).rd a = (((d.crcCleared n).set (F.CRC_U_COUNT_BYTES n) 0).setCrcRun n true).rd a :=
  Dev.rd_withCrcAt _ _ a

/-- GO loads r with INIT, RESUME starts from VALUE (R406). -/
def Dev.crcBegin (fresh : Bool) : Dev :=
  if fresh then (d.crcReady n).wrPair (Reg.CRC_U_VALUE_LO n) (Reg.CRC_U_VALUE_HI n)
    ((d.crcReady n).crcPair n (Reg.CRC_U_INIT_LO n) (Reg.CRC_U_INIT_HI n))
  else d.crcReady n

theorem Dev.crcBegin_go : d.crcBegin n true = (d.crcReady n).wrPair (Reg.CRC_U_VALUE_LO n) (Reg.CRC_U_VALUE_HI n)
    ((d.crcReady n).crcPair n (Reg.CRC_U_INIT_LO n) (Reg.CRC_U_INIT_HI n)) := if_pos rfl

theorem Dev.crcBegin_resume : d.crcBegin n false = d.crcReady n := if_neg Bool.false_ne_true

theorem Dev.crcReady_frame : d.CrcFrame n (d.crcReady n) := by
  have hclear : d.CrcFrame n (d.crcCleared n) :=
    d.crcFrame_foldl_clear n (crcFlags n) fun f hf => by simp [crcWrites, (crcFlags_below n hf).1]
  exact ((hclear.set (g := F.CRC_U_COUNT_BYTES n) (by simp [crcWrites, F.CRC_U_COUNT_BYTES]) 0).setCrcRun true).trans (Dev.withCrcAt_frame _ n _)

theorem Dev.crcBegin_frame (fresh : Bool) : d.CrcFrame n (d.crcBegin n fresh) := by
  cases fresh
  · rw [d.crcBegin_resume n]
    exact d.crcReady_frame n
  · rw [d.crcBegin_go n]
    exact (d.crcReady_frame n).wrPair (by simp [crcWrites]) (by simp [crcWrites]) _

/-- Beside VALUE a start from INIT leaves what one from VALUE leaves. -/
theorem Dev.get_crcBegin (fresh : Bool) (f : Fld) (hlo : f.reg ≠ Reg.CRC_U_VALUE_LO n) (hhi : f.reg ≠ Reg.CRC_U_VALUE_HI n) :
    (d.crcBegin n fresh).get f = (((d.crcCleared n).set (F.CRC_U_COUNT_BYTES n) 0).setCrcRun n true).get f := by
  cases fresh
  · rw [d.crcBegin_resume n]
    exact congrArg f.of (d.rd_crcReady n f.reg)
  · rw [d.crcBegin_go n]
    exact congrArg f.of ((Dev.rd_wrPair_ne _ _ _ _ f.reg hlo hhi).trans (d.rd_crcReady n f.reg))

/-- A write of VALUE leaves the unit's flags and COUNT. -/
theorem crcValue_ne (n : Fin 8) :
    ∀ a ∈ [Reg.CRC_STATUS, Reg.CRC_U_STATUS n, Reg.CRC_U_COUNT n], a ≠ Reg.CRC_U_VALUE_LO n ∧ a ≠ Reg.CRC_U_VALUE_HI n := by
  revert n
  decide

theorem Dev.crcBegin_running (fresh : Bool) :
    (d.crcBegin n fresh).crcRun n = true ∧ Nat.testBit ((d.crcBegin n fresh).get F.CRC_STATUS_RUN) n = true := by
  obtain ⟨hlo, hhi⟩ := crcValue_ne n (Reg.CRC_U_STATUS n) (by simp)
  obtain ⟨hlo', hhi'⟩ := crcValue_ne n Reg.CRC_STATUS (by simp)
  constructor
  · rw [Dev.crcRun, Dev.bit, d.get_crcBegin n fresh (F.CRC_U_STATUS_RUN n) hlo hhi]
    exact Dev.crcRun_setCrcRun _ n true
  · rw [d.get_crcBegin n fresh F.CRC_STATUS_RUN hlo' hhi']
    exact Dev.testBit_setCrcRun _ n true

theorem Dev.count_crcBegin (fresh : Bool) : (d.crcBegin n fresh).get (F.CRC_U_COUNT_BYTES n) = 0 := by
  obtain ⟨hlo, hhi⟩ := crcValue_ne n (Reg.CRC_U_COUNT n) (by simp)
  rw [d.get_crcBegin n fresh (F.CRC_U_COUNT_BYTES n) hlo hhi]
  refine (congrArg (F.CRC_U_COUNT_BYTES n).of (Dev.rd_setCrcRun _ n true (by simp [crcNumbers, F.CRC_U_COUNT_BYTES]))).trans ?_
  exact Dev.get_set_same _ (F.CRC_U_COUNT_BYTES n) 0 (Nat.le_refl 32)

theorem Dev.flag_crcBegin (fresh : Bool) {f : Fld} (hf : f ∈ crcFlags n) : (d.crcBegin n fresh).get f = 0 := by
  have hcount : Reg.CRC_U_STATUS n ≠ Reg.CRC_U_COUNT n := (crcNumbers_ne n _ (by simp [crcNumbers])).2.symm
  obtain ⟨hlo, hhi⟩ := crcValue_ne n (Reg.CRC_U_STATUS n) (by simp)
  obtain ⟨hreg, hbelow⟩ := crcFlags_below n hf
  have hzero := d.get_crcCleared n hf
  obtain ⟨a, lo, w⟩ := f
  simp only at hreg
  subst a
  rw [d.get_crcBegin n fresh _ hlo hhi, Dev.get_setCrcRun _ n true lo w hbelow, Dev.get_set_ne _ _ _ _ hcount, hzero]

/-- VALUE after a start. -/
theorem Dev.crcValue_crcBegin (fresh : Bool) : (d.crcBegin n fresh).crcValue n =
    if fresh then d.crcPair n (Reg.CRC_U_INIT_LO n) (Reg.CRC_U_INIT_HI n) else d.crcValue n := by
  cases fresh
  · rw [d.crcBegin_resume n, if_neg Bool.false_ne_true]
    refine Dev.crcValue_congr (d.crcReady_frame n) fun a ha => ?_
    have hnum := mem_crcNumbers_of_value ha
    have hcount : a ≠ Reg.CRC_U_COUNT n := fun h => by
      simp [h, Reg.CRC_U_COUNT, Reg.CRC_U_VALUE_LO, Reg.CRC_U_VALUE_HI] at ha
    rw [d.rd_crcReady n a]
    refine (Dev.rd_setCrcRun _ n true hnum).trans ((Dev.rd_set_ne _ _ _ _ hcount).trans (Dev.rd_foldl_clear a _ d fun f hf => ?_))
    rw [(crcFlags_below n hf).1]
    exact (crcNumbers_ne n a hnum).2
  · rw [if_pos rfl]
    refine Dev.crcValue_eq (d.crcBegin_frame n true) (d.crcPair_lt n _ _) ?_
    rw [d.crcBegin_go n]
    refine (Dev.pair_wrPair_same _ _ _ _ (by simp [Reg.CRC_U_VALUE_LO, Reg.CRC_U_VALUE_HI]) ?_).trans ((d.crcReady_frame n).crcPair _ _)
    exact Dev.lt_of_lt_crcW _ n (Dev.crcPair_lt _ n _ _)

/-- What becomes of a started unit (R405, R406): a stream runs, a DMA source whose range or domain is not there fails, one of no bytes ends. -/
def Dev.crcChecked : Dev :=
  if d.crcSrc n = 0 then d
  else if (if d.crcSrc n = 1 then d.cap else 2 ^ 25) < d.crcAddr n + d.crcLen n then d.crcFail n 1
  else if !d.crcSource n then d.crcFail n 2
  else if d.crcLen n = 0 then d.crcEnd n
  else d

/-- Where a unit starts (R378, R406): in the modes from IDLE to SAFE, and not while a BLOCK reset holds it. -/
def Dev.CrcOpen : Prop := 2 ≤ d.mode.code ∧ d.mode.code ≤ 9 ∧ d.unitHeld (0x10 + n.val) = false

theorem Dev.crcOpen_iff : (d.mode.code < 2 || 9 < d.mode.code || d.unitHeld (0x10 + n.val)) = false ↔ d.CrcOpen n := by
  simp only [Bool.or_eq_false_iff, decide_eq_false_iff_not, Nat.not_lt, Dev.CrcOpen, and_assoc]

theorem Dev.crcStart_of_run (fresh : Bool) (h : d.crcRun n = true) : d.crcStart n fresh = d.set (F.CRC_U_STATUS_WERR n) 1 := if_pos h

theorem Dev.crcStart_of_not_open (fresh : Bool) (hrun : d.crcRun n = false) (h : ¬ d.CrcOpen n) : d.crcStart n fresh = d := by
  rw [← d.crcOpen_iff, Bool.not_eq_false] at h
  rw [Dev.crcStart, if_neg (Bool.eq_false_iff.1 hrun), if_pos h]

theorem Dev.crcStart_of_open (fresh : Bool) (hrun : d.crcRun n = false) (h : d.CrcOpen n) : d.crcStart n fresh = (d.crcBegin n fresh).crcChecked n := by
  rw [← d.crcOpen_iff] at h
  rw [Dev.crcStart, if_neg (Bool.eq_false_iff.1 hrun), if_neg (Bool.eq_false_iff.1 h)]
  rfl

theorem Dev.crcStart_stream (fresh : Bool) (hrun : d.crcRun n = false) (h : d.CrcOpen n) (hsrc : d.crcSrc n = 0) :
    d.crcStart n fresh = d.crcBegin n fresh :=
  (d.crcStart_of_open n fresh hrun h).trans (if_pos (((d.crcBegin_frame n fresh).crcSrc).trans hsrc))

theorem Dev.crcStart_beyond (fresh : Bool) (hrun : d.crcRun n = false) (h : d.CrcOpen n) (hsrc : d.crcSrc n = 1)
    (hcap : d.cap < d.crcAddr n + d.crcLen n) : d.crcStart n fresh = (d.crcBegin n fresh).crcFail n 1 := by
  have hf := d.crcBegin_frame n fresh
  rw [d.crcStart_of_open n fresh hrun h, Dev.crcChecked, hf.crcSrc, hf.cap, hf.crcAddr, hf.crcLen, hsrc]
  simp [hcap]

/-! ### The end of a DMA source -/

theorem Dev.crcDmaEnd_of_no_dma (h : d.crcRun n = false ∨ d.crcSrc n = 0) (bs : List (BitVec 8)) (x : Bool) : d.crcDmaEnd n bs x = d := by
  obtain h | h := h <;> simp [Dev.crcDmaEnd, h]

theorem Dev.crcDmaEnd_of_lost (hrun : d.crcRun n = true) (hsrc : d.crcSrc n = 1) (hlive : d.live 4 = false) (bs : List (BitVec 8)) (x : Bool) :
    d.crcDmaEnd n bs x = d.crcFail n 2 := by
  simp [Dev.crcDmaEnd, Dev.crcSource, hrun, hsrc, hlive]

theorem Dev.crcDmaEnd_of_early (hrun : d.crcRun n = true) (hsrc : d.crcSrc n = 1) (hlive : d.live 4 = true) (hfed : d.crcFed n < d.crcLen n)
    (bs : List (BitVec 8)) (x : Bool) : d.crcDmaEnd n bs x = d := by
  simp [Dev.crcDmaEnd, Dev.crcSource, hrun, hsrc, hlive, hfed]

/-- Of the job store with no unit of it poisoned the bytes of the range are fed as they are. -/
theorem Dev.crcDma_of_clean (hsrc : d.crcSrc n = 1) (hpoison : d.poison = []) (len : Nat) (bs : List (BitVec 8)) (x : Bool) :
    d.crcDma n len bs x = d.crcFeed n (d.bytes (d.crcAddr n) len) := by
  simp [Dev.crcDma, Dev.crcBytes, Dev.bytes, Dev.poisonedAt, Dev.poisonedIn, hsrc, hpoison]

theorem Dev.crcDmaEnd_of_reached (hrun : d.crcRun n = true) (hsrc : d.crcSrc n = 1) (hlive : d.live 4 = true) (hfed : d.crcLen n ≤ d.crcFed n)
    (hpoison : d.poison = []) (bs : List (BitVec 8)) (x : Bool) :
    d.crcDmaEnd n bs x = (d.crcFeed n (d.bytes (d.crcAddr n) (d.crcLen n))).crcEnd n := by
  rw [← d.crcDma_of_clean n hsrc hpoison _ bs x]
  simp [Dev.crcDmaEnd, Dev.crcSource, hrun, hsrc, hlive, Nat.not_lt.2 hfed]

end Sys2Proof.Machine
end

section
/-!
R404 to R407: the commands of the check-value units, and the statement about them.
-/
namespace Sys2Proof.Machine

/-! ### What one device gives, another in its frame gives too -/

section
variable {n : Fin 8} {d e f : Dev}

theorem Dev.CrcFrame.crcAfter (h : d.CrcFrame n e) (r : Nat) (bs : List (BitVec 8)) : e.crcAfter n r bs = d.crcAfter n r bs := by
  have hrefin : e.bit (F.CRC_U_CFG_REFIN n) = d.bit (F.CRC_U_CFG_REFIN n) := h.bit_cfg 8 1
  simp only [Dev.crcAfter, h.crcW, h.crcPair, hrefin]

theorem Dev.CrcFrame.crcResult (h : d.CrcFrame n e) (r : Nat) : e.crcResult n r = d.crcResult n r := by
  have hrefout : e.bit (F.CRC_U_CFG_REFOUT n) = d.bit (F.CRC_U_CFG_REFOUT n) := h.bit_cfg 9 1
  simp only [Dev.crcResult, h.crcW, h.crcPair, hrefout]

theorem Dev.CrcFrame.crcOpen (h : d.CrcFrame n e) : e.CrcOpen n ↔ d.CrcOpen n := by
  simp only [Dev.CrcOpen, Dev.mode, Dev.unitHeld, h.sys, h.boot]

/-- Where r is the same, so is RESULT. -/
theorem Dev.CrcFrame.crcEnd_words (he : d.CrcFrame n e) (hf : d.CrcFrame n f) (hr : e.crcValue n = f.crcValue n) :
    (e.crcEnd n).rd (Reg.CRC_U_RESULT_LO n) = (f.crcEnd n).rd (Reg.CRC_U_RESULT_LO n) ∧
      (e.crcEnd n).rd (Reg.CRC_U_RESULT_HI n) = (f.crcEnd n).rd (Reg.CRC_U_RESULT_HI n) := by
  rw [(e.crcEnd_words n).1, (e.crcEnd_words n).2, (f.crcEnd_words n).1, (f.crcEnd_words n).2, he.crcResult, hf.crcResult, hr]
  exact ⟨rfl, rfl⟩

end

/-- A stream runs on while it is fed. -/
theorem Dev.crcRun_crcFeed (d : Dev) (n : Fin 8) (bs : List (BitVec 8)) : (d.crcFeed n bs).crcRun n = d.crcRun n := by
  obtain ⟨hlo, hhi⟩ := crcValue_ne n (Reg.CRC_U_STATUS n) (by simp)
  have hcount : Reg.CRC_U_STATUS n ≠ Reg.CRC_U_COUNT n := (crcNumbers_ne n _ (by simp [crcNumbers])).2.symm
  have hword : (d.crcFeed n bs).rd (Reg.CRC_U_STATUS n) = d.rd (Reg.CRC_U_STATUS n) := by
    rw [d.crcFeed_eq n bs, Dev.add]
    exact (Dev.rd_set_ne _ _ _ _ hcount).trans (Dev.rd_wrPair_ne _ _ _ _ _ hlo hhi)
  exact Dev.bit_congr (congrArg (F.CRC_U_STATUS_RUN n).of hword)

/-- What feeding and starting leave beside the registers. -/
theorem Dev.crcFeed_rest (d : Dev) (n : Fin 8) (bs : List (BitVec 8)) : d.crcFeed n bs = { d with regs := (d.crcFeed n bs).regs } := rfl

theorem Dev.crcAborted_rest (d : Dev) (n : Fin 8) : d.crcAborted n = { d with regs := (d.crcAborted n).regs } := rfl

theorem Dev.crcBegin_rest (d : Dev) (n : Fin 8) (fresh : Bool) :
    d.crcBegin n fresh = { d with regs := (d.crcBegin n fresh).regs, crcAt := d.crcAt.set n d.now } := by
  cases fresh
  · rw [d.crcBegin_resume n]
    rfl
  · rw [d.crcBegin_go n]
    rfl

/-! ### One statement per operation, in the words of the unit it starts from -/

section
variable {n : Fin 8} {d e : Dev}

/-- r, read off VALUE with the width that the unit keeps. -/
theorem Dev.CrcFrame.value (h : d.CrcFrame n e) : e.pair (Reg.CRC_U_VALUE_LO n) (Reg.CRC_U_VALUE_HI n) % 2 ^ d.crcW n = e.crcValue n :=
  congrArg (fun w => e.pair (Reg.CRC_U_VALUE_LO n) (Reg.CRC_U_VALUE_HI n) % 2 ^ w) h.crcW.symm

theorem Dev.crcFeed_spec (s : State) (bs : List (BitVec 8)) {r : Nat} (hr : s.dev.crcAfter n (s.dev.crcValue n) bs = r) :
    (s.dev.crcFeed n bs).pair (Reg.CRC_U_VALUE_LO n) (Reg.CRC_U_VALUE_HI n) % 2 ^ s.dev.crcW n = r ∧
    (s.dev.crcFeed n bs).get (F.CRC_U_COUNT_BYTES n) = (s.dev.get (F.CRC_U_COUNT_BYTES n) + bs.length) % 2 ^ 32 ∧
    s.withDev (s.dev.crcFeed n bs) = s.withDev { s.dev with regs := (s.dev.crcFeed n bs).regs } := by
  rw [(s.dev.crcFeed_frame n bs).value, ← hr]
  exact ⟨s.dev.crcValue_crcFeed n bs, s.dev.count_crcFeed n bs, congrArg s.withDev (s.dev.crcFeed_rest n bs)⟩

theorem Dev.crcBegin_spec (s : State) (fresh : Bool) :
    let e := s.dev.crcBegin n fresh
    e.crcRun n = true ∧ Nat.testBit (e.get F.CRC_STATUS_RUN) n = true ∧ e.get (F.CRC_U_COUNT_BYTES n) = 0 ∧
    e.get (F.CRC_U_STATUS_DONE n) = 0 ∧ e.get (F.CRC_U_STATUS_MATCH n) = 0 ∧ e.get (F.CRC_U_STATUS_MISMATCH n) = 0 ∧
    e.get (F.CRC_U_STATUS_ABORTED n) = 0 ∧ e.get (F.CRC_U_STATUS_ERR n) = 0 ∧
    e.pair (Reg.CRC_U_VALUE_LO n) (Reg.CRC_U_VALUE_HI n) % 2 ^ s.dev.crcW n =
      (if fresh then s.dev.crcPair n (Reg.CRC_U_INIT_LO n) (Reg.CRC_U_INIT_HI n) else s.dev.crcValue n) ∧
    s.withDev e = s.withDev { s.dev with regs := e.regs, crcAt := s.dev.crcAt.set n s.dev.now } := by
  have hflag : ∀ f ∈ crcFlags n, (s.dev.crcBegin n fresh).get f = 0 := fun f hf => s.dev.flag_crcBegin n fresh hf
  simp only [crcFlags, List.forall_mem_cons] at hflag
  obtain ⟨hdone, hmatch, hmismatch, haborted, herr, -⟩ := hflag
  obtain ⟨hrun, hrunning⟩ := s.dev.crcBegin_running n fresh
  exact ⟨hrun, hrunning, s.dev.count_crcBegin n fresh, hdone, hmatch, hmismatch, haborted, herr,
    (s.dev.crcBegin_frame n fresh).value.trans (s.dev.crcValue_crcBegin n fresh), congrArg s.withDev (s.dev.crcBegin_rest n fresh)⟩

theorem Dev.CrcFrame.crcEnd_spec (h : d.CrcFrame n e) (hraised : e.raised = d.raised) {x : Nat} (hx : d.crcResult n (e.crcValue n) = x) :
    (e.crcEnd n).pair (Reg.CRC_U_RESULT_LO n) (Reg.CRC_U_RESULT_HI n) = x ∧ (e.crcEnd n).bit (F.CRC_U_STATUS_DONE n) = true ∧
    (e.crcEnd n).crcRun n = false ∧ Nat.testBit ((e.crcEnd n).get F.CRC_STATUS_RUN) n = false ∧
    (d.bit (F.CRC_U_CFG_CMP_EN n) = true → x = d.crcPair n (Reg.CRC_U_EXPECT_LO n) (Reg.CRC_U_EXPECT_HI n) →
      (e.crcEnd n).bit (F.CRC_U_STATUS_MATCH n) = true ∧ (e.crcEnd n).raised = d.raised) ∧
    (d.bit (F.CRC_U_CFG_CMP_EN n) = true → x ≠ d.crcPair n (Reg.CRC_U_EXPECT_LO n) (Reg.CRC_U_EXPECT_HI n) →
      (e.crcEnd n).bit (F.CRC_U_STATUS_MISMATCH n) = true ∧
      (e.crcEnd n).raised = d.raised ++ [d.event Ev.CRC_MISMATCH 15 none [n.val, x % 2 ^ 32, x / 2 ^ 32]]) := by
  have hcmp : e.bit (F.CRC_U_CFG_CMP_EN n) = d.bit (F.CRC_U_CFG_CMP_EN n) := h.bit_cfg 10 1
  rw [← h.crcResult] at hx
  subst hx
  rw [← h.crcPair, ← hcmp, ← hraised, ← h.event]
  obtain ⟨hrun, hrunning⟩ := e.crcEnd_stopped n
  exact ⟨e.pair_crcEnd n, e.crcEnd_done n, hrun, hrunning, e.crcEnd_of_eq n, e.crcEnd_of_ne n⟩

end

/-! ### The commands -/

section
variable (s : State) (n : Fin 8) (h : s.dev.reaches 4 = true)
include h

theorem exec_crcGo : exec (.crcGo n) s = .next (s.withDev (s.dev.crcStart n true)) := congrArg s.dest (Dev.host_reaches _ _ _ h)

theorem exec_crcResume : exec (.crcResume n) s = .next (s.withDev (s.dev.crcStart n false)) := congrArg s.dest (Dev.host_reaches _ _ _ h)

theorem exec_crcFinish : exec (.crcFinish n) s = .next (s.withDev (s.dev.crcFinish n)) := congrArg s.dest (Dev.host_reaches _ _ _ h)

theorem exec_crcAbort (k : Nat) (bs : List (BitVec 8)) : exec (.crcAbort n k bs) s = .next (s.withDev (s.dev.crcAbort n k bs)) :=
  congrArg s.dest (Dev.host_reaches _ _ _ h)

theorem exec_crcData (v : Word) : exec (.crcData n v) s = .next (s.withDev (s.dev.crcStream n (bytesLE 4 v.toNat))) :=
  congrArg s.dest (Dev.host_reaches _ _ _ h)

theorem exec_crcDataB (v : BitVec 8) : exec (.crcDataB n v) s = .next (s.withDev (s.dev.crcStream n [v])) :=
  congrArg s.dest (Dev.host_reaches _ _ _ h)

end

theorem exec_crcDmaEnd (s : State) (n : Fin 8) (h : s.dev.live 1 = true) (bs : List (BitVec 8)) (x : Bool) :
    exec (.crcDmaEnd n bs x) s = .next (s.withDev (s.dev.crcDmaEnd n bs x)) :=
  congrArg s.dest (Dev.hw_live _ _ _ h)

theorem Dev.crcStream_of_run (d : Dev) (n : Fin 8) (hrun : d.crcRun n = true) (hsrc : d.crcSrc n = 0) (bs : List (BitVec 8)) :
    d.crcStream n bs = d.crcFeed n bs := by
  simp [Dev.crcStream, hrun, hsrc]

theorem Dev.crcStream_of_not (d : Dev) (n : Fin 8) (h : d.crcRun n = false ∨ d.crcSrc n ≠ 0) (bs : List (BitVec 8)) :
    d.crcStream n bs = d.set (F.CRC_U_STATUS_DROP n) 1 := by
  obtain h | h := h <;> simp [Dev.crcStream, h]

theorem Dev.crcFinish_of_run (d : Dev) (n : Fin 8) (hrun : d.crcRun n = true) (hsrc : d.crcSrc n = 0) : d.crcFinish n = d.crcEnd n := by
  simp [Dev.crcFinish, hrun, hsrc]

theorem Dev.crcFinish_of_not (d : Dev) (n : Fin 8) (h : d.crcRun n = false ∨ d.crcSrc n ≠ 0) : d.crcFinish n = d := by
  obtain h | h := h <;> simp [Dev.crcFinish, h]

theorem Dev.crcAbort_of_not (d : Dev) (n : Fin 8) (h : d.crcRun n = false) (k : Nat) (bs : List (BitVec 8)) : d.crcAbort n k bs = d := by
  simp [Dev.crcAbort, h]

/-- A field set is all that changes. -/
theorem State.gives_set (s : State) (f : Fld) (v : Nat) : s.gives (s.withDev (s.dev.set f v)) [(f.reg, f.into (s.dev.rd f.reg) v)] :=
  s.gives_withDev _ _ id rfl fun a => by rw [Dev.rd_set, Dev.wordAfter_cons, Dev.wordAfter_nil]

/-- The four bytes of a word of DATA, bits [7:0] first. -/
theorem bytesLE_word (v : Word) : bytesLE 4 v.toNat = [v.extractLsb' 0 8, v.extractLsb' 8 8, v.extractLsb' 16 8, v.extractLsb' 24 8] := by
  simp [bytesLE, BitVec.extractLsb', Nat.shiftRight_eq_div_pow, Nat.div_div_eq_div_mul]

/-! A running stream. -/

section
variable (s : State) (n : Fin 8) (h : s.dev.reaches 4 = true) (hrun : s.dev.crcRun n = true) (hsrc : s.dev.crcSrc n = 0)
include h hrun hsrc

theorem exec_crcData_stream (v : Word) : exec (.crcData n v) s = .next (s.withDev (s.dev.crcFeed n (bytesLE 4 v.toNat))) := by
  rw [exec_crcData s n h, s.dev.crcStream_of_run n hrun hsrc]

theorem exec_crcDataB_stream (v : BitVec 8) : exec (.crcDataB n v) s = .next (s.withDev (s.dev.crcFeed n [v])) := by
  rw [exec_crcDataB s n h, s.dev.crcStream_of_run n hrun hsrc]

theorem exec_crcFinish_stream : exec (.crcFinish n) s = .next (s.withDev (s.dev.crcEnd n)) := by
  rw [exec_crcFinish s n h, s.dev.crcFinish_of_run n hrun hsrc]

theorem exec_crcAbort_stream (k : Nat) (bs : List (BitVec 8)) : exec (.crcAbort n k bs) s = .next (s.withDev (s.dev.crcAborted n)) := by
  rw [exec_crcAbort s n h, s.dev.crcAbort_stream n hrun hsrc]

end

section
variable (s : State) (n : Fin 8) (h : s.dev.reaches 4 = true) (hrun : s.dev.crcRun n = false) (hopen : s.dev.CrcOpen n) (hsrc : s.dev.crcSrc n = 0)
include h hrun hopen hsrc

theorem exec_crcGo_stream : exec (.crcGo n) s = .next (s.withDev (s.dev.crcBegin n true)) := by
  rw [exec_crcGo s n h, s.dev.crcStart_stream n true hrun hopen hsrc]

theorem exec_crcResume_stream : exec (.crcResume n) s = .next (s.withDev (s.dev.crcBegin n false)) := by
  rw [exec_crcResume s n h, s.dev.crcStart_stream n false hrun hopen hsrc]

end

theorem State.dev_eq_of_next {o : Host.Outcome State Fault Refusal} {s t : State} {d : Dev} (h : o = .next t) (hd : o = .next (s.withDev d)) :
    t.dev = d := by
  cases h.symm.trans hd
  rfl

/-- R407: a stream stopped by ABORT and continued by RESUME ends with the result of one that was not. -/
theorem crc_resumed_result (s : State) (n : Fin 8) (hreach : s.dev.reaches 4 = true) (hrun : s.dev.crcRun n = true) (hopen : s.dev.CrcOpen n)
    (hsrc : s.dev.crcSrc n = 0) (v : Word) (k : Nat) (bs : List (BitVec 8)) {t1 t2 t3 t4 u1 u2 : State}
    (h1 : exec (.crcAbort n k bs) s = .next t1) (h2 : exec (.crcResume n) t1 = .next t2) (h3 : exec (.crcData n v) t2 = .next t3)
    (h4 : exec (.crcFinish n) t3 = .next t4) (g1 : exec (.crcData n v) s = .next u1) (g2 : exec (.crcFinish n) u1 = .next u2) :
    t4.dev.rd (Reg.CRC_U_RESULT_LO n) = u2.dev.rd (Reg.CRC_U_RESULT_LO n) ∧
      t4.dev.rd (Reg.CRC_U_RESULT_HI n) = u2.dev.rd (Reg.CRC_U_RESULT_HI n) := by
  have e1 : t1.dev = s.dev.crcAborted n := State.dev_eq_of_next h1 (exec_crcAbort_stream s n hreach hrun hsrc k bs)
  have f1 : s.dev.CrcFrame n t1.dev := e1 ▸ s.dev.crcAborted_frame n
  have run1 : t1.dev.crcRun n = false := e1 ▸ Dev.crcRun_setCrcRun _ n false
  have e2 : t2.dev = t1.dev.crcBegin n false :=
    State.dev_eq_of_next h2 (exec_crcResume_stream t1 n ((f1.reaches 4).trans hreach) run1 (f1.crcOpen.2 hopen) (f1.crcSrc.trans hsrc))
  have f2 : s.dev.CrcFrame n t2.dev := f1.trans (e2 ▸ t1.dev.crcBegin_frame n false)
  have run2 : t2.dev.crcRun n = true := e2 ▸ (t1.dev.crcBegin_running n false).1
  have e3 : t3.dev = t2.dev.crcFeed n (bytesLE 4 v.toNat) :=
    State.dev_eq_of_next h3 (exec_crcData_stream t2 n ((f2.reaches 4).trans hreach) run2 (f2.crcSrc.trans hsrc) v)
  have f3 : s.dev.CrcFrame n t3.dev := f2.trans (e3 ▸ t2.dev.crcFeed_frame n _)
  have run3 : t3.dev.crcRun n = true := by rw [e3, Dev.crcRun_crcFeed, run2]
  have e4 : t4.dev = t3.dev.crcEnd n :=
    State.dev_eq_of_next h4 (exec_crcFinish_stream t3 n ((f3.reaches 4).trans hreach) run3 (f3.crcSrc.trans hsrc))
  have a1 : u1.dev = s.dev.crcFeed n (bytesLE 4 v.toNat) := State.dev_eq_of_next g1 (exec_crcData_stream s n hreach hrun hsrc v)
  have fu : s.dev.CrcFrame n u1.dev := a1 ▸ s.dev.crcFeed_frame n _
  have runu : u1.dev.crcRun n = true := by rw [a1, Dev.crcRun_crcFeed, hrun]
  have a2 : u2.dev = u1.dev.crcEnd n :=
    State.dev_eq_of_next g2 (exec_crcFinish_stream u1 n ((fu.reaches 4).trans hreach) runu (fu.crcSrc.trans hsrc))
  rw [e4, a2]
  refine f3.crcEnd_words fu ?_
  calc t3.dev.crcValue n = s.dev.crcAfter n (t2.dev.crcValue n) (bytesLE 4 v.toNat) := by rw [e3, Dev.crcValue_crcFeed, f2.crcAfter]
    _ = s.dev.crcAfter n (s.dev.crcValue n) (bytesLE 4 v.toNat) := by
      rw [e2, Dev.crcValue_crcBegin, if_neg Bool.false_ne_true, e1, Dev.crcValue_crcAborted]
    _ = u1.dev.crcValue n := by rw [a1, Dev.crcValue_crcFeed]

/-! ### The statement -/

/-- Settles O55: each command of a unit, where it acts, is one of the operations above. -/
theorem checkValues : Obligations.CheckValues := by
  intro s n d w low value take feed turned fed result ended start opens
  have hfeed : ∀ r bs, d.crcAfter n r bs = feed r bs := fun r bs => by
    simp only [Dev.crcAfter, crcBits_byteBits, Dev.crcPair, crcBit_eq]
    rfl
  have hresult : ∀ r, d.crcResult n r = result r := fun r => by
    simp only [Dev.crcResult, reflect_eq_foldl]
    rfl
  have hfed : ∀ bs, fed bs (s.withDev (d.crcFeed n bs)) := fun bs => Dev.crcFeed_spec s bs (hfeed _ bs)
  have hstart : ∀ fresh, start fresh (s.withDev (d.crcBegin n fresh)) := Dev.crcBegin_spec s
  have hended : ∀ e, d.CrcFrame n e → e.raised = d.raised → ended (e.crcValue n) (s.withDev (e.crcEnd n)) := fun e he hraised =>
    he.crcEnd_spec hraised (hresult _)
  refine ⟨fun hreach => ⟨fun hrun => ?_, fun hrun hclosed => ?_, fun hrun hopen hsrc => ?_, fun hrun hopen hsrc hcap => ?_, fun hnot => ?_,
    fun hrun hsrc => ?_, fun hrun k bs => ?_, fun hrun hopen hsrc v k bs t1 t2 t3 t4 u1 u2 => crc_resumed_result s n hreach hrun hopen hsrc v k bs⟩,
    fun hlive => ⟨fun hnot bs x => ?_, fun hrun hsrc h4 bs x => ?_, fun hrun hsrc h4 hlen bs x => ?_, fun hrun hsrc h4 hlen hpoison bs x => ?_⟩⟩
  · have hgives := s.gives_set (F.CRC_U_STATUS_WERR n) 1
    exact ⟨⟨_, by rw [exec_crcGo s n hreach, d.crcStart_of_run n true hrun], hgives⟩,
      ⟨_, by rw [exec_crcResume s n hreach, d.crcStart_of_run n false hrun], hgives⟩⟩
  · rw [exec_crcGo s n hreach, exec_crcResume s n hreach, d.crcStart_of_not_open n true hrun hclosed, d.crcStart_of_not_open n false hrun hclosed]
    exact ⟨rfl, rfl⟩
  · exact ⟨⟨_, exec_crcGo_stream s n hreach hrun hopen hsrc, hstart true⟩, ⟨_, exec_crcResume_stream s n hreach hrun hopen hsrc, hstart false⟩⟩
  · refine ⟨_, exec_crcGo s n hreach, ?_⟩
    rw [State.withDev_dev, d.crcStart_beyond n true hrun hopen hsrc hcap]
    refine ⟨Dev.crcRun_crcFail _ n 1, Dev.err_crcFail _ n 1, ?_⟩
    rw [Dev.crcFail_raised, (d.crcBegin_frame n true).event, d.crcBegin_rest n true]
  · have hgives := s.gives_set (F.CRC_U_STATUS_DROP n) 1
    refine ⟨fun v => ⟨_, by rw [exec_crcData s n hreach, d.crcStream_of_not n hnot], hgives⟩,
      fun v => ⟨_, by rw [exec_crcDataB s n hreach, d.crcStream_of_not n hnot], hgives⟩, ?_⟩
    rw [exec_crcFinish s n hreach, d.crcFinish_of_not n hnot]
    rfl
  · refine ⟨fun v => ⟨_, exec_crcData_stream s n hreach hrun hsrc v, bytesLE_word v ▸ hfed _⟩,
      fun v => ⟨_, exec_crcDataB_stream s n hreach hrun hsrc v, hfed _⟩,
      ⟨_, exec_crcFinish_stream s n hreach hrun hsrc, hended d (.refl n d) rfl⟩, fun k bs => ⟨_, exec_crcAbort_stream s n hreach hrun hsrc k bs, ?_⟩⟩
    exact ⟨Dev.crcRun_setCrcRun _ n false, d.crcAborted_flag n, (d.crcAborted_frame n).value.trans (d.crcValue_crcAborted n),
      congrArg s.withDev (d.crcAborted_rest n)⟩
  · rw [exec_crcAbort s n hreach, d.crcAbort_of_not n hrun]
    rfl
  · rw [exec_crcDmaEnd s n hlive, d.crcDmaEnd_of_no_dma n hnot]
    rfl
  · refine ⟨_, exec_crcDmaEnd s n hlive bs x, ?_⟩
    rw [State.withDev_dev, d.crcDmaEnd_of_lost n hrun hsrc h4]
    exact ⟨d.crcRun_crcFail n 2, d.err_crcFail n 2⟩
  · rw [exec_crcDmaEnd s n hlive, d.crcDmaEnd_of_early n hrun hsrc h4 hlen]
    rfl
  · refine ⟨_, exec_crcDmaEnd s n hlive bs x, ?_⟩
    rw [d.crcDmaEnd_of_reached n hrun hsrc h4 hlen hpoison, ← hfeed]
    exact d.crcValue_crcFeed n _ ▸ hended _ (d.crcFeed_frame n _) rfl

end Sys2Proof.Machine
end
